-- ==== Sys2Proof/Word.lean ====
section
/-! DEFINITION. Words: bytes, words of 32 and 64 bits, and the plainest bit-field arithmetic on natural numbers. -/

namespace Sys2Proof

/-- One byte. -/
abbrev Byte := BitVec 8

/-- A run of bytes, lowest address first. -/
abbrev Bytes := List Byte

/-- A 32-bit word: a cluster counter (R174). -/
abbrev Word32 := BitVec 32

/-- A 64-bit word: a core register (R168), a module register (R420). -/
abbrev Word := BitVec 64

end Sys2Proof
end

