-- ==== Sys2Proof/Syntax.lean ====
section
/-! DEFINITION. The commands of the FV512: one constructor of Instr for each row of the opcode table, with the row's operands. -/

namespace Sys2Proof

/-- What the accesses of an offered descriptor meet here: words whose first write loses a contest at their bank (R240, R241), by local address,
and correctable errors, as local address and DETAIL (R360). -/
structure OfferMeets where
  lost : List Nat := []
  ces : List (Nat × Nat) := []
  deriving DecidableEq, Repr

/-- Who issues a descriptor (R163): a sequencer core, by its logical number 0 to 8,191, or a host submission queue 0 to 63. -/
inductive Issuer where
  | core (k : Nat)
  | host (q : Nat)
  deriving DecidableEq, Repr

/-- A descriptor as its issuer offers it: the 64 bytes of R158, and for a core the counter that its completion signals
(none when NC is 1, Table 8.6). -/
structure Offer where
  iss : Issuer
  ctr : Option Nat := none
  bytes : Bytes
  /-- Local addresses of the destination words whose first write loses a same-word contest at their bank (R240, R241). -/
  lost : List Nat := []
  /-- Correctable errors that its accesses meet on this module (R360): local address and DETAIL (Table 16.6). -/
  ces : List (Nat × Nat) := []
  deriving DecidableEq, Repr

/-- Which bytes of a 64-bit register a BAR0 access covers (R412): all 8, the lower 4 or the upper 4. -/
inductive Half where
  | both
  | lo
  | hi
  deriving DecidableEq, Repr

/-- A BAR0 write: the bytes it covers and the value, placed as in the whole register. -/
structure Wr where
  half : Half := .both
  v : Word
  deriving DecidableEq, Repr

/-- A packet of the Gauze fabric (R280): the routing header of Table 13.4, the 16 bytes at payload offset 0x10 (the operation
header of Table 13.6, or what the kind puts there) and the data from payload offset 0x20. `cls` is the dateline class (R284). -/
structure Packet where
  dst : Nat
  src : Nat
  kind : Nat
  rflags : Nat := 0
  epoch : Nat := 0
  txn : Nat := 0
  cls : Nat := 0
  hdr : Bytes
  data : Bytes := []
  deriving DecidableEq, Repr

/-- What the MP reads from the devices of a board channel (R255, R256): ranks, device width in bits, density in Gb, whether the devices
are 3DS stacks, whether all of them agree, and whether the channel trains. -/
structure ChannelProbe where
  ranks : Nat
  width : Nat := 4
  density : Nat
  stacked : Bool := false
  agree : Bool := true
  trains : Bool := true
  deriving DecidableEq, Repr

/-- What the supply monitor samples in one tick (R378): VIN in units of 10 mV, input current in units of 0.25 A, input power in W; and
whether FLN_REFCLK runs (R387); with them the reset inputs, which are sampled in the same tick (R436), and what the PCIe link reports in it
(R418). A sample that a command does not spell out has the nominal VIN, and asserts no reset. -/
structure Sample where
  vin : Nat := 7200
  iin : Nat := 0
  pin : Nat := 0
  ref : Bool := true
  /-- Levels of the reset inputs (R436): PERST_N and MOD_RESET_N high, VIN_PG asserted. -/
  perstN : Bool := true
  modResetN : Bool := true
  vinPg : Bool := true
  /-- AER status bits of the link-level errors and ECRC failures of the tick (Table 19.2). -/
  link : List Nat := []
  deriving DecidableEq, Repr

/-- What the MP finds at a start: the straps of R437, the tests of R253 and the identification of R256 and R259. A start takes
these from outside the module, so they come with the command. -/
structure Probe where
  /-- CLK_SEL (R437). -/
  clkSel : Bool := false
  /-- BOARD_MT1 and BOARD_MT0 (R437). -/
  boardMt : Nat := 0
  /-- Pseudo-channels of stacks 0 to 7 that fail the start's test (R253). -/
  stackFails : List (List Nat) := []
  /-- Channels 0 to 15, none for an empty channel (R256). -/
  channels : List (Option ChannelProbe) := []
  /-- Far ports 0 and 1: none when nothing is attached, else the device capacity in bytes, the link width, and whether it
  trained at x16 and 64 GT/s (R258, R259). -/
  far : List (Option (Nat × Nat × Bool)) := []
  deriving DecidableEq, Repr

/-- What a private transfer of the I3C port carries beside its offset and data (R421, R422): the address it is sent to, none for the one
that the port answers at; the command byte, none for that of the row; and the length of a read. -/
structure I3cXfer where
  addr : Option Nat := none
  cmd : Option Nat := none
  len : Nat := 8
  deriving DecidableEq, Repr

/-- A failing or marked unit, as a fault record names it (Table 16.5, Table 16.6). -/
structure FaultId where
  kind : Nat
  subject : Nat
  unit : Nat
  location : Nat
  deriving DecidableEq, Repr

/-- How an SQ fetch from host memory ends (R187): the 64 bytes of the entry, or the failure that the completer or PCIe reports: 8 Unsupported Request,
9 Completer Abort, 10 a poisoned completion, 11 a completion timeout (Table 19.2). -/
inductive HostData where
  | entry (b : Bytes)
  | failed (aerBit : Nat)
  deriving DecidableEq, Repr

/-- How a flash write ends, as far as the module cannot decide it itself: the read-back agreed or not, and whether VIN fell
below the NV threshold before the end (R69, R267, R403).
DESIGN CHOICE: notes/assumptions/78.md. -/
structure NvEnd where
  verifyOk : Bool := true
  sag : Bool := false
  /-- Correctable errors that the operation's reads of memory meet, as local address and DETAIL (R360). -/
  ces : List (Nat × Nat) := []
  deriving DecidableEq, Repr

/-- What the accesses of an arriving packet meet at this module: words whose write loses a contest at their bank, with the attempts that
lose (R240, R241), and correctable errors, as local address and DETAIL (R360). -/
structure Meets where
  lost : List (Nat × Nat) := []
  ces : List (Nat × Nat) := []
  deriving DecidableEq, Repr

/-- One segment that a stage sends into a stage queue (R343, R344): the queue's receiving stage, direction (0 forward, 1 backward)
and CREDIT_BYTES, the sending group, the micro-batch, the message offset and length of the segment, whether it is the message's
last, and the local address of its bytes. -/
structure StageSeg where
  stage : Nat
  dir : Nat
  credit : Nat
  group : Nat
  microBatch : Nat
  off : Nat
  len : Nat
  last : Bool
  src : Nat
  step : Nat
  /-- What the read of its bytes, and the move into a stage of this module, meet here (R360, R240). -/
  meets : Meets := {}
  deriving DecidableEq, Repr

/-- One command: a row of the opcode table with its operands. `n` is a logical cluster, `k` a logical core, `e` a logical Serge
engine, `p` a port, `d` a power domain, `q` a queue, `u` a scrub unit, `id` the number the module gave an accepted descriptor. -/
inductive Instr where
  -- array, vector slice and stash
  | matmul (o : Offer)
  | matmulStart (n : Nat)
  | matmulIntervalEnd (n busy : Nat)
  | matmulWritebackEnd (n busy : Nat)
  | curvgather (o : Offer)
  | deltaSegmentRetry (id : Nat)
  | vecop (o : Offer)
  | vectorDescriptorStart (n cycle : Nat) (delays : List Nat)
  | compress (o : Offer)
  | expand (o : Offer)
  | stashPut (o : Offer)
  | stashGet (o : Offer)
  | stashTake (o : Offer)
  | stashFree (o : Offer)
  -- data movers, collectives, Serge, fence and signal
  | copy (o : Offer)
  | racc (o : Offer)
  | gather (o : Offer)
  | gatherRetry (id : Nat)
  | gatherDeadline (id : Nat)
  | gatherRoot (o : Offer)
  | drop (o : Offer)
  | dropRoot (o : Offer)
  | bcast (o : Offer)
  | permute (o : Offer)
  | permuteDrainTimeout (id : Nat)
  | permuteFinal
  | finalDrainTimeout
  | gate (o : Offer)
  | gateRecordForm (ces : List (Nat × Nat) := [])
  | solve (o : Offer)
  | solveStart (e : Nat)
  | solveIterationEnd (e : Nat) (ces : List (Nat × Nat) := [])
  | solveFactorisationEnd (e : Nat) (ces : List (Nat × Nat) := [])
  | solveDeadline (id : Nat) (ces : List (Nat × Nat) := [])
  | solvePublish (e : Nat) (ces : List (Nat × Nat) := [])
  | fence (o : Offer)
  | signal (o : Offer)
  | descriptorCompletion (id : Nat)
  | trackerEntryGrant (n : Nat)
  -- sequencer cores
  | issue (k : Nat) (m : OfferMeets)
  | wait (k : Nat)
  | waitTimeout (k : Nat)
  | loop (k : Nat)
  | beq (k : Nat)
  | bne (k : Nat)
  | blt (k : Nat)
  | bge (k : Nat)
  | bltu (k : Nat)
  | bgeu (k : Nat)
  | jump (k : Nat)
  | add (k : Nat)
  | sub (k : Nat)
  | addi (k : Nat)
  | shl (k : Nat)
  | shr (k : Nat)
  | sra (k : Nat)
  | and (k : Nat)
  | or (k : Nat)
  | xor (k : Nat)
  | coreLoad (k : Nat) (ce : Option Nat)
  | coreStore (k : Nat) (lost : Bool)
  | storeRetry (k : Nat) (lost : Bool)
  | coreFence (k : Nat)
  | coreSignal (k : Nat)
  | halt (k : Nat)
  -- host queues
  | sqDoorbell (q : Nat) (w : Wr)
  | sqEntryFetch (h : HostData) (m : OfferMeets)
  | fetchErrClear (q : Nat)
  | sqEnable (q : Nat) (w : Wr)
  | sqDisable (q : Nat) (w : Wr)
  | sqAbort (q : Nat) (w : Wr)
  | cqEnable (q : Nat) (w : Wr)
  | cqDisable (q : Nat) (w : Wr)
  | cqHeadWrite (q : Nat) (w : Wr)
  -- operations of the MP
  | dmkLoad (w : Wr) (nv : NvEnd := {})
  | damaskClearDone
  | dmkStore (w : Wr) (nv : NvEnd)
  | dmkErase (w : Wr) (nv : NvEnd := {})
  | dmkSetBoot (w : Wr) (nv : NvEnd := {})
  | bootDamaskLoad
  | seqLoad (w : Wr) (ces : List (Nat × Nat) := [])
  | seqStart (w : Wr)
  | seqStop (w : Wr)
  | retire (w : Wr) (nv : NvEnd)
  | release (w : Wr) (nv : NvEnd)
  | stage (w : Wr) (nv : NvEnd)
  | activate (w : Wr)
  | unstage (w : Wr)
  | revert (w : Wr)
  | mpBoot (adoptOk : Bool)
  | firmwareReload (component unit : Nat)
  -- register writes with an effect of their own
  | calNow (p : Nat) (w : Wr)
  | releaseHeld (p : Nat) (w : Wr)
  | retrain (p : Nat) (w : Wr)
  | lostClear (p : Nat) (w : Wr)
  | cancel (w : Wr)
  | clearBuckets (w : Wr)
  | unhold (w : Wr) (ces : List (Nat × Nat) := [])
  | gblStepWrite (w : Wr)
  | gblBar2BaseWrite (w : Wr)
  | gblCounterWrite (n c : Nat) (w : Wr)
  | forcePolicy (d : Nat) (w : Wr)
  | forceOn (d : Nat) (w : Wr)
  | forceRetain (d : Nat) (w : Wr)
  | forceOff (d : Nat) (w : Wr)
  | attnClear (w : Wr) (sameTick : Nat)
  | registerWrite (off : Nat) (w : Wr) (sameTick : Nat := 0)
  | registerReadClear (off : Nat) (h : Half)
  | bar0BadAccess (off size : Nat) (write : Bool)
  | bar2Read (a len : Nat) (ces : List (Nat × Nat))
  | bar2Write (a : Nat) (b : Bytes) (losses : Nat) (ces : List (Nat × Nat) := [])
  | configRequest (off : Nat) (write : Option Nat)
  | d3hotEntry
  | d0Return
  -- resets, start, Calico
  | hotReset (dt : Nat)
  | perstNAssert (dt : Nat)
  | modResetNAssert (dt : Nat)
  | vinPgDeassert (dt : Nat)
  | moduleStart (pr : Probe)
  | calicoRepublish
  | calicoPublishEnd
  | flannelPowerUp
  | flannelPowerLoss
  -- supply, clock, thermal
  | nvThresholdFall (vin : Nat)
  | nvThresholdRise (vin : Nat)
  | lowThresholdFall (vin : Nat)
  | lowThresholdRise (vin : Nat)
  | supplyShutdown (vin dt : Nat)
  | throttleCurrent (iin : Nat)
  | throttlePower (pin : Nat)
  | throttleEnd (pin iin : Nat)
  | refclkLost
  | refclkRestore
  | thermAlertAssert (celsius : Nat)
  | thermAlertRelease (celsius : Nat)
  | thermalForceLow (celsius : Nat)
  | thermalForceRelease (celsius : Nat)
  | xspiOwnChange (level : Bool) (writes : List (Nat × Bytes) := [])
  -- test port and I3C
  | bypass (opcode : Nat := 0xFF)
  | idcode
  | samplePreload (cells : Bytes)
  | extest
  | clamp
  | highz
  | i3cRead (off : Nat) (x : I3cXfer := {})
  | i3cWrite (off : Nat) (b : Bytes) (x : I3cXfer := {})
  | entdaa (addr : Nat)
  | setdasa (addr : Nat) (target : Nat := 0x2C)
  | rstdaa
  | getpid (addr : Option Nat := none)
  | getbcr (addr : Option Nat := none)
  | getdcr (addr : Option Nat := none)
  | getstatus (addr : Option Nat := none)
  | getmxds (addr : Option Nat := none)
  -- errors, faults, scrubbing
  | uncorrectableError (errs : List (FaultId × Nat × Nat)) (dt : Nat)
  | farLinkDown (port linkState dt : Nat)
  | faultWindowClose
  | faultLogPersist (part : Option Nat := none)
  | scrubAccess (u : Nat) (found : Option (Nat × Nat)) (more : List (Nat × Nat))
  | scrubOverdue (u : Nat)
  -- power domains and envelopes
  | domainRetainTimeout (d : Nat)
  | domainOffTimeout (d : Nat)
  | domainSleepComplete (d : Nat)
  | domainWakeComplete (d : Nat) (lost : List (Nat × Nat × Nat) := [])
  | wakeFail (d phase : Nat)
  | envelopeFallsEnd
  | envelopeRisesEnd
  | sergeSwap (e : Nat)
  -- Serge folds, schedules, memory events
  | deltaPacketFold (f : Nat) (ces : List (Nat × Nat) := [])
  | scheduledRootRefresh (f : Nat) (o : Offer)
  | recalSlotStart (r : Nat)
  | recalSlotEnd (r waited : Nat)
  | prefetchEnd (b : Nat) (ces : List (Nat × Nat) := [])
  | dataMoverRetry (n : Nat) (lost : Bool)
  -- Gauze flits, lanes, links
  | dataFlitReceive (p : Nat) (flit : Bytes) (badLane : Option (Nat × Nat))
  | controlFlitReceive (p : Nat) (flit : Bytes) (badLane : Option (Nat × Nat))
  | controlFlitSend (p : Nat)
  | move (p lane phys : Nat)
  | moved (p lane : Nat)
  | failed (p lane : Nat)
  | width (p w : Nat)
  | drift (p lane : Nat)
  | calRotation (p : Nat)
  | laneAdaptEnd (p : Nat)
  | laneFailureDetect (p phys : Nat)
  | linkSilence (p : Nat)
  | lossOfSignal (p lanes : Nat)
  | transactionTimeout (txn : Nat)
  | trainingEnd (p : Nat) (partnerNode partnerPod partnerPort : Nat) (failedLanes : List Nat) (partnerActive : Nat := 16)
  | telemetryWindowEnd (p txData rxData stallTicks : Nat) (fecCorr margin : List Nat)
  | packetForward (i : Nat)
  -- packets
  | readReq (k : Packet) (m : Meets := {})
  | readResp (k : Packet) (m : Meets := {})
  | write (k : Packet) (m : Meets := {})
  | raccPacket (k : Packet) (m : Meets := {})
  | signalPacket (k : Packet)
  | delta (k : Packet) (m : Meets := {})
  | deltaReservationTimeout (f txn : Nat)
  | bucket (k : Packet)
  | ack (k : Packet)
  | beacon (p : Nat) (k : Packet)
  | beaconSeenExpiry (i : FaultId)
  | gateUp (k : Packet) (m : Meets := {})
  | gateDown (k : Packet) (m : Meets := {})
  | bucketRelease (ces : List (Nat × Nat) := [])
  | ringMax (k : Packet)
  | ringScale (k : Packet)
  | ringData (k : Packet) (m : Meets := {})
  | mirrorFwd (k : Packet) (m : Meets := {})
  | fprint (k : Packet) (m : Meets := {})
  | bcastData (k : Packet) (m : Meets := {})
  | paramRead (k : Packet) (m : Meets := {})
  | paramData (k : Packet) (m : Meets := {})
  | rootHold (k : Packet) (m : Meets := {})
  | rootDrop (k : Packet)
  | stageSend (g : StageSeg)
  | stageData (k : Packet) (m : Meets := {})
  | stageCredit (k : Packet)
  | permuteData (k : Packet) (m : Meets := {})
  | reshardUp (k : Packet)
  | reshardDown (k : Packet)
  -- ticks and late rows of the table
  | flannelTick (x : Sample := {})
  | idleFlitReceive (p : Nat) (flit : Bytes := []) (badLane : Option (Nat × Nat) := none)
  | startResidualEnd (e : Nat) (ces : List (Nat × Nat) := [])
  | stateWriteBackEnd (b : Nat) (ces : List (Nat × Nat) := [])
  | farLinkRecoveryStart (port : Nat)
  | farLinkRecoveryEnd (port : Nat)
  | pcieLinkUp (speed width : Nat) (flitMode : Bool)
  | driftAlarm (p phys margin : Nat)
  | testLogicReset
  deriving DecidableEq, Repr

end Sys2Proof
end

