-- ==== Sys2Proof/WellFormed.lean ====
section
/-! DEFINITION. Which commands are well formed: the units they name exist and their byte runs have the sizes the spec gives. -/

namespace Sys2Proof

/-- Logical clusters 0 to 511 (Table 1.3). -/
def clusterOk (n : Nat) : Bool := decide (n < 512)
/-- Logical cores 0 to 8,191 (Table 1.3). -/
def coreOk (k : Nat) : Bool := decide (k < 8192)
/-- Logical Serge engines 0 to 3 (Table 1.3). -/
def engineOk (e : Nat) : Bool := decide (e < 4)
/-- Gauze ports 0 to 7 (Table 1.3). -/
def portOk (p : Nat) : Bool := decide (p < 8)
/-- Far-tier ports 0 and 1 (Table 1.3). -/
def farOk (p : Nat) : Bool := decide (p < 2)
/-- Power domains 0 to 57 (Table 17.9). -/
def domainOk (d : Nat) : Bool := decide (d < 58)
/-- Host queues and rings 0 to 63 (R179). -/
def queueOk (q : Nat) : Bool := decide (q < 64)
/-- Scrub units 0 to 549 (Table 16.10). -/
def scrubOk (u : Nat) : Bool := decide (u < 550)
/-- Tier units 0 to 25 (Table 2.7). -/
def tierOk (r : Nat) : Bool := decide (r < 26)
/-- Factors 0 to 4,095 of a SERGE section (Table 3.10). -/
def factorOk (f : Nat) : Bool := decide (f < 4096)
/-- Buckets 0 to 16,383 of a COLLECTIVE section (Table 3.8). -/
def bucketOk (b : Nat) : Bool := decide (b < 16384)
/-- Logical lanes 0 to 15 of a port. -/
def laneOk (l : Nat) : Bool := decide (l < 16)
/-- Physical lanes 0 to 17 of a port. -/
def physOk (l : Nat) : Bool := decide (l < 18)
/-- A byte offset in BAR0 (R412), which covers 64 MiB. -/
def regOffOk (o : Nat) : Bool := decide (o < 0x4000000)
/-- A range of BAR2 (R410, R414), which covers 64 GiB. -/
def bar2Ok (a len : Nat) : Bool := decide (0 < len) && decide (a + len ≤ 0x1000000000)
/-- A register offset of the PCIe configuration space. -/
def configOk (o : Nat) : Bool := decide (o < 0x1000) && decide (o % 4 = 0)
/-- A 7-bit I3C address (R421). -/
def i3cOk (a : Nat) : Bool := decide (0 < a ∧ a < 128)

/-- An offered descriptor has 64 bytes, and a core's names its counter or none (Table 8.6). -/
def Offer.wf (o : Offer) : Bool :=
  o.bytes.length == 64 &&
  (match o.iss with
    | .core k => coreOk k && (match o.ctr with | some c => decide (c < 64) | none => true)
    | .host q => queueOk q && o.ctr.isNone)

/-- A packet carries its 16 header bytes, 16-bit nodes and a 32-bit TXN, and at most the data of 40 flits (R280). -/
def Packet.wf (k : Packet) : Bool :=
  k.hdr.length == 16 && decide (k.dst < 65536) && decide (k.src < 65536) && decide (k.kind < 256) &&
  decide (k.txn < 2 ^ 32) && decide (k.data.length ≤ 2288)

def HostData.wf : HostData → Bool
  | .entry b => b.length == 64
  | .failed e => decide (8 ≤ e ∧ e ≤ 11)

/-- A start finds 8 stacks, 16 channels and 2 far ports (R253, R256, R258). -/
def Probe.wf (p : Probe) : Bool :=
  decide (p.boardMt < 4) && decide (p.stackFails.length ≤ 8) && decide (p.channels.length ≤ 16) && decide (p.far.length ≤ 2)

/-- A stage segment lies in a queue of 255 stages, one of two directions, of one of 64 groups (Table 3.9, Table 15.5). -/
def StageSeg.wf (g : StageSeg) : Bool :=
  decide (g.stage < 255) && decide (g.dir < 2) && decide (g.group < 64) && decide (0 < g.len)

/-- The command is well formed. -/
def Instr.wf : Instr → Bool
  | .matmul o => o.wf
  | .matmulStart n => clusterOk n
  | .matmulIntervalEnd n _ => clusterOk n
  | .matmulWritebackEnd n _ => clusterOk n
  | .curvgather o => o.wf
  | .deltaSegmentRetry _ => true
  | .vecop o => o.wf
  | .vectorDescriptorStart n _ _ => clusterOk n
  | .compress o => o.wf
  | .expand o => o.wf
  | .stashPut o => o.wf
  | .stashGet o => o.wf
  | .stashTake o => o.wf
  | .stashFree o => o.wf
  | .copy o => o.wf
  | .racc o => o.wf
  | .gather o => o.wf
  | .gatherRetry _ => true
  | .gatherDeadline _ => true
  | .gatherRoot o => o.wf
  | .drop o => o.wf
  | .dropRoot o => o.wf
  | .bcast o => o.wf
  | .permute o => o.wf
  | .permuteDrainTimeout _ => true
  | .permuteFinal => true
  | .finalDrainTimeout => true
  | .gate o => o.wf
  | .gateRecordForm _ => true
  | .solve o => o.wf
  | .solveStart e => engineOk e
  | .solveIterationEnd e _ => engineOk e
  | .solveFactorisationEnd e _ => engineOk e
  | .solveDeadline _ _ => true
  | .solvePublish e _ => engineOk e
  | .fence o => o.wf
  | .signal o => o.wf
  | .descriptorCompletion _ => true
  | .trackerEntryGrant n => clusterOk n
  | .issue k _ => coreOk k
  | .wait k => coreOk k
  | .waitTimeout k => coreOk k
  | .loop k => coreOk k
  | .beq k => coreOk k
  | .bne k => coreOk k
  | .blt k => coreOk k
  | .bge k => coreOk k
  | .bltu k => coreOk k
  | .bgeu k => coreOk k
  | .jump k => coreOk k
  | .add k => coreOk k
  | .sub k => coreOk k
  | .addi k => coreOk k
  | .shl k => coreOk k
  | .shr k => coreOk k
  | .sra k => coreOk k
  | .and k => coreOk k
  | .or k => coreOk k
  | .xor k => coreOk k
  | .coreLoad k _ => coreOk k
  | .coreStore k _ => coreOk k
  | .storeRetry k _ => coreOk k
  | .coreFence k => coreOk k
  | .coreSignal k => coreOk k
  | .halt k => coreOk k
  | .sqDoorbell q _ => queueOk q
  | .sqEntryFetch h _ => h.wf
  | .fetchErrClear q => queueOk q
  | .sqEnable q _ => queueOk q
  | .sqDisable q _ => queueOk q
  | .sqAbort q _ => queueOk q
  | .cqEnable q _ => queueOk q
  | .cqDisable q _ => queueOk q
  | .cqHeadWrite q _ => queueOk q
  | .dmkLoad _ _ => true
  | .damaskClearDone => true
  | .dmkStore _ _ => true
  | .dmkErase _ _ => true
  | .dmkSetBoot _ _ => true
  | .bootDamaskLoad => true
  | .seqLoad _ _ => true
  | .seqStart _ => true
  | .seqStop _ => true
  | .retire _ _ => true
  | .release _ _ => true
  | .stage _ _ => true
  | .activate _ => true
  | .unstage _ => true
  | .revert _ => true
  | .mpBoot _ => true
  | .firmwareReload component _ => decide (component < 6)
  | .calNow p _ => portOk p
  | .releaseHeld p _ => portOk p
  | .retrain p _ => portOk p
  | .lostClear p _ => portOk p
  | .cancel _ => true
  | .clearBuckets _ => true
  | .unhold _ _ => true
  | .gblStepWrite _ => true
  | .gblBar2BaseWrite _ => true
  | .gblCounterWrite n c _ => clusterOk n && decide (c < 64)
  | .forcePolicy d _ => domainOk d
  | .forceOn d _ => domainOk d
  | .forceRetain d _ => domainOk d
  | .forceOff d _ => domainOk d
  | .attnClear _ _ => true
  | .registerWrite off _ _ => regOffOk off
  | .registerReadClear off _ => regOffOk off
  | .bar0BadAccess _ _ _ => true
  | .bar2Read a len _ => bar2Ok a len
  | .bar2Write a b _ _ => bar2Ok a b.length
  | .configRequest off _ => configOk off
  | .d3hotEntry => true
  | .d0Return => true
  | .hotReset _ => true
  | .perstNAssert _ => true
  | .modResetNAssert _ => true
  | .vinPgDeassert _ => true
  | .moduleStart pr => pr.wf
  | .calicoRepublish => true
  | .calicoPublishEnd => true
  | .flannelPowerUp => true
  | .flannelPowerLoss => true
  | .nvThresholdFall _ => true
  | .nvThresholdRise _ => true
  | .lowThresholdFall _ => true
  | .lowThresholdRise _ => true
  | .supplyShutdown _ _ => true
  | .throttleCurrent _ => true
  | .throttlePower _ => true
  | .throttleEnd _ _ => true
  | .refclkLost => true
  | .refclkRestore => true
  | .thermAlertAssert _ => true
  | .thermAlertRelease _ => true
  | .thermalForceLow _ => true
  | .thermalForceRelease _ => true
  | .xspiOwnChange _ _ => true
  | .bypass op => decide (op < 256)
  | .idcode => true
  | .samplePreload _ => true
  | .extest => true
  | .clamp => true
  | .highz => true
  | .i3cRead off _ => decide (off < 2 ^ 32)
  | .i3cWrite off _ _ => decide (off < 2 ^ 32)
  | .entdaa addr => i3cOk addr
  | .setdasa addr _ => i3cOk addr
  | .rstdaa => true
  | .getpid _ => true
  | .getbcr _ => true
  | .getdcr _ => true
  | .getstatus _ => true
  | .getmxds _ => true
  | .uncorrectableError _ _ => true
  | .farLinkDown port _ _ => farOk port
  | .faultWindowClose => true
  | .faultLogPersist _ => true
  | .scrubAccess u _ _ => scrubOk u
  | .scrubOverdue u => scrubOk u
  | .domainRetainTimeout d => domainOk d
  | .domainOffTimeout d => domainOk d
  | .domainSleepComplete d => domainOk d
  | .domainWakeComplete d _ => domainOk d
  | .wakeFail d phase => domainOk d && decide (1 ≤ phase ∧ phase ≤ 3)
  | .envelopeFallsEnd => true
  | .envelopeRisesEnd => true
  | .sergeSwap e => engineOk e
  | .deltaPacketFold f _ => factorOk f
  | .scheduledRootRefresh f o => factorOk f && o.wf
  | .recalSlotStart r => tierOk r
  | .recalSlotEnd r _ => tierOk r
  | .prefetchEnd b _ => bucketOk b
  | .dataMoverRetry n _ => clusterOk n
  | .dataFlitReceive p flit bad => portOk p && flit.length == 64 && bad.all (fun e => physOk e.1)
  | .controlFlitReceive p flit bad => portOk p && flit.length == 64 && bad.all (fun e => physOk e.1)
  | .controlFlitSend p => portOk p
  | .move p lane phys => portOk p && laneOk lane && physOk phys
  | .moved p lane => portOk p && laneOk lane
  | .failed p lane => portOk p && laneOk lane
  | .width p w => portOk p && (w == 4 || w == 8 || w == 16)
  | .drift p lane => portOk p && laneOk lane
  | .calRotation p => portOk p
  | .laneAdaptEnd p => portOk p
  | .laneFailureDetect p phys => portOk p && physOk phys
  | .linkSilence p => portOk p
  | .lossOfSignal p lanes => portOk p && decide (lanes ≤ 18)
  | .transactionTimeout _ => true
  | .trainingEnd p _ _ partnerPort failedLanes active => portOk p && portOk partnerPort && (active == 8 || active == 16) && failedLanes.all physOk
  | .telemetryWindowEnd p _ _ _ _ _ => portOk p
  | .packetForward _ => true
  | .readReq k _ => k.wf
  | .readResp k _ => k.wf
  | .write k _ => k.wf
  | .raccPacket k _ => k.wf
  | .signalPacket k => k.wf
  | .delta k _ => k.wf
  | .deltaReservationTimeout f _ => factorOk f
  | .bucket k => k.wf
  | .ack k => k.wf
  | .beacon p k => portOk p && k.wf
  | .beaconSeenExpiry _ => true
  | .gateUp k _ => k.wf
  | .gateDown k _ => k.wf
  | .bucketRelease _ => true
  | .ringMax k => k.wf
  | .ringScale k => k.wf
  | .ringData k _ => k.wf
  | .mirrorFwd k _ => k.wf
  | .fprint k _ => k.wf
  | .bcastData k _ => k.wf
  | .paramRead k _ => k.wf
  | .paramData k _ => k.wf
  | .rootHold k _ => k.wf
  | .rootDrop k => k.wf
  | .stageSend g => g.wf
  | .stageData k _ => k.wf
  | .stageCredit k => k.wf
  | .permuteData k _ => k.wf
  | .reshardUp k => k.wf
  | .reshardDown k => k.wf
  | .flannelTick _ => true
  | .idleFlitReceive p flit bad => portOk p && flit.length == 64 && bad.all (fun e => physOk e.1)
  | .startResidualEnd e _ => engineOk e
  | .stateWriteBackEnd b _ => bucketOk b
  | .farLinkRecoveryStart port => farOk port
  | .farLinkRecoveryEnd port => farOk port
  | .pcieLinkUp g x _ => decide (1 ≤ g ∧ g ≤ 4) && (x == 1 || x == 2 || x == 4 || x == 8 || x == 16)
  | .driftAlarm p phys _ => portOk p && physOk phys
  | .testLogicReset => true

end Sys2Proof
end

