-- ==== Sys2Proof/Config.lean ====
section
/-! DEFINITION. What a unit's fuses and makers fix, and the free values that the manual leaves open (each opaque: no proof can
see a value of it). -/

namespace Sys2Proof.Config

/-! ### Fixed for a unit -/

/-- The ordering code is FV512-72SB (R4, Table 0.1): the unit-binding fuse is blown. -/
opaque unitBound : Bool

/-- The unit serial number (Table 2.10). -/
opaque serial : BitVec 64

/-- The silicon stepping of this part. -/
opaque stepping : BitVec 16

/-- DEVICE_STEP (Table 2.3): 0x0001 upward. -/
def deviceStep : BitVec 16 := if stepping = 0 then 1 else stepping

/-- The PCI vendor identifier fused at manufacture (Table 19.1). -/
opaque vendorId : BitVec 16

/-- The fused manufacturer code of the I3C and test ports (R421, Table 19.18), 11 bits. -/
opaque manufacturerCode : BitVec 11

/-- KEY_INDEX values revoked in fuses (Table 18.4). -/
opaque keyRevoked : Nat → Bool

/-! ### Free values -/

/-- What an unwritten byte of a DRAM tier reads as after start number `gen` (R261: unpredictable). -/
opaque dramByte : (gen addr : Nat) → BitVec 8

/-- EXP, LOG, TANH, SIGMOID and GELU (op 0x13 to 0x17) of an FP32 or widened input: how many units in the last place the FP32 value
that the function forms lies from the one nearest to the true result (R144: fixed, within 2 of the true result, not
otherwise given); a count that would leave those 2 stands for none.
DEDUCED: notes/assumptions/15.md. -/
opaque vecFunction : (op : Nat) → (x : BitVec 64) → BitVec 3

/-- The eigendecomposition of R215 for dimension `n`: eigenvalues and the matrix Q, row by row, as FP64 codes; its blocked
reductions are not fixed to the bit.
DEDUCED: notes/assumptions/16.md. -/
opaque eigen : (n : Nat) → List (BitVec 64) → List (BitVec 64) × List (BitVec 64)

/-- The numeric flags raised inside the work that `eigen` and `cholInverse` stand for.
DEDUCED: notes/assumptions/16.md. -/
opaque factorFlags : (n : Nat) → List (BitVec 64) → Nat

/-- L⁻¹ of R218 for the factor L of dimension `n`: the order of its sums is not given.
DEDUCED: notes/assumptions/16.md. -/
opaque cholInverse : (n : Nat) → List (BitVec 64) → List (BitVec 64)

/-- Whether any FX128 panel inside the work that `eigen` and `cholInverse` stand for underruns (R219).
DEDUCED: notes/assumptions/16.md. -/
opaque factorUnderrun : (n : Nat) → List (BitVec 64) → Bool

/-- SHA-384 of a run of bytes (R399, R401): the algorithm is not in this spec.
DEDUCED: notes/assumptions/17.md. -/
opaque sha384 : List (BitVec 8) → List (BitVec 8)

/-- Whether an ECDSA P-384 signature (r, s) over a digest holds under boot-ROM public key `key` (R399): digest, r, s, key. Keys and algorithm are
not in this spec.
DEDUCED: notes/assumptions/17.md. -/
opaque signatureOk : List (BitVec 8) → List (BitVec 8) → List (BitVec 8) → Nat → Bool

/-- The bytes of the golden slot, written at manufacture (R397). -/
opaque goldenBytes : List (BitVec 8)

/-- A byte that an engine leaves in an offload area (R217 gives the area no layout).
DESIGN CHOICE: notes/assumptions/3.md. DEDUCED: notes/assumptions/51.md. -/
opaque stagedByte : (draw off : Nat) → BitVec 8

/-- A byte of the Calico region, beyond GENERATION, read while a publication is in progress (R33, R40).
DESIGN CHOICE: notes/assumptions/3.md. DEDUCED: notes/assumptions/22.md. -/
opaque tornByte : (draw off : Nat) → BitVec 8

/-- What 8 bytes of a persisted record read as whose page was cut short (R371).
DESIGN CHOICE: notes/assumptions/97.md. -/
opaque cutRecord : (index i : Nat) → BitVec 64

/-- A field whose value the spec does not state: SEQ, SIG and HANDLE of a root record with NO_ROOT (R321).
DESIGN CHOICE: notes/assumptions/3.md, notes/assumptions/44.md. -/
opaque freeWord : (draw : Nat) → BitVec 64

/-- A register of the PCIe configuration space that Table 19.1 does not fix, after the host last wrote `written` to it (R394,
R410).
DEDUCED: notes/assumptions/9.md. -/
opaque configReg : (off : Nat) → (written : Option Nat) → BitVec 32

/-- Which of AER and Device Serial Number comes first in the extended configuration space and where the other lies, and the order and the places
of the capabilities in the first 256 bytes (R410 gives no offsets).
DESIGN CHOICE: notes/assumptions/123.md. -/
opaque aerFirst : Bool
opaque extBase : Nat
opaque pmFirst : Bool
opaque capBase : (id : Nat) → Nat

/-- What a GETBCR (0), GETDCR (1), GETSTATUS (2) or GETMXDS (3) returns (R421 names them, the spec gives no value).
DESIGN CHOICE: notes/assumptions/21.md. -/
opaque i3cRegister : (which : Nat) → BitVec 32

/-- Cells of the boundary-scan register as the pins drive them when SAMPLE/PRELOAD samples (R424).
DESIGN CHOICE: notes/assumptions/3.md. -/
opaque sampledCells : (draw : Nat) → List (BitVec 8)

/-- A padding byte of a stash record, by its offset in the record (R151 gives none). DESIGN CHOICE: notes/assumptions/134.md. -/
opaque stashPad : (off : Nat) → BitVec 8

/-- The payload of the idle flits that a port sends (R277): the spec gives it no value. DEDUCED: notes/assumptions/59.md. -/
opaque idlePayload : List (BitVec 8)

end Sys2Proof.Config
end

