-- ==== Sys2Proof/Machine/State.lean ====
section
/-! DEFINITION. The state of the FV512 as plain data, the two ways a step can stop, and the state after reset. -/

namespace Sys2Proof.Machine

/-- Why the machine stops. One reason: a command names a unit or queue that the FV512 does not have
(a cluster above 511, a port above 7). Raised by the meanings that take such a number. Safe: the hardware has no such event. -/
inductive Fault where
  | noSuchUnit
  deriving DecidableEq, Repr

/-- Why a command has no meaning. `notModelled` is for a row not yet written, by its mnemonic; raised by Dispatch alone. Safe:
nothing is claimed of such a command. -/
inductive Refusal where
  | notModelled (mnemonic : String)
  deriving DecidableEq, Repr

/-- A sparse map: strictly rising keys, no entry equal to what an unlisted key reads as. -/
abbrev SMap (α : Type) := List (Nat × α)

/-! ### Clusters (01, 05, 07, 08, 11) -/

/-- State of a core (Table 8.12). -/
inductive CoreSt where
  | idle
  | run
  | wait
  | halted
  | fault
  deriving DecidableEq, Repr

/-- What holds a core at its PC: nothing, a WAIT, a FENCE, an ISSUE stalled under R22, or a STORE being repeated (R171). -/
inductive Hold where
  | none
  | wait
  | fence
  /-- An ISSUE without room, and what its descriptor's accesses will meet (DESIGN CHOICE: notes/assumptions/20.md). -/
  | issue (m : OfferMeets)
  | store
  deriving DecidableEq, Repr

/-- One sequencer core (R168, Table 8.9, Table 8.12). `regs` holds s1 to s15, `prog` the program memory by instruction index.
DESIGN CHOICE: notes/assumptions/10.md. -/
structure Core where
  regs : SMap Word := []
  pc : Nat := 0
  st : CoreSt := .idle
  cause : Nat := 0
  hold : Hold := .none
  prog : SMap Word := []
  flags : Nat := 0
  firstStatus : Nat := 0
  firstTag : Nat := 0
  notOk : Nat := 0
  deriving DecidableEq, Repr

/-- What a cluster holds beside its store. All of it takes these values at a wake of its half from off. -/
structure Cluster where
  /-- Counters 0 to 63 (R174). -/
  counters : SMap Word32 := []
  cores : SMap Core := []
  /-- Index of the core last granted a tracker entry (R23). -/
  lastGrant : Option Nat := none
  /-- GBL_ARR_STATUS FLAGS_LAST and DONE_COUNT (Table 5.10). -/
  arrFlags : Nat := 0
  arrDone : Nat := 0
  /-- GBL_ARR_UTIL (Table 5.11). -/
  productCycles : Nat := 0
  busyCycles : Nat := 0
  /-- GBL_STORE_STATUS (Table 11.5). -/
  lostWrites : Nat := 0
  droppedWords : Nat := 0
  ceCount : Nat := 0
  ceLastBank : Nat := 0
  /-- Per gather buffer, by store offset: ROWS summed since it was last cleared or overwritten by FIRST (TOKENS, Table 9.3). -/
  tokens : SMap Nat := []
  deriving DecidableEq, Repr

/-! ### Descriptors (08) -/

/-- The NUMERICS values that a descriptor takes at acceptance (R57, Table 3.5). -/
structure Numerics where
  accDefault : Nat := 0
  spill : Nat := 2
  rounding : Nat := 0
  passes : Nat := 1
  convSat : Nat := 0
  seed : Word := 0
  deriving DecidableEq, Repr

/-- The queue that holds an accepted descriptor (Table 8.2). -/
inductive Place where
  | array (n : Nat)
  | slice (n : Nat)
  | movers (n : Nat)
  | engine (e : Nat)
  | issuer
  deriving DecidableEq, Repr

/-- How far an accepted descriptor is. -/
inductive Work where
  /-- Accepted and not started. -/
  | queued
  /-- Array: started (R113); contributions whose products have ended (R116), flags so far, a damaged cell met (R122), and the last partials, as the
  spill buffer holds them once every product has ended (R119). -/
  | mat (contributions flags : Nat) (damaged : Bool) (spill : List Nat)
  /-- CURVGATHER: its packet waits for room in a local ring (R198) or travels as segments (R282): segments acknowledged, the
  tick from which segment 0 is sent again, flags. -/
  | emit (pkt : Bytes) (acked : Nat) (retryAt : Option Nat) (flags : Nat)
  /-- Transactions outstanding, or contested words (R241): phase 1 once the BUCKET packet is sent (R281), 2 while the source is read, 3 while
  the destination is asked whether its range passes (R28), 4 for an RACC that counts at a bucket here; status, flags and result so far. -/
  | remote (phase status flags : Nat) (result : Word)
  /-- GATHER of parameters: status so far, and the requests answered NOT_READY: offset, length, tick of the repeat (R329). -/
  | gather (status : Nat) (retry : List (Nat × Nat × Nat))
  /-- BCAST: waits for its receivers and for the fingerprint exchange (R328, R333). -/
  | bcast (status : Nat)
  /-- Ring member: blocks sent on, rescaled, turned into BF16, flags, and the BUCKET packet sent (R309 to R312). -/
  | ring (blocks rescaled bf16 flags status : Nat) (bucketSent : Bool)
  /-- Held on the loss of a partner (R292), by the port that declared it; flags so far. -/
  | held (port flags : Nat)
  /-- GATE accepted: waits for its decision (R314 to R317). -/
  | gate
  /-- FINAL PERMUTE whose own data have moved: waits for the switch (R353). -/
  | final (status : Nat)
  /-- SOLVE taken by its engine (R213). -/
  | solve
  /-- Every effect is made; the completion is owed (R162). -/
  | done (status flags : Nat) (result : Word)
  deriving DecidableEq, Repr

/-- A packet that waits for what the destination says of its range (R28, R127): headers and data, and the transaction's place. -/
structure Later where
  hdr : Bytes
  data : Bytes
  addr : Nat
  len : Nat
  off : Nat
  deriving DecidableEq, Repr

/-- An accepted descriptor (R161). -/
structure Desc where
  id : Nat
  iss : Issuer
  ctr : Option Nat
  bytes : Bytes
  place : Place
  num : Numerics
  epoch : Nat
  step : Nat
  accepted : Nat
  /-- A tick kept from acceptance: a SOLVE's deadline (R211), the end of a PERMUTE's DRAIN_TIMEOUT (R351). -/
  limit : Nat
  woke : Bool
  sqHead : Nat
  work : Work
  /-- Destination words that lose their first contest (R240), not yet met. DESIGN CHOICE: notes/assumptions/20.md. -/
  lost : List Nat
  /-- Words that have lost: local address, bytes, attempts made (R241). -/
  retry : List (Nat × Bytes × Nat)
  /-- A word was left unwritten after 16 attempts (R241). -/
  dropped : Bool
  /-- Correctable errors that its accesses meet here (R360): local address and DETAIL. -/
  ces : List (Nat × Nat) := []
  /-- The retirement map under which its accesses complete, where they had reached a controller, and waited for its slot, before a
  retirement or release took effect (R265). -/
  map : Option (List Nat) := none
  /-- Packets not sent yet (R28, R127). DESIGN CHOICE: notes/assumptions/101.md. -/
  later : List Later := []
  /-- Data that have come from other modules: destination address and bytes, placed once every answer has come (R28, R164).
  DESIGN CHOICE: notes/assumptions/101.md. -/
  got : List (Nat × Bytes) := []
  /-- A PERMUTE's bucket has been drained within DRAIN_TIMEOUT (R351). -/
  inTime : Bool := false
  /-- The destination of an RACC that thins or compresses has passed its range (R127). -/
  asked : Bool := false
  deriving DecidableEq, Repr

/-- Whom the response of a transaction concerns: a descriptor, a bucket's forward to its mirror (R331), or the overwriting of a
diverged shard (R333), or a BCAST passing through, by its upstream and that one's transaction (R328). -/
inductive TxnUse where
  | desc (id : Nat)
  | mirror (b forward : Nat)
  | overwrite (b : Nat)
  | relay (src txn : Nat)
  /-- A packet of a collective whose answer nothing waits for but the quiesce of Table 3.2 and R353. -/
  | plain
  deriving DecidableEq, Repr

/-- A transaction with a partner (R280, R293): its number, whom it concerns, the packet kind and subkind, the destination, the
tick it was sent, and for a read or gather the global address that takes the data, its length and its offset. `queued`: no packet
of it has started on a link yet. -/
structure Txn where
  txn : Nat
  use : TxnUse
  kind : Nat
  sub : Nat
  dst : Nat
  sent : Nat
  addr : Nat
  len : Nat
  off : Nat
  queued : Bool := true
  deriving DecidableEq, Repr

/-- A submission queue (Tables 8.13 to 8.15). -/
structure Sq where
  base : Nat := 0
  enable : Bool := false
  loc : Bool := false
  sizeLog2 : Nat := 4
  cq : Nat := 0
  tail : Nat := 0
  /-- The TAIL up to which entries may be fetched: TAIL, unless a doorbell still waits (R417).
  DEDUCED: notes/assumptions/80.md. -/
  acted : Nat := 0
  head : Nat := 0
  fetchErr : Bool := false
  tailErr : Bool := false
  aborting : Bool := false
  /-- The entry fetched and held because its unit is full (R182), with HEAD just after its fetch and what its accesses will meet. -/
  held : Option (Bytes × Nat × OfferMeets) := none
  /-- A fetch from device memory waits for a wake (R187). -/
  waking : Bool := false
  deriving DecidableEq, Repr

/-- A completion ring (Tables 8.13, 8.16, 8.17). -/
structure Cq where
  base : Nat := 0
  enable : Bool := false
  disRefused : Bool := false
  sizeLog2 : Nat := 4
  head : Nat := 0
  tail : Nat := 0
  phase : Bool := true
  headErr : Bool := false
  deriving DecidableEq, Repr

/-- A completion record before it has a place in its ring (Table 8.18). -/
structure Record where
  status : Nat
  flags : Nat
  woke : Bool
  typ : Nat
  tag : Nat
  sq : Nat
  sqHead : Nat
  timestamp : Nat
  result : Word
  deriving DecidableEq, Repr

/-- A posted write to host memory (R183). -/
structure Posted where
  addr : Nat
  bytes : Bytes
  deriving DecidableEq, Repr

/-! ### Damask image (03) -/

structure Topology where
  axisOfPair : List Nat := [0xFF, 0xFF, 0xFF, 0xFF]
  axisSize : List Nat := [1, 1, 1, 1]
  cutOfAxis : List Nat := [0, 0, 0, 0]
  node : Nat := 0
  podId : Nat := 0
  deriving DecidableEq, Repr

/-- A CLUSTERMAP record (Table 3.4); bit n of `clusters` is set when logical cluster n belongs to the group. -/
structure Group where
  stage : Nat
  flags : Nat
  firstLayer : Nat
  layerCount : Nat
  clusters : Nat
  deriving DecidableEq, Repr

/-- A MEMORY record (Table 3.6). -/
structure Region where
  kind : Nat
  ecc : Nat
  group : Nat
  base : Nat
  size : Nat
  deriving DecidableEq, Repr

structure MemorySec where
  mode : Nat
  regions : List Region
  deriving DecidableEq, Repr

/-- A COLLECTIVE bucket record (Table 3.8). -/
structure BucketRec where
  owner : Nat
  mirror : Nat
  expected : Nat
  compress : Nat
  flags : Nat
  bufOff : Nat
  elements : Nat
  deriving DecidableEq, Repr

/-- The live fields of a COLLECTIVE section and the step from which they apply (Table 3.7, R61). -/
structure CollLive where
  applyFrom : Nat
  gateMode : Nat
  threshold : Word
  prefetchAt : Nat
  headroom : Nat
  drainTimeout : Nat
  deriving DecidableEq, Repr

/-- A COLLECTIVE section: structural fields, and the live values loaded, newest first. -/
structure Collective where
  reduceFormat : Nat
  buckets : List BucketRec
  live : List CollLive
  deriving DecidableEq, Repr

/-- A PIPELINE record (Table 3.9). -/
structure QueueRec where
  stage : Nat
  dir : Nat
  lTile : Nat
  peer : Nat
  credit : Nat
  bufOff : Nat
  deriving DecidableEq, Repr

structure Pipeline where
  stageCount : Nat := 1
  microBatches : Nat := 1
  queues : List QueueRec := []
  deriving DecidableEq, Repr

/-- The structural fields of a SERGE record (Table 3.10). -/
structure FactorRec where
  layer : Nat
  side : Nat
  p : Nat
  method : Nat
  engine : Nat
  dim : Nat
  beta : BitVec 32
  epsilon : Word
  deriving DecidableEq, Repr

/-- A record's live schedule (PERIOD, PHASE, DEADLINE; Table 3.10). -/
structure Schedule where
  period : Nat
  phase : Nat
  deadline : Nat
  deriving DecidableEq, Repr

/-- A SERGE section: the records, and the schedules loaded with their APPLY_FROM_STEP, newest first (R65). -/
structure SergeSec where
  factors : List FactorRec
  live : List (Nat × List Schedule)
  deriving DecidableEq, Repr

/-- A Damask image, section by section; none where the image carries no such section (Table 3.2). -/
structure Image where
  epoch : Nat
  liveOnly : Bool
  topology : Option Topology
  clusters : Option (List Group)
  numerics : Option Numerics
  memory : Option MemorySec
  collective : Option Collective
  pipeline : Option Pipeline
  serge : Option SergeSec
  power : Option Nat
  /-- IMAGE_CRC of the image taken last into it (Table 3.1). -/
  crc : Nat := 0
  deriving DecidableEq, Repr

/-- The load registers (Tables 3.12 to 3.15) and what a running operation has left to do. -/
structure Damask where
  src : Nat := 0
  op : Nat := 0
  source : Nat := 0
  slot : Nat := 0
  busy : Bool := false
  done : Bool := false
  refused : Bool := false
  wBubbles : Bool := false
  result : Nat := 0
  section_ : Nat := 0
  offset : Nat := 0
  /-- The load waits only for its clearing (R59): the result to report is OK, and the memory to zero was zeroed. -/
  clearing : Bool := false
  /-- An operation that waits for the domain of its source: OP, SLOT, source address, and how its flash write ends. -/
  waking : Option (Nat × Nat × Nat × NvEnd) := none
  /-- The MP's copy of an image whose load waits for the memory that it clears (R59), whether its source holds it whole, and the domains
  waited for. -/
  copy : Option (Bytes × Bool × List Nat) := none
  /-- Domains of the memory that the clearing under way writes. -/
  clears : List Nat := []
  inForce : Option Image := none
  pendingImage : Option Image := none
  deriving DecidableEq, Repr

/-! ### MP operations (08, 12, 18) -/

/-- GBL_SEQ_SRC and GBL_SEQ_CTRL (Tables 8.10, 8.11); `waiting` while an operation waits for a wake (R177): OP, CLUSTER,
CORE_MASK, COUNT and the source address. -/
structure SeqCtl where
  src : Nat := 0
  op : Nat := 0
  busy : Bool := false
  done : Bool := false
  refused : Bool := false
  cluster : Nat := 0
  result : Nat := 0
  mask : Nat := 0
  count : Nat := 0
  /-- An operation that waits for its memory: OP, cluster, mask, count and address; and the correctable errors that its reads meet. -/
  waiting : Option (Nat × Nat × Nat × Nat × Nat) := none
  ces : List (Nat × Nat) := []
  deriving DecidableEq, Repr

/-- FLT_RETIRE_ADDR and FLT_RETIRE_CTRL (Tables 12.7, 12.8). -/
structure RetireCtl where
  page : Nat := 0
  op : Nat := 0
  busy : Bool := false
  done : Bool := false
  refused : Bool := false
  result : Nat := 0
  deriving DecidableEq, Repr

/-- A firmware slot as the boot ROM reads it (Table 18.3): its bytes, and what its header and checks say (Table 18.4). -/
structure FwSlot where
  bytes : Bytes
  headerOk : Bool
  deviceType : Nat
  keyIndex : Nat
  sigOk : Bool
  digestOk : Bool
  unitSerial : Word
  version : Nat
  components : List Nat
  deriving DecidableEq, Repr

/-- FWU_ registers (Tables 18.9 to 18.11) and the slot directory (Table 18.2).
DESIGN CHOICE: notes/assumptions/8.md. -/
structure Firmware where
  busy : Bool := false
  done : Bool := false
  refused : Bool := false
  restarting : Bool := false
  fellBack : Bool := false
  warm : Bool := false
  result : Nat := 0
  bootResult : Nat := 0
  bootedSlot : Nat := 0
  src : Nat := 0
  op : Nat := 0
  /-- A STAGE that waits for the domain of its source: the source address and how its flash writes end. -/
  waiting : Option (Nat × NvEnd) := none
  /-- Slots A, B and golden. -/
  slots : SMap (Option FwSlot)
  /-- The two copies of the slot directory as flash holds them (R398), and which of them is in use; an erased one holds nothing. -/
  dirs : List Bytes := [[], []]
  dirAt : Nat := 0
  dirSeq : Nat := 0
  active : Nat := 0
  staged : Nat := 0xFF
  /-- Running component versions, and per component the units still to reload (R407). -/
  versions : List Nat := [0, 0, 0, 0, 0, 0]
  toReload : List (List Nat) := [[], [], [], [], [], []]
  /-- The tick of the last adoption (R404), from which reload points count. -/
  adoptedAt : Nat := 0
  deriving DecidableEq, Repr

/-- The hand-over block (R406): its header, and its records: ID, INDEX, VALUE and their complement (Table 18.6). -/
structure Handover where
  magic : Nat
  format : Nat
  count : Nat
  version : Nat
  bootCount : Nat
  headN : Nat
  crc : Nat
  records : List (Nat × Nat × Nat × Nat)
  deriving DecidableEq, Repr

/-! ### Faults (16) -/

/-- A fault record (Table 16.5). -/
structure FaultRec where
  fid : FaultId
  role : Nat
  severity : Nat
  phys : Nat
  count : Nat
  tick : Nat
  origin : Nat
  reporter : Nat
  bootCount : Nat
  seq : Nat
  detail : Word
  deriving DecidableEq, Repr

/-- The retained log (R368) and FLT_LOG_STATUS (Table 16.7); the flannel domain keeps it across every reset. -/
structure FaultLog where
  slots : SMap FaultRec := []
  writeIndex : Nat := 0
  lastReset : Nat := 0
  persistSeq : Nat := 0
  overwritten : Nat := 0
  overwrote : Bool := false
  lastSeq : Nat := 0
  persistBusy : Bool := false
  /-- SEQ up to which the run at the last start persists, records of the window then open among them (R371). -/
  runTo : Nat := 0
  /-- FLT_PLOG_SEL INDEX of the host, and the I3C port's own (R423). -/
  sel : Nat := 0
  i3cSel : Nat := 0
  /-- FAULT_IDs seen in beacons: ORIGIN, and the end of the window after the window of arrival (R374). -/
  seen : List (FaultId × Nat × Nat) := []
  /-- FAULT_ID, ORIGIN and window of the beacons forwarded (R374). -/
  forwarded : List (FaultId × Nat × Nat) := []
  /-- FAULT_ID and window of the beacons of its own that it forwards no longer (R375). -/
  silenced : List (FaultId × Nat) := []
  deriving DecidableEq, Repr

/-- Units marked for a swap, in flash (Table 1.4, R372). -/
structure Marks where
  clusters : List Nat := []
  cores : List (Nat × Nat) := []
  engines : List Nat := []
  pseudo : List (Nat × Nat) := []
  deriving DecidableEq, Repr

/-- An MP write to flash put off under NV or a restart (R381, R405): a mark, with the record that caused it; the directory
rewrite of R400; the removal of a stack's retired pages (R253); the persistence of the records up to a SEQ (R371). -/
inductive Deferred where
  | mark (r : FaultRec)
  | directory
  | removePages (stack : Nat)
  | persist (seq : Nat)
  deriving DecidableEq, Repr

/-- What flash holds beside firmware (Table 18.1): Damask slots, boot setting, retired pages, marks, persisted log.
DESIGN CHOICE: notes/assumptions/8.md. -/
structure Flash where
  damask : SMap (Option Bytes) := []
  bootSlot : Nat := 0
  bootSet : Bool := false
  retired : List Nat := []
  /-- The two copies of the map of retired pages, each with the number of its writing, and which of them is in use (R264). -/
  maps : List (Option (Nat × List Nat)) := [none, none]
  mapAt : Nat := 0
  marks : Marks := {}
  /-- Persisted records, oldest first, at most 262,144 (R371), and how many have ever been written; none for a record whose page was
  cut short, which is written again. -/
  plog : List (Option FaultRec) := []
  plogCount : Nat := 0
  /-- Places of that ring which a board programmer has written (R438), each with the 64 bytes that it holds. -/
  plogRaw : SMap Bytes := []
  /-- W of each near stack at the last start (R253): the MP compares it with the new one. -/
  stackW : SMap Nat := []
  /-- Remap entries filled by the MP: physical cluster, bank, word index (R246). -/
  remaps : List (Nat × Nat × Nat) := []
  deriving DecidableEq, Repr

/-! ### Calico (02) -/

/-- What a published Calico table shows (Tables 2.3 to 2.10). -/
structure CalicoView where
  node : Nat
  bootCount : Nat
  sergeEnabled : Nat
  /-- Logical clusters not at their default record: physical, state, spare core, marks, remap words used. -/
  clusters : SMap (Nat × Nat × Nat × Nat × Nat)
  /-- Per port: the physical lane of each logical lane, ACTIVE_LANES, SPARES_FREE, AXIS, CAL_ENABLED. -/
  lanes : List (List Nat × Nat × Nat × Nat × Nat)
  /-- Per logical engine: physical engine and state. -/
  engines : List (Nat × Nat)
  /-- Per tier unit: state, SPARE_USED, size. -/
  tiers : List (Nat × Nat × Nat)
  retired : List Nat
  runningSlot : Nat
  staged : Nat
  components : List (Nat × Nat)
  deriving DecidableEq, Repr

/-- GENERATION (R40), changes due (R43), and the table as last published. -/
structure Calico where
  generation : Nat := 0
  dirty : Bool := false
  evenTick : Nat := 0
  view : Option CalicoView := none
  deriving DecidableEq, Repr

/-! ### Power (17) -/

/-- State of a power domain (R384). A transition names where it goes and, for a wake, where it comes from. -/
inductive DomSt where
  | off
  | retain
  | on
  | toRetain
  | toOff
  | wakeOff
  | wakeRetain
  deriving DecidableEq, Repr

/-- One switched domain (Tables 17.9, 17.10). `wanted`: a wake was asked for during a transition; `awaitPublish`: the
GENERATION from which the domain serves accesses, when a swap came with its wake (R17); `idleSince`: the tick from which it has been idle (R385);
`wakeAt`: the tick in which its last wake began (R190). -/
structure Domain where
  st : DomSt := .off
  force : Nat := 0
  retainAfter : Nat := 0
  offAfter : Nat := 0
  wakes : Nat := 0
  wakeFails : Nat := 0
  wanted : Bool := false
  awaitPublish : Nat := 0
  idleSince : Nat := 0
  wakeAt : Nat := 0
  deriving DecidableEq, Repr

/-- Phase of an envelope switch (R390). -/
inductive EnvPhase where
  | steady
  | falls
  | rises
  deriving DecidableEq, Repr

/-- PWR_ENV (Table 17.8) and the settings that hold now (R389): cluster clock in MHz, lanes allowed, near cap in GB/s, engines
kept on, FP32 adder rate of a link buffer in GB/s. `recorded` is the envelope of R66; `target` that of the running switch. -/
structure Env where
  recorded : Nat := 1
  inForce : Nat := 1
  phase : EnvPhase := .steady
  target : Nat := 1
  restart : Bool := false
  startedAt : Nat := 0
  lastSwitch : Nat := 0
  switches : Nat := 0
  clock : Nat := 1100
  lanes : Nat := 16
  nearCap : Nat := 1200
  engines : Nat := 2
  adders : Nat := 256
  deriving DecidableEq, Repr

/-! ### Host interface (19) -/

/-- Accesses of the module itself that wait for their memory: a request of a GATHER to this module (R329), the reading of a bucket's prefetch
record (R323), the clearing of a range (R317, R335), a bucket's forward to its mirror (R331), and the reading of a shard that is written over
the peer's (R333). -/
inductive Task where
  | piece (id off len : Nat)
  | table (b : Nat)
  | zero (a len : Nat)
  | forward (b step mirror : Nat)
  | overwrite (b : Nat)
  deriving DecidableEq, Repr

/-- A request that waits for a wake before it is served (R166, R413, R415), or a doorbell that waits for the BAR2 writes before it
(R417). `losses` counts the contests that a BAR2 write loses when it is made. -/
inductive Waiting where
  | read (addr len : Nat) (ces : List (Nat × Nat))
  | write (addr : Nat) (b : Bytes) (losses : Nat) (ces : List (Nat × Nat))
  | doorbell (q tail : Nat)
  | counter (n c : Nat) (v : Word32)
  | packet (k : Packet) (domains : List Nat) (m : Meets)
  /-- The places of data that came for a descriptor (R127, R164, R329). -/
  | place (id : Nat) (domains : List Nat)
  /-- The bytes of the first waiting segment into a stage queue (R343). -/
  | segment (key : Nat) (domains : List Nat)
  /-- The source of an operation of the MP: 0 Damask, 1 sequencers, 2 firmware. -/
  | mp (unit : Nat) (domains : List Nat)
  /-- A queue entry in device memory (R187). -/
  | fetch (q : Nat) (domains : List Nat) (m : OfferMeets)
  | task (t : Task) (domains : List Nat)
  deriving DecidableEq, Repr

/-- A waiting request and the number of the next descriptor to be accepted when it arrived. Requests are served in order of arrival among
themselves and with the descriptors (R251, R263). `map`: the retirement map under which it reached a controller, when another has come into
force since (R265). -/
structure Parked where
  seq : Nat
  req : Waiting
  map : Option (List Nat) := none
  deriving DecidableEq, Repr

/-- The last answer given to an interface. -/
inductive Reply where
  | none
  | value (v : Word)
  | data (b : Bytes)
  | completerAbort
  | unsupported
  | nack
  | ackd
  deriving DecidableEq, Repr

structure Hif where
  bar2Base : Nat := 0
  attn : Nat := 0
  speed : Nat := 0
  width : Nat := 0
  flitMode : Bool := false
  d3hot : Bool := false
  bar2Ur : Nat := 0
  /-- Configuration registers the host has written (R410). -/
  config : SMap Nat := []
  waiting : List Parked := []
  /-- Completions owed while in D3hot (R411), each with its ring. -/
  owed : List (Nat × Record) := []
  /-- Last answers on BAR0/BAR2/configuration, I3C and the test port. DESIGN CHOICE: notes/assumptions/6.md. -/
  reply : Reply := .none
  i3c : Reply := .none
  test : Reply := .none
  i3cDyn : Option Nat := none
  jtagIr : Nat := 1
  /-- The balls, as row and column, whose cell of the boundary-scan register holds 1, in the order of the register (R424). -/
  boundary : List (Nat × Nat) := []
  posted : List Posted := []
  /-- The events that AER has recorded, in their order (Table 19.2), and for each status bit how many of them had come when it was last cleared. -/
  aer : List Nat := []
  aerClears : SMap Nat := []
  /-- The AER messages sent, oldest first: 0 ERR_COR, 1 ERR_NONFATAL, 2 ERR_FATAL, each with the number of completion records written before
  it (R418). -/
  messages : List (Nat × Nat) := []
  /-- The last tick in which source events of GBL_ATTN fell, and their bits (R419). -/
  attnNow : Nat × Nat := (0, 0)
  deriving DecidableEq, Repr

/-! ### Memory units (12) and stash (07) -/

/-- Near stack: working pseudo-channels W (0: window unpopulated), spare used, STATE (R252, R253). -/
structure Stack where
  w : Nat := 0
  /-- Physical pseudo-channels that the last start took out of use (R253). -/
  bad : List Nat := []
  spareUsed : Bool := false
  state : Nat := 1
  deriving DecidableEq, Repr

/-- Board channel or far port: STATE (Table 2.7), bytes populated, ranks or link width (Table 12.10), link degraded, link in
recovery (R260). -/
structure Tier where
  state : Nat := 1
  size : Nat := 0
  width : Nat := 0
  degraded : Bool := false
  recovering : Bool := false
  /-- Board channel: the rate in MT/s that the straps select (R437, Table 12.2). -/
  rate : Nat := 0
  deriving DecidableEq, Repr

/-- Recalibration of a tier unit (R263, Table 12.10): in its slot, with the tick it began, SLOTS and SLOT_WAIT. -/
structure Recal where
  inSlot : Bool := false
  startTick : Nat := 0
  slots : Nat := 0
  slotWait : Nat := 0
  /-- Ticks of the running slot in which a known access has waited. -/
  waited : Nat := 0
  /-- The unit's controller reloads its firmware in place of a slot (R407). -/
  reloading : Bool := false
  deriving DecidableEq, Repr

/-- A stash record in a ring (R152): offset and length from the region base, whether it is freed. -/
structure StashRec where
  off : Nat
  len : Nat
  freed : Bool
  deriving DecidableEq, Repr

/-- A ring of a stash allocator: the records from tail to head; `head` is the offset at which the next is tried. -/
structure StashRing where
  recs : List StashRec := []
  head : Nat := 0
  deriving DecidableEq, Repr

/-- The stash allocator of a group (R152, Table 7.7). -/
structure Stash where
  near : StashRing := {}
  ovf : StashRing := {}
  full : Bool := false
  overflowed : Bool := false
  deriving DecidableEq, Repr

/-! ### Serge (10) -/

/-- A candidate iterate (R222, R229): its number (0 for X0), its residual (none: not measured) and its entries. -/
structure Cand where
  iter : Nat
  residual : Option Word
  x : List Word
  deriving DecidableEq, Repr

/-- Phases of Table 10.7 as SRG_STATUS numbers them. -/
inductive SolvePhase where
  | wait
  | read
  | start
  | compute
  | choose
  | writeback
  deriving DecidableEq, Repr

/-- The SOLVE an engine runs. -/
structure Solve where
  id : Nat
  factor : Nat
  phase : SolvePhase
  n : Nat
  p : Nat
  method : Nat
  maxIter : Nat
  tol : BitVec 32
  group : Nat
  eps : Word
  sig : Word
  step : Nat
  deadline : Nat
  a : List Word
  m : List Word
  cands : List Cand
  iters : Nat
  warm : Bool
  warmRefused : Bool
  underrun : Bool
  clamped : Bool
  cause : Nat
  flags : Nat
  late : Bool
  deriving DecidableEq, Repr

/-- A logical Serge engine (Tables 10.11, 10.12). -/
structure Engine where
  underrun : Bool := false
  done : Nat := 0
  ok : Nat := 0
  deadlines : Nat := 0
  warmRejects : Nat := 0
  aborts : Nat := 0
  run : Option Solve := none
  /-- Offloaded products of the unit of work under way that are still to run: their tiles not yet sent, each as the K and the flags of its
  MATMULs (R217). -/
  products : List (List (List (Nat × Nat))) := []
  /-- The cluster that has taken the first MATMUL of the tile in hand. -/
  tileAt : Option Nat := none
  deriving DecidableEq, Repr

/-- An offloaded MATMUL of M = N = 32 in the array queue of cluster `n` (R217): the engine and the SOLVE it belongs to, the number of the next
descriptor when it was accepted, its spill interval, K and numeric flags, and its tag; `left`: the intervals still to end once it has
started. -/
structure Offload where
  engine : Nat
  solve : Nat
  n : Nat
  seq : Nat
  interval : Nat
  k : Nat
  flags : Nat
  tag : Nat
  left : Option Nat := none
  deriving DecidableEq, Repr

/-- A delta packet in a factor's ring: the tick and the acceptance number at which it entered, and its bytes. -/
structure RingPkt where
  entered : Nat
  bytes : Bytes
  deriving DecidableEq, Repr

/-- Space reserved in a ring for a packet under way (R282): sender, transaction of segment 0, length, bytes landed. -/
structure Reserve where
  src : Nat
  txn : Nat
  since : Nat
  len : Nat
  got : Bytes
  deriving DecidableEq, Repr

/-- A factor's ring and holds; its header, slots and blocks lie in memory (R203, R204). -/
structure Factor where
  ring : List RingPkt := []
  /-- Where in its delta ring the next packet is written. DEDUCED: notes/assumptions/39.md. -/
  tail : Nat := 0
  /-- Reserves for rings. DESIGN CHOICE: notes/assumptions/38.md. -/
  reserved : List Reserve := []
  /-- Holds: handle, holding node, slot (R322). -/
  holds : List (Nat × Nat × Nat) := []
  deriving DecidableEq, Repr

/-! ### Reduction (14) and job mapping (15) -/

/-- States of Table 14.1. -/
inductive BktSt where
  | opened
  | complete
  | decided
  | released
  | held
  deriving DecidableEq, Repr

/-- A prefetch record as the controller has read it (R323): SRC, STAGE, BYTES, WRITEBACK, and whether it passes R324's checks. -/
structure PfRec where
  src : Nat := 0
  stage : Nat := 0
  bytes : Nat := 0
  writeback : Bool := false
  valid : Bool := false
  deriving DecidableEq, Repr

/-- A bucket that the module owns or mirrors (R301, Table 14.17). `back` is the state it takes when a resolution ends. The faults
of the step are kept apart from the sticky bits that the host clears. -/
structure Bkt where
  st : BktSt := .opened
  back : BktSt := .opened
  step : Nat := 0
  count : Nat := 0
  countN : Nat := 0xFFFFFFFF
  fault : Bool := false
  misstep : Bool := false
  overcount : Bool := false
  damaged : Bool := false
  /-- Prefetch (R324): failed in this step, sticky bit, started for this step, running, running for a step already skipped. -/
  pfFailed : Bool := false
  stickyPf : Bool := false
  pfStarted : Bool := false
  pfBusy : Bool := false
  pfStale : Bool := false
  /-- The write-back of R325 runs. -/
  wbBusy : Bool := false
  /-- The record read at the start of the prefetch, and that of the write-back (R323). -/
  pf : PfRec := {}
  wb : PfRec := {}
  /-- The record of a running prefetch that a skip has overtaken. -/
  stalePf : PfRec := {}
  /-- A mirror's bucket for which the decision has arrived and the primary's forward has not landed in full: it waits in OPEN. -/
  mirrorDue : Bool := false
  /-- Forward to the mirror (R331): sent by the primary; acknowledged, or landed in full at the mirror; bytes landed. -/
  fwdSent : Bool := false
  fwdDone : Bool := false
  fwdBytes : Nat := 0
  /-- A packet of the running forward has ended with a status other than OK. -/
  fwdFailed : Bool := false
  /-- Number of the running forward, that of its first transaction. -/
  fwdId : Nat := 0
  /-- A prefetch is due whose record cannot be read yet (R323). -/
  pfDue : Bool := false
  /-- A mirror's bucket that is not yet past the step before: the step of the decision that waits for its BCAST, and the bytes of that step's
  forward that have landed (R301). -/
  nextStep : Option Nat := none
  fwdNext : Nat := 0
  deriving DecidableEq, Repr

/-- A gate record (Table 14.6), with its step and the numeric flags of its forming. -/
structure GateRec where
  step : Nat := 0
  sumsq : Word := 0
  nonfinite : Bool := false
  count : Nat := 0
  flags : Nat := 0
  deriving DecidableEq, Repr

/-- A decision record (Table 14.7). -/
structure Decision where
  step : Nat
  decision : Nat
  cause : Nat
  scale : Word
  norm : Word
  sumsq : Word
  count : Nat
  deriving DecidableEq, Repr

/-- The gate of the open step: own record once formed, the children's once received (by child index 0 and 1), and whether the
combined record has gone on. -/
structure Gate where
  own : Option GateRec := none
  child0 : Option GateRec := none
  child1 : Option GateRec := none
  sent : Bool := false
  deriving DecidableEq, Repr

/-- A ring pass of a bucket (R309 to R311): the M bytes and code bytes received, own M bytes merged and sent, blocks taken in,
and RING_DATA payloads that wait for the member's turn. -/
structure RingPass where
  maxIn : Bytes := []
  maxSent : Bool := false
  scale : Bytes := []
  taken : Nat := 0
  waiting : Bytes := []
  deriving DecidableEq, Repr

/-- A fingerprint exchange of a mirrored bucket (R333): own and peer's running and recomputed fingerprints, own shard, the
peer's shard address. -/
structure FpState where
  own : Option Word := none
  peer : Option Word := none
  ownAgain : Option Word := none
  peerAgain : Option Word := none
  src : Nat := 0
  bytes : Nat := 0
  peerSrc : Nat := 0
  deriving DecidableEq, Repr

/-- A BCAST passing through this module (R328): upstream and its transaction, total and landed bytes, bucket and step, a failing
status, that of its own bytes alone, and the transactions of its own to the modules it forwards to. -/
structure Relay where
  src : Nat
  txn : Nat
  total : Nat
  landed : Nat
  bucket : Nat
  step : Nat
  status : Nat
  own : Nat := 0
  /-- Onward streams: transaction, destination, axis, direction, distances still to cover. -/
  down : List (Nat × Nat × Nat × Nat × Nat)
  /-- Of those, the ones not yet acknowledged. -/
  open_ : List Nat
  deriving DecidableEq, Repr

/-- The ready list of one step's GATE (R318): target cluster, LIST_OFF, READY_COUNTER, and the releases made into it. -/
structure ReadyList where
  step : Nat
  n : Nat
  off : Nat
  counter : Nat
  released : Nat := 0
  deriving DecidableEq, Repr

/-- Reduction, gate and parameter state (Tables 14.13 to 14.18).
DESIGN CHOICE: notes/assumptions/38.md. -/
structure Grad where
  openStep : Nat := 0
  stepRefused : Bool := false
  lastDecision : Nat := 0
  lastCause : Nat := 0
  lastStep : Nat := 0
  gate : Gate := {}
  decision : Option Decision := none
  /-- The ready lists that buckets are still released into, that of the latest decision first (R318). -/
  lists : List ReadyList := []
  gateStarted : Option Nat := none
  /-- The live values in force for the GATE that has started (R61). -/
  gateLive : Option CollLive := none
  buckets : SMap Bkt := []
  pfBase : Nat := 0
  bktSel : Nat := 0
  stray : Nat := 0
  rescales : Nat := 0
  bf16Blocks : Nat := 0
  diverged : Nat := 0
  skips : Nat := 0
  /-- PARAM_STEP of each bucket. DESIGN CHOICE: notes/assumptions/12.md. -/
  paramStep : SMap Nat := []
  passes : SMap RingPass := []
  fps : SMap FpState := []
  relays : List Relay := []
  /-- Root holds taken by this module: handle, node, factor, slot (R321). -/
  roots : List (Nat × Nat × Nat × Nat) := []
  nextHandle : Nat := 0
  deriving DecidableEq, Repr

/-- A stage queue at its receiver (R343, R344, Table 15.8). -/
structure StageQ where
  heldBytes : Nat := 0
  messages : Nat := 0
  freed : Nat := 0
  lastCredit : Nat := 0
  carried : Nat := 0
  /-- Segments of the current message that have arrived and not been freed: message offset and length. -/
  segs : List (Nat × Nat) := []
  lastAt : Option Nat := none
  /-- Micro-batch of the message under way, and its step, none before the first segment (R343). -/
  microBatch : Nat := 0
  step : Option Nat := none
  deriving DecidableEq, Repr

/-- A stage queue at its sender: SENT and FREED (R344); and of what the stage has offered, Q before the message under way, the bytes of
that message, its micro-batch (R343). -/
structure StageTx where
  sent : Nat := 0
  freed : Nat := 0
  carried : Nat := 0
  off : Nat := 0
  microBatch : Nat := 0
  deriving DecidableEq, Repr

/-- Re-sharding and stage queues (Tables 15.7 to 15.9). -/
structure Shard where
  begun : Bool := false
  lastOutcome : Nat := 0
  staleRefused : Nat := 0
  lastEpoch : Nat := 0
  /-- A PERMUTE under the pending epoch ended with a status other than OK (R353). -/
  permFailed : Bool := false
  ownVote : Option Nat := none
  vote0 : Option Nat := none
  vote1 : Option Nat := none
  voteSent : Bool := false
  queues : SMap StageQ := []
  tx : SMap StageTx := []
  /-- Segments that wait at the sender, in the order of their sending (R345). -/
  sends : List StageSeg := []
  /-- FWD_STALL and BWD_STALL per group. -/
  stall : SMap (Nat × Nat) := []
  deriving DecidableEq, Repr

/-! ### Gauze ports (13) -/

/-- A physical lane (Table 13.12); LOGICAL 0x1F for none. -/
structure Lane where
  st : Nat := 0
  logical : Nat := 0x1F
  drift : Bool := false
  fecCorr : Nat := 0
  margin : Nat := 0
  deriving DecidableEq, Repr

/-- A rotation of Table 13.7: logical lane, its old and new physical lanes, phase 1 to 4. -/
structure Rotation where
  logical : Nat
  old : Nat
  new : Nat
  phase : Nat
  deriving DecidableEq, Repr

/-- A data flit in the replay buffer (R274): SEQ, VC, class, HEAD, TAIL and the 58 payload bytes. -/
structure Flit where
  seq : Nat
  vc : Nat
  cls : Nat
  head : Bool
  tail : Bool
  payload : Bytes
  deriving DecidableEq, Repr

/-- The fields of the control flit payload of Table 13.3; NAK_SEQ where NAK is set. -/
structure CtlFlit where
  action : Nat := 0
  arg0 : Nat := 0
  arg1 : Nat := 0
  actionId : Nat := 0
  ackSeq : Nat := 0
  nak : Option Nat := none
  timeLocked : Bool := false
  lanesOk : Nat := 16
  node : Nat := 0
  podId : Nat := 0
  credit : List Nat := []
  txTime : Nat := 0
  echoTime : Nat := 0
  echoRx : Nat := 0
  port : Nat := 0
  deriving DecidableEq, Repr

/-- A lane action waiting to be sent in a control flit (Table 13.3). -/
structure Action where
  code : Nat
  arg0 : Nat
  arg1 : Nat
  deriving DecidableEq, Repr

/-- Counts of a telemetry window (Table 13.11, R298): the window's number, data flits sent (replays included) and accepted, ticks in
which a ready packet waited for credits, and packets turned. -/
structure Tel where
  win : Nat := 0
  tx : Nat := 0
  rx : Nat := 0
  stall : Nat := 0
  turned : Nat := 0
  deriving DecidableEq, Repr

/-- One port (Tables 13.8 to 13.12). -/
structure Port where
  st : Nat := 0
  lost : Bool := false
  cause : Nat := 0
  width : Nat := 0
  timeLocked : Bool := false
  timeFault : Bool := false
  partner : Nat := 0xFFFF
  ctlLane : Nat := 0
  crcFail : Nat := 0
  replays : Nat := 0
  fecUncorr : Nat := 0
  laneFails : Nat := 0
  telStart : Nat := 0
  telTx : Nat := 0
  telRx : Nat := 0
  telStall : Nat := 0
  telTurned : Nat := 0
  /-- Counts of the window that runs and of the last one before it in which anything was counted; the number of the first window
  that the telemetry fields do not show yet. -/
  telNow : Tel := {}
  telLast : Tel := {}
  telNext : Nat := 0
  offset : Word32 := 0
  delay : Nat := 0
  steps : Nat := 0
  lanes : SMap Lane := []
  active : Nat := 16
  lockRun : Nat := 0
  txSeq : Nat := 0
  replay : List Flit := []
  ackedOut : Nat := 0
  rxSeq : Nat := 0
  nakAt : Option (Nat × Nat) := none
  nakDue : Option Nat := none
  nakRepeat : Nat × Nat := (0, 0)
  /-- Data flits that a NAK asks for and that wait for a control flit that is due (R277). -/
  resend : List Flit := []
  creditTx : List Nat := [1024, 1024, 512, 512, 1024, 1024, 128]
  sentTx : List Nat := [0, 0, 0, 0, 0, 0, 0]
  freedRx : List Nat := [0, 0, 0, 0, 0, 0, 0]
  freedTold : List Nat := [0, 0, 0, 0, 0, 0, 0]
  ackTold : Nat := 0
  lastCtlSent : Nat := 0
  lastValid : Nat := 0
  lastTxTime : Nat := 0
  lastRxTime : Nat := 0
  actionIn : Option Nat := none
  actionOut : Nat := 0
  actions : List Action := []
  /-- LANES_OK that the partner last advertised, and the partner's ACTIVE_LANES as far as this end knows them (R271). -/
  partnerLanes : Nat := 16
  partnerActive : Nat := 16
  rotation : Option Rotation := none
  /-- Logical lanes named for calibration, first come first (R294). -/
  rotateNext : List Nat := []
  /-- A width that waits for the end of a rotation, and the width for which the added lanes adapt (R297). -/
  widthNext : Option Nat := none
  widening : Option Nat := none
  /-- Uncorrectable codewords of the last 25 ticks: physical lane, number on that lane, and tick (R295). -/
  badAt : List (Nat × Nat × Nat) := []
  nextLane : Nat := 0
  lastRotation : Nat := 0
  failedDuring : List Nat := []
  /-- Flits of packets partly received, per VC and class: payloads so far. -/
  rxPart : SMap (List Bytes) := []
  /-- Packets that have arrived whole by this port and whose flits still hold buffer slots: credit count and flits (R278). -/
  holding : List (Packet × Nat × Nat) := []
  /-- The VC that last started a packet among request and collective (R279). -/
  turn : Nat := 0
  /-- The control flit last sent (R277). -/
  sent : Option CtlFlit := none
  /-- Control and data flits sent in this tick, oldest first; idle flits fill the rest of it (R277). -/
  line : List Bytes := []
  deriving DecidableEq, Repr

/-- A scrubber (R361, R363, Table 16.10). -/
structure Scrub where
  pos : Nat := 0
  lapStart : Nat := 0
  overdue : Bool := false
  warn : Bool := false
  lastLap : Nat := 0
  deriving DecidableEq, Repr

/-! ### The whole state -/

/-- The state of the FV512. The first fields are the model's own; the rest is what the spec gives the machine (INVENTORY.md). -/
structure State where
  /-- Commands waiting, first in, first out. -/
  pending : List Instr
  /-- Free values taken so far. DESIGN CHOICE: notes/assumptions/3.md. -/
  draws : Nat
  /-- Starts made: names the unpredictable contents of DRAM (R261). DESIGN CHOICE: notes/assumptions/4.md. -/
  dramGen : Nat
  /-- The number of the next accepted descriptor. DESIGN CHOICE: notes/assumptions/5.md. -/
  nextId : Nat
  /-- The number of the next transaction. DESIGN CHOICE: notes/assumptions/5.md. -/
  nextTxn : Nat
  -- flannel domain, supply, pins
  flannelOn : Bool
  up : Bool
  mpRunning : Bool
  probe : Probe
  startPhase : Nat
  vin : Nat
  pin : Nat
  iin : Nat
  nv : Bool
  lowSag : Bool
  lowTherm : Bool
  thermAlert : Bool
  throttled : Bool
  throttles : Nat
  /-- Consecutive samples above 2,600 W, and below both 2,400 W and 40 A (R379). -/
  powerRun : Nat
  calmRun : Nat
  /-- Consecutive ticks in which FLN_REFCLK has run (R387). -/
  refRun : Nat
  refclkLost : Bool
  onOsc : Bool
  perstN : Bool
  modResetN : Bool
  vinPg : Bool
  /-- The last sample of PERST_N, MOD_RESET_N and VIN_PG (R436). -/
  pinSample : Bool × Bool × Bool
  xspiOwn : Bool
  flashHeld : Bool
  tick : Nat
  /-- Tick at which the last reset sequence ends (R392); bookkeeping of the model. DEDUCED: notes/assumptions/68.md. -/
  resetEnds : Nat
  /-- NODE of the module when that reset began, and the tick in which the last start began; bookkeeping of the model. -/
  resetNode : Nat
  /-- The MEMORY section in force when that reset began; bookkeeping of the model. -/
  resetMemory : Option MemorySec
  startedAt : Nat
  frac : Nat
  /-- The last forward step: the tick it left and the tick it led to (R289). -/
  stepped : Nat × Nat
  everLocked : Bool
  bootCount : Nat
  log : FaultLog
  /-- The hand-over block while it is valid (R406). -/
  handover : Option Handover
  -- flash and firmware
  flash : Flash
  /-- Writes to flash that the MP has put off (R381, R405), in order; the MP's own memory. -/
  deferred : List Deferred
  fw : Firmware
  -- published table and unit maps
  calico : Calico
  /-- Per half: the logical cluster on the half's spare. -/
  swapped : SMap (Option Nat)
  absent : List Nat
  /-- Logical clusters with a core on local core 16, and which (Table 2.5). -/
  spareCores : SMap Nat
  /-- Remap entries loaded: physical cluster, bank, word index (R246, R249), and the SEQ of the newest fault record at the loading. -/
  remaps : List ((Nat × Nat × Nat) × Nat)
  /-- Physical engine behind each logical engine, none when absent (Table 2.6). -/
  engineMap : List (Option Nat)
  nearStacks : SMap Stack
  tiers : SMap Tier
  recal : SMap Recal
  -- power
  domains : SMap Domain
  env : Env
  -- host
  hif : Hif
  sqs : SMap Sq
  cqs : SMap Cq
  lastServed : Option Nat
  -- work
  descs : List Desc
  txns : List Txn
  clusters : SMap Cluster
  /-- The lane generators' seeds. DEDUCED: notes/assumptions/11.md. -/
  laneSeeds : SMap Word
  -- memory
  /-- Every byte that differs from what an unlisted address reads as. DESIGN CHOICE: notes/assumptions/4.md. -/
  mem : List Host.Cell
  /-- DRAM ranges [lo, hi) zeroed as a whole since the start (R59 and others): an unlisted byte there reads 0.
  DESIGN CHOICE: notes/assumptions/4.md. -/
  zeroed : List (Nat × Nat)
  scrub : SMap Scrub
  scrLimits : Nat × Nat × Nat × Nat
  -- MP operations
  dmk : Damask
  seq : SeqCtl
  retire : RetireCtl
  -- engines of the module
  stash : SMap Stash
  engines : SMap Engine
  /-- Offloaded MATMULs accepted by arrays, in order of acceptance (R217). -/
  offloads : List Offload
  factors : SMap Factor
  grad : Grad
  shard : Shard
  -- fabric
  ports : SMap Port
  /-- Links that this module knows to be lost, each with the TICK of the newest declaration it has heard of (R293). -/
  lostLinks : List ((Nat × Nat) × Nat)
  /-- Packets whole at this module and addressed to it; packets to be sent on, each with the port it came by. -/
  arrived : List Packet
  egress : List Packet
  deriving DecidableEq, Repr

/-- A golden slot as manufacture leaves it: every check of Table 18.4 passes on this unit (R397).
DESIGN CHOICE: notes/assumptions/8.md. -/
def FwSlot.golden : FwSlot :=
  { bytes := Config.goldenBytes, headerOk := true, deviceType := 0xF512, keyIndex := 0, sigOk := true, digestOk := true
    unitSerial := if Config.unitBound then Config.serial else 0,
    version := 0, components := [0, 0, 0, 0, 0, 0] }

/-- The machine right after reset: the flannel domain is powered, no start has begun, the reset inputs are released and every
switched domain is off. Every field has the value that INVENTORY.md names.
DESIGN CHOICE: notes/assumptions/7.md, notes/assumptions/8.md, notes/assumptions/12.md. -/
def State.reset : State where
  pending := []
  draws := 0
  dramGen := 0
  nextId := 0
  nextTxn := 0
  flannelOn := true
  up := false
  mpRunning := false
  probe := {}
  startPhase := 0
  vin := 0
  pin := 0
  iin := 0
  nv := false
  lowSag := false
  lowTherm := false
  thermAlert := false
  throttled := false
  throttles := 0
  powerRun := 0
  calmRun := 0
  refRun := 0
  refclkLost := false
  onOsc := false
  perstN := true
  modResetN := true
  vinPg := true
  pinSample := (true, true, true)
  xspiOwn := false
  flashHeld := false
  tick := 0
  resetEnds := 0
  resetNode := 0
  resetMemory := none
  startedAt := 0
  frac := 0
  stepped := (0, 0)
  everLocked := false
  bootCount := 0
  log := {}
  handover := none
  flash := {}
  deferred := []
  fw := { slots := [(2, some FwSlot.golden)] }
  calico := {}
  swapped := []
  absent := []
  spareCores := []
  remaps := []
  engineMap := [some 0, some 1, some 2, some 3]
  nearStacks := []
  tiers := []
  recal := []
  domains := []
  env := {}
  hif := {}
  sqs := []
  cqs := []
  lastServed := none
  descs := []
  txns := []
  clusters := []
  laneSeeds := []
  mem := []
  zeroed := []
  scrub := []
  scrLimits := (1, 72, 2048, 4096)
  dmk := {}
  seq := {}
  retire := {}
  stash := []
  engines := []
  offloads := []
  factors := []
  grad := {}
  shard := {}
  ports := []
  lostLinks := []
  arrived := []
  egress := []

end Sys2Proof.Machine
end

