-- ==== Sys2Proof/Machine/Bits.lean ====
section
/-! DEFINITION. Bit fields, little-endian bytes, two's complement, cyclic redundancy codes and sparse maps. -/

namespace Sys2Proof.Machine

/-! ### Bit fields and bytes -/

/-- Bits [lo + len − 1 : lo] of `w`. -/
def bits (w lo len : Nat) : Nat := (w >>> lo) % 2 ^ len

/-- Bit `i` of `w`. -/
def bit (w i : Nat) : Bool := w.testBit i

/-- `w` with bits [lo + len − 1 : lo] replaced by the low bits of `v`. -/
def setBits (w lo len v : Nat) : Nat := w - bits w lo len * 2 ^ lo + v % 2 ^ len * 2 ^ lo

/-- A truth value as a bit. -/
def b2n (b : Bool) : Nat := if b then 1 else 0

/-- The number that bytes spell, lowest address first. -/
def leNat : Bytes → Nat
  | [] => 0
  | b :: r => b.toNat + 256 * leNat r

/-- The `n` low bytes of `v`, lowest first. -/
def leBytes : (n v : Nat) → Bytes
  | 0, _ => []
  | n + 1, v => BitVec.ofNat 8 v :: leBytes n (v / 256)

/-- The `len`-byte little-endian field at offset `off`; bytes past the end read as 0. -/
def field (b : Bytes) (off len : Nat) : Nat := leNat ((b.drop off).take len)

/-- The bytes at [off, off + len), padded with zeros. -/
def slice (b : Bytes) (off len : Nat) : Bytes :=
  let t := (b.drop off).take len
  t ++ List.replicate (len - t.length) 0

/-- Every byte of [off, off + len) is zero. -/
def zeros (b : Bytes) (off len : Nat) : Bool := field b off len == 0

/-- The `w`-bit two's complement reading of `n`. -/
def signed (w n : Nat) : Int := if n.testBit (w - 1) then (n : Int) - 2 ^ w else n

/-- `i` modulo 2^w. -/
def wrap (w : Nat) (i : Int) : Nat := (i % 2 ^ w).toNat

/-- ⌈a ÷ b⌉. -/
def ceilDiv (a b : Nat) : Nat := (a + b - 1) / b

/-- `a` rounded up to a multiple of `b`. -/
def roundUp (a b : Nat) : Nat := ceilDiv a b * b

/-- Number of bits of `n`. -/
def bitLen (n : Nat) : Nat := if n = 0 then 0 else Nat.log2 n + 1

/-- Ones among the low `k` bits of `n`. -/
def popCount : (k n : Nat) → Nat
  | 0, _ => 0
  | k + 1, n => n % 2 + popCount k (n / 2)

/-- ⌊√n⌋ for n below 4^k. -/
def isqrtGo (n : Nat) : (k r : Nat) → Nat
  | 0, r => r
  | k + 1, r => let t := r + 2 ^ k; isqrtGo n k (if t * t ≤ n then t else r)

/-- ⌊√n⌋. -/
def isqrt (n : Nat) : Nat := isqrtGo n (bitLen n / 2 + 1) 0

/-- A run of packets, rows or pieces: `b` cut into pieces of `n` bytes. -/
def chunkGo (n : Nat) : (k : Nat) → Bytes → List Bytes
  | 0, _ => []
  | k + 1, b => if b.isEmpty then [] else b.take n :: chunkGo n k (b.drop n)

def chunks (n : Nat) (b : Bytes) : List Bytes := chunkGo n (ceilDiv b.length n) b

/-- Any two of the half-open ranges overlap. -/
def overlap (a la b lb : Nat) : Bool := decide (a < b + lb) && decide (b < a + la) && decide (0 < la) && decide (0 < lb)

/-! ### Cyclic redundancy codes -/

/-- One bit of a reflected CRC. -/
def crcStep (poly : Nat) : (k c : Nat) → Nat
  | 0, c => c
  | k + 1, c => crcStep poly k (if c % 2 = 1 then (c / 2) ^^^ poly else c / 2)

/-- CRC-32C of a run of bytes: reflected polynomial 0x82F6_3B78, initial value and final exclusive-or of all ones. -/
def crc32c (b : Bytes) : Nat :=
  (b.foldl (fun c x => crcStep 0x82F63B78 8 (c ^^^ x.toNat)) 0xFFFFFFFF) ^^^ 0xFFFFFFFF

/-- One bit of a CRC that takes the most significant bit first, `w` bits wide. -/
def crcMsbStep (w poly : Nat) : (k c : Nat) → Nat
  | 0, c => c
  | k + 1, c => crcMsbStep w poly k (if c.testBit (w - 1) then (2 * c % 2 ^ w) ^^^ poly else 2 * c % 2 ^ w)

/-- CRC-24 of a flit: polynomial 0x86_4CFB, initial value 0xB7_04CE, no reflection (R273). -/
def crc24 (b : Bytes) : Nat :=
  b.foldl (fun c x => crcMsbStep 24 0x864CFB 8 (c ^^^ (x.toNat * 65536))) 0xB704CE

/-! ### Sparse maps -/

namespace SMap

variable {α : Type}

/-- The entry listed at `k`. -/
def find? : SMap α → Nat → Option α
  | [], _ => none
  | (j, v) :: r, k => if j = k then some v else find? r k

/-- The value at `k`, `d` where none is listed. -/
def get (d : α) (m : SMap α) (k : Nat) : α := (m.find? k).getD d

/-- Takes `k` off the list. -/
def erase (m : SMap α) (k : Nat) : SMap α := m.filter fun e => e.1 != k

/-- Lists `v` at `k`. -/
def put : SMap α → Nat → α → SMap α
  | [], k, v => [(k, v)]
  | (j, u) :: r, k, v => if j = k then (k, v) :: r else if k < j then (k, v) :: (j, u) :: r else (j, u) :: put r k v

/-- Makes `v` the value at `k`; the default is not listed. -/
def set [DecidableEq α] (d : α) (m : SMap α) (k : Nat) (v : α) : SMap α := if v = d then m.erase k else m.put k v

end SMap

end Sys2Proof.Machine
end

