-- ==== Sys2Proof/Machine/Flags.lean ====
section
/-! DEFINITION. The numeric flags (R94) and the status codes of a completion (R167). -/

namespace Sys2Proof.Machine

/-! ### Numeric flags (Table 4.7) -/

/-- IV, invalid. -/
def fIV : Nat := 1
/-- OV, overflow. -/
def fOV : Nat := 2
/-- FZ, subnormal flushed. -/
def fFZ : Nat := 4
/-- SAT, conversion saturated. -/
def fSAT : Nat := 8
/-- NX, inexact. -/
def fNX : Nat := 16

/-- `f` when the condition holds, else no flag. -/
def flagIf (c : Bool) (f : Nat) : Nat := if c then f else 0

/-- A value with the flags its forming raised (R95: flags of one descriptor are the OR of all). -/
abbrev Flagged (α : Type) := α × Nat

/-! ### Status codes (Table 8.5) -/

def stOK : Nat := 0x00
def stTIMEOUT : Nat := 0x01
def stDEADLINE : Nat := 0x02
def stWARM_REJECTED : Nat := 0x03
def stNODE_LOST : Nat := 0x04
def stEPOCH_STALE : Nat := 0x05
def stBANK_CONFLICT : Nat := 0x06
def stSTEP_SKIPPED : Nat := 0x07
def stDIVERGED : Nat := 0x08
def stBAD_DESCRIPTOR : Nat := 0x09
def stCOMPLEMENT_MISMATCH : Nat := 0x0A
def stRETIRED_PAGE : Nat := 0x0B
def stPOWER_INHIBIT : Nat := 0x0C
def stABORTED : Nat := 0x0D
def stUNSUPPORTED : Nat := 0x0E
def stFATAL_PENDING : Nat := 0x0F

end Sys2Proof.Machine
end

