-- ==== Sys2Proof/Machine/Float.lean ====
section
/-! DEFINITION. Number formats, rounding and special values (04): decoding, exact arithmetic on values, rounding into a format,
conversions, MX blocks and the exact accumulator's cell (06). -/

namespace Sys2Proof.Machine

/-! ### Formats (R76, R77) -/

/-- The floating-point formats of Table 4.1. -/
inductive Fp where
  | fp64
  | fp32
  | fp16
  | bf16
  | e4m3
  | e5m2
  | e2m1
  deriving DecidableEq, Repr

/-- Exponent bits. -/
def Fp.eb : Fp → Nat
  | .fp64 => 11 | .fp32 => 8 | .fp16 => 5 | .bf16 => 8 | .e4m3 => 4 | .e5m2 => 5 | .e2m1 => 2

/-- Mantissa bits. -/
def Fp.mb : Fp → Nat
  | .fp64 => 52 | .fp32 => 23 | .fp16 => 10 | .bf16 => 7 | .e4m3 => 3 | .e5m2 => 2 | .e2m1 => 1

def Fp.bias : Fp → Nat
  | .fp64 => 1023 | .fp32 => 127 | .fp16 => 15 | .bf16 => 127 | .e4m3 => 7 | .e5m2 => 15 | .e2m1 => 1

/-- Width in bits. -/
def Fp.width (f : Fp) : Nat := 1 + f.eb + f.mb

/-- Subnormals are flushed in FP32 and FP64 (R79). -/
def Fp.flush : Fp → Bool
  | .fp64 | .fp32 => true
  | _ => false

/-- The code of the largest finite magnitude (Table 4.1). -/
def Fp.maxCode : Fp → Nat
  | .fp64 => 0x7FEFFFFFFFFFFFFF | .fp32 => 0x7F7FFFFF | .fp16 => 0x7BFF | .bf16 => 0x7F7F
  | .e4m3 => 0x7E | .e5m2 => 0x7B | .e2m1 => 0x7

/-- The canonical NaN (Table 4.2); E2M1 has none, and no operation asks for one. -/
def Fp.nanCode : Fp → Nat
  | .fp64 => 0x7FF8000000000000 | .fp32 => 0x7FC00000 | .fp16 => 0x7E00 | .bf16 => 0x7FC0
  | .e4m3 => 0x7F | .e5m2 => 0x7E | .e2m1 => 0

/-- +Inf, where the format has one (Table 4.2). -/
def Fp.infCode : Fp → Option Nat
  | .fp64 => some 0x7FF0000000000000 | .fp32 => some 0x7F800000 | .fp16 => some 0x7C00 | .bf16 => some 0x7F80
  | .e4m3 => none | .e5m2 => some 0x7C | .e2m1 => none

/-- `c` with the sign bit set when `neg`. -/
def Fp.sign (f : Fp) (neg : Bool) (c : Nat) : Nat := if neg then c + 2 ^ (f.width - 1) else c

/-- A value: a NaN, an infinity, or (−1)^neg × m × 2^e. -/
inductive FVal where
  | nan
  | inf (neg : Bool)
  | fin (neg : Bool) (m : Nat) (e : Int)
  deriving DecidableEq, Repr

def FVal.neg : FVal → Bool
  | .nan => false
  | .inf n => n
  | .fin n _ _ => n

def FVal.isZero : FVal → Bool
  | .fin _ 0 _ => true
  | _ => false

/-- +0. -/
def fzero : FVal := .fin false 0 0

/-- The value of a code (R76, R77), with no flushing. -/
def Fp.value (f : Fp) (c : Nat) : FVal :=
  let neg := c.testBit (f.width - 1)
  let e := bits c f.mb f.eb
  let m := bits c 0 f.mb
  let mag := bits c 0 (f.width - 1)
  let top := e == 2 ^ f.eb - 1
  let special := match f with
    | .e2m1 => false
    | .e4m3 => mag == 0x7F
    | _ => top
  if special then
    match f.infCode with
    | some i => if mag = i then .inf neg else .nan
    | none => .nan
  else if e = 0 then .fin neg m (1 - (f.bias : Int) - f.mb)
  else .fin neg (2 ^ f.mb + m) ((e : Int) - f.bias - f.mb)

/-- An operand of an arithmetic operation or conversion: an FP32 or FP64 subnormal reads as a zero of its sign with FZ (R79). -/
def Fp.read (f : Fp) (c : Nat) : Flagged FVal :=
  if f.flush && bits c f.mb f.eb == 0 && bits c 0 f.mb != 0 then (.fin (c.testBit (f.width - 1)) 0 0, fFZ)
  else (f.value c, 0)

/-! ### Rounding (R79, R83, R84, R87, R88) -/

/-- `m` shifted right by `k` bits and rounded: to nearest even, or with a 16-bit draw (R84); and whether bits were discarded. -/
def roundShift (m k : Nat) (draw : Option Nat) : Nat × Bool :=
  let t := m >>> k
  let d := m % 2 ^ k
  let up := match draw with
    | none => let h := 2 ^ k; decide (h < 2 * d) || (decide (2 * d = h) && decide (0 < k) && t % 2 == 1)
    | some r => let dd := if k ≤ 16 then d * 2 ^ (16 - k) else d >>> (k - 16); decide (0x10000 ≤ dd + r)
  (if up then t + 1 else t, d != 0)

/-- Rounds the finite magnitude m × 2^e (m not 0) into `f`. `sat` is the overflow outcome of a conversion that saturates. -/
def Fp.roundFin (f : Fp) (neg : Bool) (m : Nat) (e : Int) (draw : Option Nat) (sat : Bool) : Flagged Nat :=
  let top : Int := e + bitLen m - 1
  let q0 : Int := top - f.mb
  let emin : Int := 1 - (f.bias : Int) - f.mb
  let q := if f.flush then q0 else max q0 emin
  let r := if q ≤ e then (m * 2 ^ (e - q).toNat, false) else roundShift m (q - e).toNat draw
  let t := r.1
  let nx := flagIf r.2 fNX
  -- a carry may raise the exponent
  let carry := decide (2 ^ (f.mb + 1) ≤ t)
  let t' := if carry then t / 2 else t
  let q' := if carry then q + 1 else q
  if t' = 0 then (f.sign neg 0, nx)
  else if f.flush && decide (q' < emin) then (f.sign neg 0, fFZ ||| fNX)
  else
    let mag := if t' < 2 ^ f.mb then t' else ((q' + f.mb + f.bias).toNat) * 2 ^ f.mb + (t' - 2 ^ f.mb)
    if mag ≤ f.maxCode then (f.sign neg mag, nx)
    else if sat then (f.sign neg f.maxCode, fSAT ||| fNX)
    else match f.infCode with
      | some i => (f.sign neg i, fOV ||| fNX)
      | none => (f.sign neg f.maxCode, fSAT ||| fNX)

/-- Writes a value in `f` (Table 4.4): a NaN as the canonical NaN with IV, an infinity where the format has one. -/
def Fp.round (f : Fp) (v : FVal) (draw : Option Nat := none) (sat : Bool := false) : Flagged Nat :=
  match v with
  | .nan => (f.nanCode, fIV)
  | .inf n => match f.infCode with
    | some i => (f.sign n i, 0)
    | none => (f.nanCode, fIV)
  | .fin n m e => if m = 0 then (f.sign n 0, 0) else f.roundFin n m e draw sat

/-- The integer nearest to m × 2^e, ties to even, and whether it differs from it. -/
def nearestInt (neg : Bool) (m : Nat) (e : Int) : Int × Bool :=
  let r := if 0 ≤ e then (m * 2 ^ e.toNat, false) else roundShift m (-e).toNat none
  (if neg then -(r.1 : Int) else r.1, r.2)

/-- Conversion into an integer of `w` bits (Table 4.4, R88). -/
def toInt (w : Nat) (v : FVal) : Flagged Nat :=
  let hi : Int := 2 ^ (w - 1) - 1
  let lo : Int := -2 ^ (w - 1)
  match v with
  | .nan => (0, fIV)
  | .inf n => (wrap w (if n then lo else hi), fSAT)
  | .fin n m e =>
    let r := nearestInt n m e
    if hi < r.1 then (wrap w hi, fSAT ||| fNX)
    else if r.1 < lo then (wrap w lo, fSAT ||| fNX)
    else (wrap w r.1, flagIf r.2 fNX)

/-- A two's complement integer of `w` bits as a value. -/
def ofInt (w c : Nat) : FVal := let i := signed w c; .fin (decide (i < 0)) i.natAbs 0

/-! ### Exact arithmetic with Table 4.3 -/

/-- m × 2^e as an integer multiple of 2^q, for q ≤ e. -/
def scaled (neg : Bool) (m : Nat) (e q : Int) : Int :=
  let x : Int := (m : Int) * 2 ^ (e - q).toNat
  if neg then -x else x

/-- The exact sum. An exact zero of operands of opposite sign is +0; −0 + −0 is −0. -/
def fadd (a b : FVal) : Flagged FVal :=
  match a, b with
  | .nan, _ => (.nan, fIV)
  | _, .nan => (.nan, fIV)
  | .inf x, .inf y => if x = y then (.inf x, 0) else (.nan, fIV)
  | .inf x, .fin _ _ _ => (.inf x, 0)
  | .fin _ _ _, .inf y => (.inf y, 0)
  | .fin x m e, .fin y n d =>
    let q := min e d
    let s := scaled x m e q + scaled y n d q
    if s = 0 then (.fin (x && y) 0 0, 0) else (.fin (decide (s < 0)) s.natAbs q, 0)

def fneg : FVal → FVal
  | .nan => .nan
  | .inf n => .inf !n
  | .fin n m e => .fin (!n) m e

def fsub (a b : FVal) : Flagged FVal := fadd a (fneg b)

/-- The exact product; 0 × ±Inf is invalid. -/
def fmul (a b : FVal) : Flagged FVal :=
  match a, b with
  | .nan, _ => (.nan, fIV)
  | _, .nan => (.nan, fIV)
  | .inf x, .inf y => (.inf (x != y), 0)
  | .inf x, .fin y n _ => if n = 0 then (.nan, fIV) else (.inf (x != y), 0)
  | .fin x m _, .inf y => if m = 0 then (.nan, fIV) else (.inf (x != y), 0)
  | .fin x m e, .fin y n d => (.fin (x != y) (m * n) (e + d), 0)

/-- x × y + w exactly. -/
def ffma (x y w : FVal) : Flagged FVal :=
  let p := fmul x y
  let s := fadd p.1 w
  (s.1, p.2 ||| s.2)

/-- Extra quotient bits kept before the sticky bit, enough for every rounding of R83 and R84. -/
def guardBits : Nat := 160

/-- The quotient, its bits beyond `guardBits` folded into one sticky bit; Table 4.3's cases for zeros and infinities. -/
def fdiv (a b : FVal) : Flagged FVal :=
  match a, b with
  | .nan, _ => (.nan, fIV)
  | _, .nan => (.nan, fIV)
  | .inf _, .inf _ => (.nan, fIV)
  | .inf x, .fin y _ _ => (.inf (x != y), 0)
  | .fin x _ _, .inf y => (.fin (x != y) 0 0, 0)
  | .fin x m e, .fin y n d =>
    if n = 0 then (if m = 0 then (.nan, fIV) else (.inf (x != y), fOV))
    else if m = 0 then (.fin (x != y) 0 0, 0)
    else
      let k := guardBits + bitLen n
      let q := m * 2 ^ k / n
      let st := if m * 2 ^ k % n = 0 then 0 else 1
      (.fin (x != y) (2 * q + st) (e - d - k - 1), 0)

/-- The square root, with a sticky bit. -/
def fsqrt (a : FVal) : Flagged FVal :=
  match a with
  | .nan => (.nan, fIV)
  | .inf n => if n then (.nan, fIV) else (.inf false, 0)
  | .fin n m e =>
    if m = 0 then (.fin n 0 0, 0)
    else if n then (.nan, fIV)
    else
      let odd : Nat := (e % 2).toNat
      let m' := m * 2 ^ odd * 2 ^ (2 * guardBits)
      let r := isqrt m'
      (.fin false (2 * r + (if r * r = m' then 0 else 1)) ((e - odd) / 2 - guardBits - 1), 0)

/-- 1 ÷ √x with a sticky bit; a zero counts as division by zero (R144). -/
def frsqrt (a : FVal) : Flagged FVal :=
  match a with
  | .nan => (.nan, fIV)
  | .inf n => if n then (.nan, fIV) else (.fin false 0 0, 0)
  | .fin n m e =>
    if m = 0 then (.inf n, fOV)
    else if n then (.nan, fIV)
    else
      let odd : Nat := (e % 2).toNat
      let m' := m * 2 ^ odd
      let k := guardBits + bitLen m'
      let y := 2 ^ (2 * k) / m'
      let r := isqrt y
      let st := if r * r * m' = 2 ^ (2 * k) then 0 else 1
      (.fin false (2 * r + st) (-((e - odd) / 2) - k - 1), 0)

/-- The order of two values that are not NaN, −0 and +0 counting as equal: a < b. -/
def flt (a b : FVal) : Bool :=
  match a, b with
  | .nan, _ => false
  | _, .nan => false
  | .inf x, .inf y => x && !y
  | .inf x, .fin _ _ _ => x
  | .fin _ _ _, .inf y => !y
  | .fin x m e, .fin y n d => let q := min e d; decide (scaled x m e q < scaled y n d q)

/-- The maximum of Table 4.3. -/
def fmax (a b : FVal) : Flagged FVal :=
  if a = .nan ∨ b = .nan then (.nan, fIV)
  else if flt a b then (b, 0)
  else if flt b a then (a, 0)
  else (if a.neg then b else a, 0)

/-- The minimum of Table 4.3. -/
def fmin (a b : FVal) : Flagged FVal :=
  if a = .nan ∨ b = .nan then (.nan, fIV)
  else if flt a b then (a, 0)
  else if flt b a then (b, 0)
  else (if a.neg then a else b, 0)

/-! ### Operations on codes, each with one rounding -/

/-- Applies an exact operation on two codes of `f` and rounds once into `g` to nearest even. -/
def op2 (f g : Fp) (op : FVal → FVal → Flagged FVal) (a b : Nat) : Flagged Nat :=
  let x := f.read a
  let y := f.read b
  let r := op x.1 y.1
  let o := g.round r.1
  (o.1, x.2 ||| y.2 ||| r.2 ||| o.2)

/-- round32(a + b): addition of two FP32 codes (Table 6.1). -/
def add32 (a b : Nat) : Flagged Nat := op2 .fp32 .fp32 fadd a b
def add64 (a b : Nat) : Flagged Nat := op2 .fp64 .fp64 fadd a b
def sub64 (a b : Nat) : Flagged Nat := op2 .fp64 .fp64 fsub a b
def mul64 (a b : Nat) : Flagged Nat := op2 .fp64 .fp64 fmul a b
def div64 (a b : Nat) : Flagged Nat := op2 .fp64 .fp64 fdiv a b

/-- round64(a × b + c). -/
def fma64 (a b c : Nat) : Flagged Nat :=
  let x := Fp.fp64.read a
  let y := Fp.fp64.read b
  let z := Fp.fp64.read c
  let r := ffma x.1 y.1 z.1
  let o := Fp.fp64.round r.1
  (o.1, x.2 ||| y.2 ||| z.2 ||| r.2 ||| o.2)

def sqrt64 (a : Nat) : Flagged Nat :=
  let x := Fp.fp64.read a
  let r := fsqrt x.1
  let o := Fp.fp64.round r.1
  (o.1, x.2 ||| r.2 ||| o.2)

/-- A conversion between two floating-point formats (R87): OVF_INF and CONV_SAT give `sat`. -/
def convert (f g : Fp) (c : Nat) (draw : Option Nat := none) (sat : Bool := false) : Flagged Nat :=
  let x := f.read c
  let o := g.round x.1 draw sat
  (o.1, x.2 ||| o.2)

/-- a < b on FP64 codes that are not NaN. -/
def lt64 (a b : Nat) : Bool := flt (Fp.fp64.read a).1 (Fp.fp64.read b).1

/-! ### MX blocks (R90, R91) -/

/-- The exponent E of R90: 8 for E4M3, 2 for E2M1. -/
def mxE : Fp → Int
  | .e2m1 => 2
  | _ => 8

/-- ⌊log2⌋ of a finite non-zero magnitude. -/
def floorLog2 : FVal → Int
  | .fin _ m e => e + bitLen m - 1
  | _ => 0

/-- Encodes a block of source values in `elt` (R90); `draws` are those of the elements' conversions, none for nearest even. -/
def mxEncode (src elt : Fp) (codes : List Nat) (draws : List (Option Nat)) : Nat × List Nat × Nat :=
  let vs := codes.map src.read
  let fl := vs.foldl (fun a v => a ||| v.2) 0
  let isNan := vs.any fun v => v.1 = .nan
  let isInf := vs.any fun v => match v.1 with
    | .inf _ => true
    | _ => false
  if isNan || isInf then (0xFF, codes.map fun _ => 0, fl ||| flagIf isNan fIV ||| flagIf isInf fOV)
  else
    let mx := vs.foldl (fun a v => if v.1.isZero then a else match a with
      | none => some (floorLog2 v.1)
      | some x => some (max x (floorLog2 v.1))) (none : Option Int)
    match mx with
    | none => (0x7F, vs.map fun v => elt.sign v.1.neg 0, fl)
    | some l =>
      let x : Int := max (-127) (min 127 (l - mxE elt))
      let out := (vs.zip draws).map fun p => match p.1.1 with
        | .fin n m e => elt.round (.fin n m (e - x)) p.2 true
        | v => elt.round v p.2 true
      ((x + 127).toNat, out.map (·.1), out.foldl (fun a o => a ||| o.2) fl)

/-- Decodes one element (R91) into BF16 or FP32. -/
def mxDecode (elt dst : Fp) (scale code : Nat) (sat : Bool) : Flagged Nat :=
  if scale = 0xFF then (dst.nanCode, fIV)
  else match elt.value code with
    | .fin n m e => dst.round (.fin n m (e + scale - 127)) none sat
    | v => dst.round v none sat

/-! ### The exact accumulator and the XACC cell (R120 to R125) -/

/-- The exact accumulator: a 640-bit two's complement value whose bit b weighs 2^(b − 300), the terms held and the sticky flags
(bit 0 NAN_SEEN, 1 PINF_SEEN, 2 NINF_SEEN, 3 WRAPPED). -/
structure Acc where
  value : Nat := 0
  count : Nat := 0
  flags : Nat := 0
  deriving DecidableEq, Repr

/-- The cell as its 96 bytes (Table 6.3). -/
def Acc.bytes (a : Acc) : Bytes :=
  leBytes 80 a.value ++ leBytes 6 a.count ++ leBytes 6 (2 ^ 48 - 1 - a.count) ++ leBytes 1 a.flags ++ leBytes 3 0

/-- Reads a cell's 96 bytes; none when it is damaged (R122). An all-zero cell is empty. -/
def Acc.ofBytes (b : Bytes) : Option Acc :=
  if leNat b = 0 then some {}
  else
    let c := field b 0x50 6
    let f := field b 0x5C 1
    if field b 0x56 6 = 2 ^ 48 - 1 - c ∧ f < 16 ∧ zeros b 0x5D 3 then some { value := field b 0 80, count := c, flags := f }
    else none

/-- Cell addition (R123). -/
def Acc.add (a b : Acc) : Acc :=
  let s := signed 640 a.value + signed 640 b.value
  let w := decide (s < -2 ^ 639) || decide (2 ^ 639 ≤ s)
  { value := wrap 640 s, count := min (a.count + b.count) (2 ^ 48 - 1), flags := a.flags ||| b.flags ||| flagIf w 8 }

/-- A term entering the accumulator with weight in COUNT, and the numeric flag it raises (R120). -/
def Acc.term (a : Acc) (v : FVal) : Flagged Acc :=
  match v with
  | .nan => ({ a with flags := a.flags ||| 1 }, fIV)
  | .inf n => ({ a with flags := a.flags ||| (if n then 4 else 2) }, 0)
  | .fin n m e => ({ a.add { value := wrap 640 (scaled n m e (-300)) } with count := a.count }, 0)

/-- Readout to FP32 (Table 6.4, rows 2 to 6b). -/
def Acc.readout (a : Acc) : Flagged Nat :=
  if a.flags.testBit 0 || a.flags.testBit 3 || (a.flags.testBit 1 && a.flags.testBit 2) then (Fp.fp32.nanCode, fIV)
  else if a.flags.testBit 1 then (0x7F800000, 0)
  else if a.flags.testBit 2 then (0xFF800000, 0)
  else
    let v := signed 640 a.value
    Fp.fp32.round (.fin (decide (v < 0)) v.natAbs (-300))

/-! ### FP32 split into BF16 parts (R106, R107) -/

/-- v truncated toward zero to BF16 precision, subnormal grid included; a zero result is +0. -/
def truncBf16 (v : FVal) : FVal :=
  match v with
  | .fin n m e =>
    if m = 0 then fzero
    else
      let q : Int := max (e + bitLen m - 1 - 7) (-133)
      let t := if q ≤ e then m * 2 ^ (e - q).toNat else m >>> (q - e).toNat
      if t = 0 then fzero else .fin n t q
  | v => v

/-- The parts x1, x2, x3 of an FP32 code, and the flag of its flushing. -/
def splitFp32 (c : Nat) : Flagged (FVal × FVal × FVal) :=
  let x := Fp.fp32.read c
  match x.1 with
  | .fin n m _ =>
    let x1 := if m = 0 then FVal.fin n 0 0 else Fp.bf16.value (c >>> 16)
    let r1 := (fsub x.1 x1).1
    let x2 := truncBf16 r1
    let x3 := truncBf16 (fsub r1 x2).1
    ((x1, x2, x3), x.2)
  | v => ((v, fzero, fzero), x.2)

end Sys2Proof.Machine
end

