-- ==== Sys2Proof/Machine/Operands.lean ====
section
/-! DEFINITION. Operand forms: the fields of descriptors, core instructions, packets and registers, as the spec lays them out. -/

namespace Sys2Proof.Machine

/-! ### Global addresses (R24) -/

/-- The node field of a global address. -/
def gaNode (a : Nat) : Nat := bits a 48 16
/-- The local address in a global address. -/
def gaLocal (a : Nat) : Nat := bits a 0 48

/-! ### Descriptor header (Table 8.1) -/

/-- Header word 0. -/
def dWord0 (b : Bytes) : Nat := field b 0 8
def dType (b : Bytes) : Nat := bits (dWord0 b) 0 8
def dLength (b : Bytes) : Nat := bits (dWord0 b) 8 4
def dRnd (b : Bytes) : Nat := bits (dWord0 b) 16 2
def dOvfInf (b : Bytes) : Bool := bit (dWord0 b) 18
def dOrdered (b : Bytes) : Bool := bit (dWord0 b) 19
def dTarget (b : Bytes) : Nat := bits (dWord0 b) 24 10
def dTag (b : Bytes) : Nat := bits (dWord0 b) 40 24

/-- The reserved bits of word 0. -/
def dReserved (b : Bytes) : Nat :=
  bits (dWord0 b) 12 4 + bits (dWord0 b) 20 4 + bits (dWord0 b) 34 6

/-- Bytes 0x08 to 0x0F hold the complement of bytes 0x00 to 0x07. -/
def dComplementOk (b : Bytes) : Bool := field b 8 8 == 2 ^ 64 - 1 - dWord0 b

/-! ### Type codes (Table 8.2) -/

def tyMATMUL : Nat := 0x01
def tyCURVGATHER : Nat := 0x02
def tyVECOP : Nat := 0x03
def tyCOMPRESS : Nat := 0x04
def tyEXPAND : Nat := 0x05
def tyCOPY : Nat := 0x06
def tyRACC : Nat := 0x07
def tyGATHER : Nat := 0x08
def tyDROP : Nat := 0x09
def tyBCAST : Nat := 0x0A
def tyPERMUTE : Nat := 0x0B
def tyGATE : Nat := 0x0C
def tySOLVE : Nat := 0x0D
def tyFENCE : Nat := 0x0E
def tySIGNAL : Nat := 0x0F

/-! ### MATMUL (Table 5.2) -/

def Mm.aOff (b : Bytes) : Nat := field b 0x10 4
def Mm.bOff (b : Bytes) : Nat := field b 0x14 4
def Mm.cOff (b : Bytes) : Nat := field b 0x18 4
def Mm.scratch (b : Bytes) : Nat := field b 0x1C 4
def Mm.aStride (b : Bytes) : Nat := field b 0x20 4
def Mm.bStride (b : Bytes) : Nat := field b 0x24 4
def Mm.cStride (b : Bytes) : Nat := field b 0x28 4
def Mm.k (b : Bytes) : Nat := field b 0x2C 4
def Mm.m (b : Bytes) : Nat := field b 0x30 1
def Mm.n (b : Bytes) : Nat := field b 0x31 1
def Mm.fmt (b : Bytes) : Nat := field b 0x32 1
def Mm.code (b : Bytes) : Nat := field b 0x33 1
def Mm.acc (b : Bytes) : Nat := field b 0x34 1
def Mm.passes (b : Bytes) : Nat := field b 0x35 1
def Mm.spill (b : Bytes) : Nat := field b 0x36 1
def Mm.outFmt (b : Bytes) : Nat := field b 0x37 1
def Mm.outMode (b : Bytes) : Nat := field b 0x38 1

/-! ### CURVGATHER (Table 9.1) -/

def Cg.xOff (b : Bytes) : Nat := field b 0x10 4
def Cg.xStride (b : Bytes) : Nat := field b 0x14 4
def Cg.bufOff (b : Bytes) : Nat := field b 0x18 4
def Cg.rows (b : Bytes) : Nat := field b 0x1C 4
def Cg.row (b : Bytes) : Nat := field b 0x20 2
def Cg.col (b : Bytes) : Nat := field b 0x22 2
def Cg.factor (b : Bytes) : Nat := field b 0x24 2
def Cg.side (b : Bytes) : Nat := field b 0x26 1
def Cg.fmt (b : Bytes) : Nat := field b 0x27 1
def Cg.acc (b : Bytes) : Nat := field b 0x28 1
def Cg.passes (b : Bytes) : Nat := field b 0x29 1
def Cg.spill (b : Bytes) : Nat := field b 0x2A 1
def Cg.ctrl (b : Bytes) : Nat := field b 0x2B 1
def Cg.dest (b : Bytes) : Nat := field b 0x2C 2
def Cg.colGap (b : Bytes) : Nat := field b 0x2E 2
def Cg.step (b : Bytes) : Nat := field b 0x30 8
def Cg.scale (b : Bytes) : Nat := field b 0x38 4
def Cg.drop (b : Bytes) : Nat := field b 0x3C 4

/-! ### VECOP, COMPRESS and EXPAND (Table 7.1) -/

def Ve.xOff (b : Bytes) : Nat := field b 0x10 4
def Ve.yOff (b : Bytes) : Nat := field b 0x14 4
def Ve.wOff (b : Bytes) : Nat := field b 0x18 4
def Ve.zOff (b : Bytes) : Nat := field b 0x1C 4
def Ve.walk (b : Bytes) : Nat := field b 0x20 4
def Ve.op (b : Bytes) : Nat := field b 0x24 1
def Ve.inFmt (b : Bytes) : Nat := field b 0x25 1
def Ve.outFmt (b : Bytes) : Nat := field b 0x26 1
def Ve.round (b : Bytes) : Nat := field b 0x27 1
def Ve.imm0 (b : Bytes) : Nat := field b 0x28 4
def Ve.imm1 (b : Bytes) : Nat := field b 0x2C 4
def Ve.aux (b : Bytes) : Nat := field b 0x30 4
def Ve.param (b : Bytes) : Nat := field b 0x34 4

/-! ### COPY (Table 8.4) -/

def Cp.src (b : Bytes) : Nat := field b 0x10 8
def Cp.dst (b : Bytes) : Nat := field b 0x18 8
def Cp.bytes (b : Bytes) : Nat := field b 0x20 4
def Cp.rows (b : Bytes) : Nat := field b 0x24 4
def Cp.srcStride (b : Bytes) : Nat := field b 0x28 8
def Cp.dstStride (b : Bytes) : Nat := field b 0x30 8

/-! ### RACC (Table 6.5) -/

def Rc.src (b : Bytes) : Nat := field b 0x10 8
def Rc.dst (b : Bytes) : Nat := field b 0x18 8
def Rc.count (b : Bytes) : Nat := field b 0x20 4
def Rc.op (b : Bytes) : Nat := field b 0x24 1
def Rc.bucket (b : Bytes) : Nat := field b 0x28 4
def Rc.ret (b : Bytes) : Nat := field b 0x30 8

/-! ### GATHER and DROP (Table 14.9) -/

def Ga.kind (b : Bytes) : Nat := field b 0x10 1
def Ga.node (b : Bytes) : Nat := field b 0x12 2
def Ga.object (b : Bytes) : Nat := field b 0x14 4
def Ga.src (b : Bytes) : Nat := field b 0x18 8
def Ga.dst (b : Bytes) : Nat := field b 0x20 8
def Ga.bytes (b : Bytes) : Nat := field b 0x28 4
def Ga.fill (b : Bytes) : Nat := field b 0x2C 4
def Ga.needStep (b : Bytes) : Nat := field b 0x30 8
def Ga.deadline (b : Bytes) : Nat := field b 0x38 8

/-! ### BCAST (Table 14.11) -/

def Bc.src (b : Bytes) : Nat := field b 0x10 8
def Bc.dst (b : Bytes) : Nat := field b 0x18 8
def Bc.bytes (b : Bytes) : Nat := field b 0x20 4
def Bc.bucket (b : Bytes) : Nat := field b 0x24 4
def Bc.axes (b : Bytes) : Nat := field b 0x28 1
def Bc.step (b : Bytes) : Nat := field b 0x30 8

/-! ### PERMUTE (Table 15.5) -/

def Pm.src (b : Bytes) : Nat := field b 0x10 8
def Pm.dst (b : Bytes) : Nat := field b 0x18 8
def Pm.bytes (b : Bytes) : Nat := field b 0x20 4
def Pm.bucket (b : Bytes) : Nat := field b 0x24 4
def Pm.ctrl (b : Bytes) : Nat := field b 0x28 1
def Pm.epoch (b : Bytes) : Nat := field b 0x30 4

/-! ### GATE (Table 14.5) -/

def Gt.step (b : Bytes) : Nat := field b 0x10 8
def Gt.decOff (b : Bytes) : Nat := field b 0x18 4
def Gt.listOff (b : Bytes) : Nat := field b 0x1C 4
def Gt.ready (b : Bytes) : Nat := field b 0x20 1

/-! ### SOLVE (Table 10.5) -/

def So.factor (b : Bytes) : Nat := field b 0x10 2
def So.engine (b : Bytes) : Nat := field b 0x12 1
def So.method (b : Bytes) : Nat := field b 0x13 1
def So.p (b : Bytes) : Nat := field b 0x14 1
def So.ctrl (b : Bytes) : Nat := field b 0x15 1
def So.maxIter (b : Bytes) : Nat := field b 0x16 1
def So.group (b : Bytes) : Nat := field b 0x17 1
def So.step (b : Bytes) : Nat := field b 0x18 8
def So.deadline (b : Bytes) : Nat := field b 0x20 4
def So.tol (b : Bytes) : Nat := field b 0x24 4
def So.epsilon (b : Bytes) : Nat := field b 0x28 8
def So.offBuf (b : Bytes) : Nat := field b 0x30 4

/-! ### FENCE (R165) -/

def Fe.scope (b : Bytes) : Nat := field b 0x10 1

/-! ### SIGNAL (R166) -/

def Sg.counter (b : Bytes) : Nat := field b 0x10 4
def Sg.value (b : Bytes) : Nat := field b 0x14 4
def Sg.node (b : Bytes) : Nat := field b 0x18 2
/-! ### Core instructions (Table 8.6) -/

def iOp (w : Nat) : Nat := bits w 0 8
def iRd (w : Nat) : Nat := bits w 8 4
def iRa (w : Nat) : Nat := bits w 12 4
def iRb (w : Nat) : Nat := bits w 16 4
def iC (w : Nat) : Nat := bits w 20 6
def iNc (w : Nat) : Bool := bit w 26
def iReserved (w : Nat) : Nat := bits w 27 5
/-- IMM, signed. -/
def iImm (w : Nat) : Int := signed 32 (bits w 32 32)

/-- Operation codes of Table 8.7. -/
def opISSUE : Nat := 0x01
def opWAIT : Nat := 0x02
def opLOOP : Nat := 0x03
def opBEQ : Nat := 0x04
def opBNE : Nat := 0x05
def opBLT : Nat := 0x06
def opBGE : Nat := 0x07
def opBLTU : Nat := 0x08
def opBGEU : Nat := 0x09
def opJUMP : Nat := 0x0A
def opADD : Nat := 0x10
def opSUB : Nat := 0x11
def opADDI : Nat := 0x12
def opSHL : Nat := 0x13
def opSHR : Nat := 0x14
def opSRA : Nat := 0x15
def opAND : Nat := 0x16
def opOR : Nat := 0x17
def opXOR : Nat := 0x18
def opLOAD : Nat := 0x20
def opSTORE : Nat := 0x21
def opFENCE : Nat := 0x30
def opSIGNAL : Nat := 0x31
def opHALT : Nat := 0x3F

/-- The fields that an operation does not use: they must be 0 (R170). RD, RA, RB, C, NC and IMM count as used where Table 8.7
names them. None for an unknown OP. -/
def iUnused (w : Nat) : Option Nat :=
  let rd := iRd w
  let ra := iRa w
  let rb := iRb w
  let c := iC w
  let nc := b2n (iNc w)
  let imm := bits w 32 32
  match iOp w with
  | 0x01 => some (rd + rb)
  | 0x02 => some (nc + imm)
  | 0x03 => some (rd + rb + c + nc)
  | 0x04 | 0x05 | 0x06 | 0x07 | 0x08 | 0x09 => some (rd + c + nc)
  | 0x0A => some (rb + c + nc)
  | 0x10 | 0x11 => some (c + nc + imm)
  | 0x12 => some (rb + c + nc)
  | 0x13 | 0x14 | 0x15 => some (c + nc)
  | 0x16 | 0x17 | 0x18 => some (c + nc + imm)
  | 0x20 => some (rb + c + nc)
  | 0x21 => some (rd + c + nc)
  | 0x30 => some (rd + ra + rb + c + nc + imm)
  | 0x31 => some (rd + rb + nc)
  | 0x3F => some (rd + ra + rb + c + nc + imm)
  | _ => none

/-! ### Packets (Tables 13.4 to 13.6) -/

/-- Kinds of Table 13.5. -/
def kREAD_REQ : Nat := 0x01
def kREAD_RESP : Nat := 0x02
def kWRITE : Nat := 0x03
def kRACC : Nat := 0x05
def kSIGNAL : Nat := 0x07
def kDELTA : Nat := 0x09
def kBUCKET : Nat := 0x0B
def kACK : Nat := 0x0F
def kCOLL : Nat := 0x10
def kBEACON : Nat := 0x20

end Sys2Proof.Machine

namespace Sys2Proof

open Machine

/-- Operation header fields (Table 13.6). -/
def Packet.addr (k : Packet) : Nat := bits (field k.hdr 0 8) 0 48
def Packet.bytes (k : Packet) : Nat := field k.hdr 8 2
def Packet.op (k : Packet) : Nat := field k.hdr 10 1
def Packet.status (k : Packet) : Nat := field k.hdr 11 1
def Packet.numFlags (k : Packet) : Nat := field k.hdr 12 1
def Packet.respFlags (k : Packet) : Nat := field k.hdr 13 1

/-- An operation header (Table 13.6). -/
def Machine.opHeader (addr bytes op status flags resp : Nat) : Bytes :=
  leBytes 8 addr ++ leBytes 2 bytes ++ leBytes 1 op ++ leBytes 1 status ++ leBytes 1 flags ++ leBytes 1 resp ++ leBytes 2 0

/-! ### Register writes (R412) -/

/-- The bits of a 64-bit register that a write covers. -/
def Wr.covers (w : Wr) (i : Nat) : Bool :=
  match w.half with
  | .both => true
  | .lo => decide (i < 32)
  | .hi => decide (32 ≤ i)

/-- A field lies wholly inside the bytes written. -/
def Wr.has (w : Wr) (lo len : Nat) : Bool := w.covers lo && w.covers (lo + len - 1)

/-- A field of the value written, when the write covers it.
DESIGN CHOICE: notes/assumptions/32.md. -/
def Wr.get? (w : Wr) (lo len : Nat) : Option Nat := if w.has lo len then some (bits w.v.toNat lo len) else none

/-- The field after the write: the new value when covered, else the old. -/
def Wr.upd (w : Wr) (lo len old : Nat) : Nat := (w.get? lo len).getD old

/-- A write of 1 to a one-bit field. -/
def Wr.sets (w : Wr) (i : Nat) : Bool := w.get? i 1 == some 1

/-- The value of a write placed for the half `h`. -/
def Wr.placed (w : Wr) (h : Half) : Wr := if w.half = h then w else { half := h, v := if h = .hi then w.v <<< 32 else w.v >>> 32 }

end Sys2Proof
end

