-- ==== Sys2Proof/Machine/Ops.lean ====
section
/-! DEFINITION. Named operations over the state: clusters, cores and counters, the image in force, the local address map,
memory, power domains, the fault log, GBL_ATTN and the completion of a descriptor. -/

namespace Sys2Proof.Machine

/-! ### Clusters and cores -/

/-- What logical cluster `n` holds. -/
def State.cluster (s : State) (n : Nat) : Cluster := s.clusters.get {} n

def State.setCluster (s : State) (n : Nat) (c : Cluster) : State := { s with clusters := s.clusters.set {} n c }

/-- Logical core `k` (cluster k div 16, index k mod 16; Table 1.3).
DESIGN CHOICE: notes/assumptions/10.md. -/
def State.core (s : State) (k : Nat) : Core := (s.cluster (k / 16)).cores.get {} (k % 16)

def State.setCore (s : State) (k : Nat) (c : Core) : State :=
  let x := s.cluster (k / 16)
  s.setCluster (k / 16) { x with cores := x.cores.set {} (k % 16) c }

/-- Register s[i] of a core; s0 reads as 0 (R168).
DESIGN CHOICE: notes/assumptions/10.md. -/
def Core.reg (c : Core) (i : Nat) : Word := if i = 0 then 0 else c.regs.get 0 i

/-- Writes register s[i]; a write of s0 is discarded (R168).
DESIGN CHOICE: notes/assumptions/10.md. -/
def Core.setReg (c : Core) (i : Nat) (v : Word) : Core := if i = 0 then c else { c with regs := c.regs.set 0 i v }

/-- A core after an operation that goes on to index `pc`. -/
def Core.goto (c : Core) (pc : Nat) : Core := { c with pc := pc, st := .run, hold := .none }

/-! ### The image in force (03) -/

def State.topo (s : State) : Topology := (s.dmk.inForce.bind (·.topology)).getD {}

/-- This module's coordinates. -/
def State.node (s : State) : Nat := s.topo.node

/-- CURRENT_EPOCH: the epoch of the image in force, 0 without one (Table 3.15). -/
def State.epochNow (s : State) : Nat := match s.dmk.inForce with
  | some i => i.epoch
  | none => 0

/-- PENDING_EPOCH (Table 3.15). -/
def State.epochPending (s : State) : Nat := match s.dmk.pendingImage with
  | some i => i.epoch
  | none => 0

/-- NUMERICS in force, the defaults of Table 3.5 without one. -/
def State.numerics (s : State) : Numerics := (s.dmk.inForce.bind (·.numerics)).getD {}

def State.groups (s : State) : List Group := (s.dmk.inForce.bind (·.clusters)).getD []

def State.regions (s : State) : List Region := match s.dmk.inForce.bind (·.memory) with
  | some m => m.regions
  | none => []

def State.coll (s : State) : Option Collective := s.dmk.inForce.bind (·.collective)

def State.pipe (s : State) : Pipeline := (s.dmk.inForce.bind (·.pipeline)).getD {}

def State.sergeSec (s : State) : Option SergeSec := s.dmk.inForce.bind (·.serge)

/-- The array group that logical cluster `n` belongs to. -/
def State.groupOf (s : State) (n : Nat) : Option Nat := s.groups.findIdx? (fun g => g.clusters.testBit n)

/-- The first region of a kind. -/
def State.region (s : State) (kind : Nat) : Option Region := s.regions.find? (·.kind == kind)

/-- The coordinate of a node field on axis `a` (0 X, 1 Y, 2 Z, 3 W; R24). -/
def coord (node a : Nat) : Nat := bits node (4 * a) 4

def setCoord (node a c : Nat) : Nat := setBits node (4 * a) 4 c

/-- Modules on the ring of axis `a`. -/
def Topology.size (t : Topology) (a : Nat) : Nat := t.axisSize.getD a 1

/-- A node field obeys R26: 0xFFFF, or every coordinate below its axis size. -/
def State.nodeOk (s : State) (n : Nat) : Bool := n == 0xFFFF || (List.range 4).all fun a => decide (coord n a < s.topo.size a)

/-- The node field names this module (R24). -/
def State.isSelf (s : State) (n : Nat) : Bool := n == 0xFFFF || n == s.node

/-- A node field with this module's coordinates in place of 0xFFFF. -/
def State.nodeAs (s : State) (n : Nat) : Nat := if n = 0xFFFF then s.node else n

/-- The pair assigned to axis `a`, if any (R13). -/
def Topology.pairOf (t : Topology) (a : Nat) : Option Nat := t.axisOfPair.findIdx? (· == a)

/-- Port `p`'s axis, 0xFF for an unused pair. -/
def Topology.axisOfPort (t : Topology) (p : Nat) : Nat := t.axisOfPair.getD (p / 2) 0xFF

/-- rank of a node (R315): its coordinates with the ring sizes as radices, W most significant, X fastest. -/
def Topology.rank (t : Topology) (node : Nat) : Nat :=
  coord node 0 + t.size 0 * (coord node 1 + t.size 1 * (coord node 2 + t.size 2 * coord node 3))

/-! ### Units -/

/-- The physical cluster that a logical cluster has by default (Table 1.3). -/
def defaultPhys (n : Nat) : Nat := 34 * (n / 32) + 17 * (n % 32 / 16) + n % 16

/-- The half's spare: local 16 or 33 (Table 1.3). -/
def sparePhys (h : Nat) : Nat := 34 * (h / 2) + 17 * (h % 2) + 16

/-- The logical cluster on a half's spare. -/
def State.onSpare (s : State) (h : Nat) : Option Nat := s.swapped.get none h

/-- Physical cluster behind a logical one, none when it is absent. -/
def State.physCluster (s : State) (n : Nat) : Option Nat :=
  if s.absent.contains n then none else if s.onSpare (n / 16) = some n then some (sparePhys (n / 16)) else some (defaultPhys n)

/-- Logical cluster `n` is present (R18). -/
def State.clusterPresent (s : State) (n : Nat) : Bool := decide (n < 512) && !s.absent.contains n

/-- Logical engine `e` is present (Table 2.6). -/
def State.enginePresent (s : State) (e : Nat) : Bool := ((s.engineMap.getD e none).isSome)

/-! ### Local address map (Table 1.6) -/

/-- The window that a local address lies in. -/
inductive Win where
  | near (k : Nat)
  | board (k : Nat)
  | far (k : Nat)
  | store (n : Nat)
  | link (t : Nat)
  | work (e : Nat)
  | control
  | reserved
  deriving DecidableEq, Repr

def storeBase (n : Nat) : Nat := 0x080000000000 + n * 0x800000
def linkBase (t : Nat) : Nat := 0x080100000000 + t * 0x4000000
def workBase (e : Nat) : Nat := 0x080200000000 + e * 0x8000000
def controlBase : Nat := 0x0FF000000000
def storeSize : Nat := 0x600000

/-- Window and offset of a local address. What Table 1.6 does not list, from 0x0801_2000_0000 to 0x0801_FFFF_FFFF, is taken as reserved.
DESIGN CHOICE: notes/assumptions/118.md. -/
def winOf (a : Nat) : Win × Nat :=
  if a < 0x010000000000 then (.near (a / 0x2000000000), a % 0x2000000000)
  else if a < 0x030000000000 then (.board ((a - 0x010000000000) / 0x2000000000), a % 0x2000000000)
  else if a < 0x050000000000 then (.far ((a - 0x030000000000) / 0x10000000000), a % 0x10000000000)
  else if a < 0x080000000000 then (.reserved, 0)
  else if a < 0x080100000000 then (.store ((a - 0x080000000000) / 0x800000), a % 0x800000)
  else if a < 0x080120000000 then (.link ((a - 0x080100000000) / 0x4000000), a % 0x4000000)
  else if a < 0x080200000000 then (.reserved, 0)
  else if a < 0x080220000000 then (.work ((a - 0x080200000000) / 0x8000000), a % 0x8000000)
  else if a < controlBase then (.reserved, 0)
  else if a < controlBase + 0x4000000 then (.control, a - controlBase)
  else (.reserved, 0)

/-- Populated bytes of a window, from its base. Control space counts as unpopulated here: what may reach it says so itself. -/
def State.winSize (s : State) (w : Win) : Nat :=
  match w with
  | .near k => let x := s.nearStacks.get {} k; if x.state = 0 then x.w * 0x100000000 else 0
  | .board k => let x := s.tiers.get {} (8 + k); if x.state = 0 then x.size else 0
  | .far k => let x := s.tiers.get {} (24 + k); if x.state = 0 then x.size else 0
  | .store n => if s.clusterPresent n then storeSize else 0
  | .link t => if t < 8 then 0x3000000 else 0
  | .work e => if s.enginePresent e then 0x4000000 else 0
  | .control => 0
  | .reserved => 0

/-- Every byte of [a, a + len) is populated (R28). Ranges may run on into the next window (R27). -/
def State.populatedGo (s : State) : (fuel a len : Nat) → Bool
  | 0, _, _ => false
  | f + 1, a, len =>
    let w := winOf a
    let room := s.winSize w.1 - w.2
    if room = 0 then false else if len ≤ room then true else State.populatedGo s f (a + room) (len - room)

def State.populated (s : State) (a len : Nat) : Bool := len == 0 || s.populatedGo 64 a len

/-- The range lies in the populated part of one window. -/
def State.inOneWindow (s : State) (a len : Nat) : Bool :=
  let w := winOf a
  decide (w.2 + len ≤ s.winSize w.1) && decide (0 < s.winSize w.1)

/-- The range touches a retired page (R265). -/
def State.touchesRetired (s : State) (a len : Nat) : Bool :=
  s.flash.retired.any fun p => overlap a len p 0x10000

/-- Power domain of a window (Table 17.3); control space needs none. Near stack k lies behind its own controller's domain, 50 + k, and behind no
C-tile half: it stays reachable while the clusters beside it, those of halves 4k to 4k + 3, sleep (R11). -/
def Win.domain : Win → Option Nat
  | .near k => some (50 + k)
  | .board k => some (47 + k / 8)
  | .far _ => some 49
  | .store n => some (n / 16)
  | .link t => some (32 + t)
  | .work e => some (40 + e)
  | .control => none
  | .reserved => none

/-- The tier unit behind a window (Table 2.7). -/
def Win.tierUnit : Win → Option Nat
  | .near k => some k
  | .board k => some (8 + k)
  | .far k => some (24 + k)
  | _ => none

/-- What must serve before a window is reached: its domain, and tier unit r as 64 + r. -/
def Win.gates (w : Win) : List Nat := w.domain.toList ++ w.tierUnit.toList.map (64 + ·)

/-- Domains and tier units of the windows that a range touches, for ranges that run through at most `fuel` windows. -/
def State.rangeDomainsGo (s : State) : (fuel a len : Nat) → List Nat
  | 0, _, _ => []
  | f + 1, a, len =>
    let w := winOf a
    let room := s.winSize w.1 - w.2
    let d := w.1.gates
    if room = 0 ∨ len ≤ room then d else d ++ State.rangeDomainsGo s f (a + room) (len - room)

def State.rangeDomains (s : State) (a len : Nat) : List Nat := if len = 0 then [] else s.rangeDomainsGo 64 a len

/-! ### Memory -/

/-- The address lies in SRAM (cluster stores, link buffers, Serge workspaces), whose unlisted bytes read 0 (R249, R384). -/
def isSram (a : Nat) : Bool := decide (0x080000000000 ≤ a) && decide (a < 0x080220000000)

/-- The address lies in one of the ranges [lo, hi). -/
def inRanges (z : List (Nat × Nat)) (a : Nat) : Bool := z.any fun r => decide (r.1 ≤ a) && decide (a < r.2)

/-- Adds the range [lo, hi) to rising ranges that do not touch, and keeps them so.
DESIGN CHOICE: notes/assumptions/4.md. -/
def addRange : List (Nat × Nat) → Nat → Nat → List (Nat × Nat)
  | [], lo, hi => [(lo, hi)]
  | r :: rest, lo, hi =>
    if hi < r.1 then (lo, hi) :: r :: rest
    else if r.2 < lo then r :: addRange rest lo hi
    else addRange rest (min lo r.1) (max hi r.2)

/-- An unlisted byte reads 0: it lies in SRAM, or in DRAM that has been zeroed as a whole (R59 and others).
DESIGN CHOICE: notes/assumptions/4.md. -/
def zeroAt (z : List (Nat × Nat)) (a : Nat) : Bool := isSram a || inRanges z a

/-- The memory's canonical form: rising addresses, and no 0 listed where an unlisted byte reads 0.
DESIGN CHOICE: notes/assumptions/4.md. -/
abbrev memoryWf (z : List (Nat × Nat)) (m : List Host.Cell) : Prop :=
  m.Pairwise (fun x y => x.1 < y.1) ∧ ∀ c ∈ m, zeroAt z c.1 = true → c.2 ≠ 0

/-- One byte at a local address; an unlisted byte of DRAM that nothing has zeroed is a free value (R261).
DESIGN CHOICE: notes/assumptions/4.md. -/
def State.read8 (s : State) (a : Nat) : Byte :=
  (SMap.find? s.mem a).getD (if zeroAt s.zeroed a then 0 else Config.dramByte s.dramGen a)

/-- The list with one byte written, in canonical form.
DESIGN CHOICE: notes/assumptions/4.md. -/
def memPut (z : List (Nat × Nat)) (m : List Host.Cell) (a : Nat) (b : Byte) : List Host.Cell :=
  if zeroAt z a ∧ b = 0 then SMap.erase m a else SMap.put m a b

def State.write8 (s : State) (a : Nat) (b : Byte) : State := { s with mem := memPut s.zeroed s.mem a b }

def State.readBytes (s : State) (a n : Nat) : Bytes := (List.range n).map fun i => s.read8 (a + i)

/-- Writes bytes at ascending addresses from `a`. -/
def State.writeBytes (s : State) (a : Nat) : Bytes → State
  | [] => s
  | b :: r => State.writeBytes (s.write8 a b) (a + 1) r

/-- Little-endian number of `n` bytes. -/
def State.readNat (s : State) (a n : Nat) : Nat := leNat (s.readBytes a n)

def State.writeNat (s : State) (a n v : Nat) : State := s.writeBytes a (leBytes n v)

/-- The list without the bytes of [lo, hi).
DESIGN CHOICE: notes/assumptions/4.md. -/
def memDrop (m : List Host.Cell) (lo hi : Nat) : List Host.Cell := m.filter fun c => !(decide (lo ≤ c.1) && decide (c.1 < hi))

/-- SRAM in [lo, hi) reads 0 again. -/
def State.clearSram (s : State) (lo hi : Nat) : State := { s with mem := memDrop s.mem lo hi }

/-- Zeros into [a, a + len) of any memory (R59). -/
def State.zeroRange (s : State) (a len : Nat) : State :=
  if len = 0 then s else { s with mem := memDrop s.mem a (a + len), zeroed := addRange s.zeroed a (a + len) }

/-- Writes zeros on [a, a + len) outside retired pages, where the writes are refused (R265). -/
def State.zeroOutside (s : State) (a len : Nat) : State :=
  let ps := s.flash.retired.filter fun p => overlap a len p 0x10000
  if ps.isEmpty then s.zeroRange a len
  else
    let pts := a :: ps.flatMap fun p => [min (a + len) (max a p), min (a + len) (p + 0x10000)]
    ((pts.zip (pts.drop 1 ++ [a + len])).filter fun x => decide (x.1 < x.2) && !s.touchesRetired x.1 (x.2 - x.1)).foldl
      (fun (t : State) x => t.zeroRange x.1 (x.2 - x.1)) s

/-- Store bytes of cluster `n` from offset `off`. -/
def State.readStore (s : State) (n off len : Nat) : Bytes := s.readBytes (storeBase n + off) len

def State.writeStore (s : State) (n off : Nat) (b : Bytes) : State := s.writeBytes (storeBase n + off) b

/-! ### GBL_ATTN (R419) -/

def atCALICO : Nat := 0
def atFAULT : Nat := 1
def atLINK : Nat := 2
def atOP_DONE : Nat := 3
def atSUPPLY : Nat := 4
def atFETCH : Nat := 5
def atSCRUB : Nat := 6

/-- A source event sets its bit, and is noted with its tick (R419). -/
def State.attn (s : State) (i : Nat) : State :=
  { s with hif := { s.hif with
      attn := s.hif.attn ||| 2 ^ i, attnNow := (s.tick, (if s.hif.attnNow.1 = s.tick then s.hif.attnNow.2 else 0) ||| 2 ^ i) } }

/-! ### Calico changes (R42) -/

/-- A change that the next publication will show. -/
def State.calicoDirty (s : State) : State := { s with calico := { s.calico with dirty := true } }

/-! ### Fault log (R368 to R370) -/

/-- The window of a tick (R370). -/
def windowOf (t : Nat) : Nat := t / 25000

/-- Slot of the record of `f` in the window of now, if the log holds one. -/
def State.faultSlot (s : State) (f : FaultId) : Option Nat :=
  (List.find? (fun (e : Nat × FaultRec) => e.2.fid == f && windowOf e.2.tick == windowOf s.tick) s.log.slots).map (·.1)

/-- Writes a new record at WRITE_INDEX (R368). -/
def State.appendFault (s : State) (r : FaultRec) : State :=
  let l := s.log
  let lost := match SMap.find? l.slots l.writeIndex with
    | some o => decide (l.persistSeq < o.seq)
    | none => false
  let r' := { r with seq := l.lastSeq + 1 }
  { s with log := { l with
      slots := SMap.put l.slots l.writeIndex r'
      writeIndex := (l.writeIndex + 1) % 255
      lastSeq := l.lastSeq + 1
      overwrote := l.overwrote || lost
      overwritten := l.overwritten + b2n lost } }.attn atFAULT

/-- A detection of fault `f`: it counts in the record of its window, or writes one (R370). A fault whose identity a beacon has
brought writes CONFIRM with the beacon's origin (R375). -/
def State.logFault (s : State) (f : FaultId) (severity phys : Nat) (detail : Nat) (beacons : Bool := false) : State :=
  match s.faultSlot f with
  | some i => match SMap.find? s.log.slots i with
    | some r => { s with log := { s.log with slots := SMap.put s.log.slots i { r with count := min (r.count + 1) 0xFFFFFFFF } } }
    | none => s
  | none =>
    let seen := if beacons then s.log.seen.find? (fun e => e.1 == f && decide (s.tick < e.2.2)) else none
    let role := if beacons then (if seen.isSome then 2 else 1) else 0
    let origin := match seen with
      | some e => e.2.1
      | none => s.node
    s.appendFault { fid := f, role := role, severity := severity, phys := phys, count := 1, tick := s.tick, origin := origin,
                    reporter := s.node, bootCount := s.bootCount, seq := 0, detail := BitVec.ofNat 64 detail }

/-- Kinds of Table 16.6. -/
def fkCE : Nat := 0x1
def fkUE : Nat := 0x2
def fkFAR_LINK : Nat := 0x3
def fkPOISON : Nat := 0x4
def fkLINK_LOSS : Nat := 0x5
def fkLANE_FAIL : Nat := 0x6
def fkTIME_FAULT : Nat := 0x7
def fkWAKE_FAIL : Nat := 0x8
def fkDIVERGED : Nat := 0x9
def fkRETIRED_REMOVED : Nat := 0xA
def fkMARK : Nat := 0xB
def fkSCRUB_LATE : Nat := 0xC

/-- UNIT of Table 16.5: class and index. -/
def faultUnit (cls idx : Nat) : Nat := cls * 4096 + idx % 4096

/-! ### Power domains (17) -/

/-- A domain that no command has touched yet: off, with the reset values of Table 17.10. -/
def domainDefault (d : Nat) : Domain :=
  if d < 32 then { retainAfter := 100, offAfter := 1000000 }
  else if d < 40 then { retainAfter := 1000, offAfter := 10000000 }
  else if d < 44 then { retainAfter := 1000, offAfter := 0 }
  else if d < 47 then {}
  else { retainAfter := 10000, offAfter := 0 }

def State.dom (s : State) (d : Nat) : Domain := s.domains.get (domainDefault d) d

/-- The domain is off, or wakes from off: what it held is lost. -/
def Domain.lost (x : Domain) : Bool := x.st == .off || x.st == .wakeOff

def State.setDom (s : State) (d : Nat) (x : Domain) : State := { s with domains := s.domains.set (domainDefault d) d x }

/-- Tier unit `r` serves no access: it is in its recalibration slot (R263), or its link recovers (R260).
DEDUCED: notes/assumptions/81.md. -/
def State.unitBusy (s : State) (r : Nat) : Bool := (s.recal.get {} r : Recal).inSlot || (s.tiers.get {} r : Tier).recovering

/-- The domain serves accesses: it is on and no publication holds it (R17). Numbers from 64 on name tier units. -/
def State.domOn (s : State) (d : Nat) : Bool :=
  if 64 ≤ d then !s.unitBusy (d - 64)
  else (s.dom d).st == .on && decide ((s.dom d).awaitPublish ≤ s.calico.generation)

/-- The GENERATION of the next publication to show a change made now (R40, R43). -/
def State.nextShown (s : State) : Nat := s.calico.generation + (if s.calico.generation % 2 = 1 then 3 else 2)

/-- Those of a list that do not serve accesses now, domains and tier units. -/
def State.asleep (s : State) (ds : List Nat) : List Nat := ds.filter fun d => !s.domOn d

/-- The envelope in force keeps the domain off (R190, R232). -/
def State.envOff (s : State) (d : Nat) : Bool := decide (40 ≤ d) && decide (d < 44) && decide (s.env.engines ≤ d - 40)

/-- Physical cluster `p` counts as failed: it is marked, or two of its 17 cores are, so that its spare core does not suffice
(Table 1.4).
DEDUCED: notes/assumptions/92.md. -/
def State.physFailed (s : State) (p : Nat) : Bool :=
  s.flash.marks.clusters.contains p || decide (2 ≤ (s.flash.marks.cores.filter (·.1 == p)).length)

/-- The silicon of logical cluster `n` has failed. -/
def State.clusterFailed (s : State) (n : Nat) : Bool :=
  match s.physCluster n with
  | none => false
  | some p => s.physFailed p

/-- Moves one logical cluster of a half off failed silicon: onto the half's spare while that is free and good, else absent. -/
def State.swapCluster (s : State) (n : Nat) : State :=
  if !s.clusterFailed n then s
  else
    let h := n / 16
    if s.onSpare h = none && !s.physFailed (sparePhys h) then
      { s with swapped := s.swapped.set none h (some n), spareCores := s.spareCores.erase n }.calicoDirty
    else { s with absent := s.absent ++ [n], swapped := if s.onSpare h = some n then s.swapped else s.swapped }.calicoDirty

/-- The local core that one mark of a cluster names, moved to local core 16 (Table 1.4). -/
def State.swapCores (s : State) (n : Nat) : State :=
  match s.physCluster n with
  | none => s
  | some p => match s.flash.marks.cores.find? (fun c => c.1 == p && decide (c.2 < 16)) with
    | none => s
    | some c => if SMap.find? s.spareCores n = some c.2 then s
                else { s with spareCores := SMap.put s.spareCores n c.2 }.calicoDirty

/-- The half in which a physical cluster lies (Table 1.3). -/
def physHalf (p : Nat) : Nat := 2 * (p / 34) + p % 34 / 17

/-- The remap tables of half `h` take the entries in flash (R246, R249), but for those of `lost`. Entries already loaded stay as they
are. -/
def State.loadRemapsBut (s : State) (h : Nat) (lost : List (Nat × Nat × Nat)) : State :=
  let new := s.flash.remaps.filter fun r => physHalf r.1 == h && !lost.contains r && !(s.remaps.any fun x => x.1 == r)
  { s with remaps := s.remaps ++ new.map fun r => (r, s.log.lastSeq) }

/-- The remap tables of half `h` take the entries in flash (R246, R249). -/
def State.loadRemaps (s : State) (h : Nat) : State :=
  s.loadRemapsBut h []

/-- Swaps and remap entries that take effect at the ramp of a wake from off of half `h` (R16, R246, R249). During a warm
MP restart a wake makes no swap (R405). Of two marked clusters the one with the lower logical number takes the spare.
DESIGN CHOICE: notes/assumptions/95.md. -/
def State.rampHalf (s : State) (h : Nat) : State :=
  if s.fw.restarting then s else
  let before := (s.swapped, s.absent, s.spareCores)
  let ns := (List.range 16).map (16 * h + ·)
  let s1 := ns.foldl State.swapCluster s
  let s2 := ns.foldl State.swapCores s1
  let changed := before != (s2.swapped, s2.absent, s2.spareCores)
  let s3 := s2.loadRemaps h
  if changed then s3.setDom h { s3.dom h with awaitPublish := s3.nextShown } else s3

/-- `awaitPublish` of a swapped engine whose spare has not woken yet (R233). -/
def swapAwaits : Nat := 2 ^ 64

/-- The physical engine behind logical engine `e` is marked for a swap (R233). -/
def State.engineMarked (s : State) (e : Nat) : Bool := match s.engineMap.getD e none with
  | some p => s.flash.marks.engines.contains p
  | none => false

/-- Swaps a marked engine at its swap point (R233, R234): onto the spare, whose domain wakes from off, or else it is absent. The
engine's registers and its workspace take their reset values. The new map is due when the spare has woken. -/
def State.replaceEngine (s : State) (e : Nat) : State :=
  let spareFree := !s.engineMap.contains (some 4) && !s.flash.marks.engines.contains 4
  let s1 := { s with engineMap := s.engineMap.set e (if spareFree then some 4 else none), engines := s.engines.erase e }.clearSram
    (workBase e) (workBase (e + 1))
  let x := s1.dom (40 + e)
  if spareFree then
    (s1.setDom 44 { s1.dom 44 with st := .wakeOff, wakeAt := s.tick }).setDom (40 + e)
      { x with st := .wakeOff, wanted := false, awaitPublish := swapAwaits, wakeAt := s.tick }
  else (s1.setDom (40 + e) { x with st := .off, wanted := false }).calicoDirty

/-- Asks for a wake of domain `d` (R188). A domain that the envelope keeps off is not woken (R190); one in transition into
retain or off wakes when the transition ends. A marked engine is swapped at its wake (R233). -/
def State.wake (s : State) (d : Nat) : State :=
  let x := s.dom d
  let swap := decide (40 ≤ d) && decide (d < 44) && s.engineMarked (d - 40) && !s.fw.restarting
  if s.envOff d || decide (58 ≤ d) then s
  else match x.st with
    | .off =>
      let s1 := s.setDom d { x with st := .wakeOff, wanted := false, wakeAt := s.tick }
      if d < 32 then s1.rampHalf d else if swap then s1.replaceEngine (d - 40) else s1
    | .retain => if swap then s.replaceEngine (d - 40) else s.setDom d { x with st := .wakeRetain, wanted := false, wakeAt := s.tick }
    | .toRetain => s.setDom d { x with wanted := true }
    | .toOff => s.setDom d { x with wanted := true }
    | .on => s
    | .wakeOff => s
    | .wakeRetain => s

def State.wakeAll (s : State) (ds : List Nat) : State := ds.foldl State.wake s

/-! ### Requests that wait (R166, R188, R251, R263) -/

/-- Puts a request behind those that wait. -/
def State.park (s : State) (w : Waiting) : State :=
  { s with hif := { s.hif with waiting := s.hif.waiting ++ [{ seq := s.nextId, req := w }] } }

/-- A request that stands for work held elsewhere in State, so that it waits once however often that work is tried. -/
def Waiting.standsIn : Waiting → Bool
  | .place _ _ => true
  | .segment _ _ => true
  | .mp _ _ => true
  | .fetch _ _ _ => true
  | .task _ _ => true
  | _ => false

/-- Puts a request off until the domains and tier units that it reaches serve accesses. -/
def State.putOff (s : State) (w : Waiting) (ds : List Nat) : State :=
  (if w.standsIn && s.hif.waiting.any (fun x => x.req == w) then s else s.park w).wakeAll (s.asleep ds)

/-- Domains and tier units that a waiting request reaches. -/
def State.reqDomains (s : State) : Waiting → List Nat
  | .read a n _ => s.rangeDomains a n
  | .write a b _ _ => s.rangeDomains a b.length
  | .doorbell _ _ => []
  | .counter n _ _ => [n / 16]
  | .packet _ ds _ => ds
  | .place _ ds => ds
  | .segment _ ds => ds
  | .mp _ ds => ds
  | .fetch _ ds _ => ds
  | .task _ ds => ds

/-- Runs `f` under an earlier retirement map: accesses that had reached their controller meet that one (R265). -/
def State.underMap (s : State) (m : Option (List Nat)) (f : State → State) : State := match m with
  | none => f s
  | some m => let t := f { s with flash := { s.flash with retired := m } }; { t with flash := { t.flash with retired := s.flash.retired } }

/-! ### Counters and waits (R174, R175) -/

/-- Counter `c` of cluster `n`. -/
def State.counter (s : State) (n c : Nat) : Word32 := (s.cluster n).counters.get 0 c

/-- The counter has reached the target: their difference, as a signed 32-bit number, is at least 0. -/
def reached (cnt t : Word32) : Bool := decide (0 ≤ (cnt - t).toInt)

/-- Word of a core's program at an index. -/
def Core.word (c : Core) (i : Nat) : Nat := (c.prog.get 0 i).toNat

/-- The tick in which a deadline falls: one that a forward step has passed falls in the tick that the step led to (R289). -/
def State.due (s : State) (t : Nat) : Nat := if s.stepped.1 ≤ t ∧ t < s.stepped.2 then s.stepped.2 else t

/-- The tick of a deadline has passed; what happens within it wins (R9, R289). -/
def State.overdue (s : State) (t : Nat) : Bool := decide (s.due t < s.tick)

/-- The deadline of a WAIT, s[RB], is not 0 and has passed by `late` (R175). -/
def Core.waitOver (c : Core) (late : Nat → Bool) : Bool := let dl := (c.reg (iRb (c.word c.pc))).toNat; dl != 0 && late dl

/-- A core held in a WAIT leaves it with `status`. -/
def Core.leaveWait (c : Core) (status : Word) : Core := (c.setReg (iRd (c.word c.pc)) status).goto (c.pc + 1)

/-- A core held in a WAIT whose counter has reached its target is released: with 0x00 up to the deadline tick, and with 0x01 after it, the
deadline having released it (R175, R9). -/
def releaseWait (late : Nat → Bool) (counters : SMap Word32) (c : Core) : Core :=
  let w := c.word c.pc
  if c.hold = .wait && reached (counters.get 0 (iC w)) ((c.reg (iRa w)).truncate 32) then c.leaveWait (if c.waitOver late then 1 else 0) else c

/-- Changes the value of a counter and releases the WAITs that it satisfies. -/
def State.setCounter (s : State) (n c : Nat) (v : Word32) : State :=
  let x := s.cluster n
  let cs := x.counters.set 0 c v
  s.setCluster n { x with counters := cs, cores := x.cores.map fun e => (e.1, releaseWait s.overdue cs e.2) }

/-- Adds to a counter modulo 2^32. -/
def State.addCounter (s : State) (n c : Nat) (v : Word32) : State := s.setCounter n c (s.counter n c + v)

/-! ### Completions (R162, R173, R174, R183) -/

/-- GBL_CORE_STATUS of a core collects a completion (Table 8.9). -/
def Core.collect (c : Core) (status flags tag : Nat) : Core :=
  { c with
    flags := c.flags ||| flags
    firstStatus := if c.firstStatus = 0 then status else c.firstStatus
    firstTag := if c.firstStatus = 0 && status != 0 then tag else c.firstTag
    notOk := if status = 0 then c.notOk else min (c.notOk + 1) 0xFFFFFF }

/-- The 32 bytes of a completion record (Table 8.18). -/
def Record.encode (r : Record) (phase : Bool) : Bytes :=
  leBytes 4 (b2n phase + r.status * 2 ^ 8 + r.flags % 32 * 2 ^ 16 + b2n r.woke * 2 ^ 21 + r.typ % 256 * 2 ^ 24) ++
  leBytes 4 r.tag ++ leBytes 2 r.sq ++ leBytes 2 r.sqHead ++ leBytes 4 0 ++ leBytes 8 r.timestamp ++ leBytes 8 r.result.toNat

/-- Writes a record at the TAIL of ring `q`, while the ring is enabled (R186): bytes 0x04 to 0x1F first, bytes 0x00 to 0x03 in a second posted write (R183).
DEDUCED: notes/assumptions/30.md. -/
def State.postRecord (s : State) (q : Nat) (r : Record) : State :=
  let c := s.cqs.get {} q
  let a := c.base + c.tail * 32
  let b := r.encode c.phase
  let t := (c.tail + 1) % 2 ^ c.sizeLog2
  if !c.enable then s
  else { s with
    hif := { s.hif with posted := s.hif.posted ++ [⟨a + 4, b.drop 4⟩, ⟨a, b.take 4⟩] }
    cqs := s.cqs.set {} q { c with tail := t, phase := if t = 0 then !c.phase else c.phase } }

/-- The completion of a descriptor: a signal at the core's counter, or one record (R162). In D3hot a record is owed (R411). The signal and the
status of a core reach its half also while that is asleep, without a wake.
DEDUCED: notes/assumptions/30.md. DESIGN CHOICE: notes/assumptions/121.md. -/
def State.complete (s : State) (iss : Issuer) (ctr : Option Nat) (b : Bytes) (status flags : Nat) (result : Word)
    (woke : Bool) (sqHead : Nat) : State :=
  match iss with
  | .core k =>
    let s1 := s.setCore k ((s.core k).collect status flags (dTag b))
    match ctr with
    | some c => s1.addCounter (k / 16) c 1
    | none => s1
  | .host q =>
    let r : Record := { status := status, flags := flags, woke := woke, typ := dType b, tag := dTag b, sq := q, sqHead := sqHead,
                        timestamp := s.tick, result := result }
    let cq := (s.sqs.get {} q).cq
    if s.hif.d3hot then { s with hif := { s.hif with owed := s.hif.owed ++ [(cq, r)] } } else s.postRecord cq r

/-! ### Units (Table 16.5) -/

def ucSTORE : Nat := 1
def ucPORT : Nat := 2
def ucENGINE : Nat := 3
def ucNEAR : Nat := 4
def ucBOARD : Nat := 5
def ucFAR : Nat := 6
def ucLINK : Nat := 7
def ucDOMAIN : Nat := 8
def ucSCRUB : Nat := 9

/-- Class and index of a UNIT. -/
def unitClass (u : Nat) : Nat := u / 4096
def unitIndex (u : Nat) : Nat := u % 4096

/-- Bank and word index of a store offset (R236). -/
def bankOf (off : Nat) : Nat := off / 64 % 32
def wordIndex (off : Nat) : Nat := off / 2048 * 8 + off % 64 / 8

/-- UNIT of a fault in the memory of a scrub unit. -/
def scrubUnit (u : Nat) : Nat :=
  if u < 512 then faultUnit ucSTORE u else if u < 520 then faultUnit ucLINK (u - 512) else if u < 524 then faultUnit ucENGINE (u - 520)
  else if u < 532 then faultUnit ucNEAR (u - 524) else if u < 548 then faultUnit ucBOARD (u - 532) else faultUnit ucFAR (u - 548)

/-- The physical pseudo-channels behind the logical ones of a stack, in order, as the last start left them (R253): the spare takes the
number of the lowest one out of use, and the others out of use are left out.
DESIGN CHOICE: notes/assumptions/96.md. -/
def Stack.channels (x : Stack) : List Nat :=
  let gone := (List.range 32).filter x.bad.contains
  (List.range 32).filterMap fun i =>
    if !x.bad.contains i then some i else if gone.head? = some i && !x.bad.contains 32 then some 32 else none

/-- The physical pseudo-channel behind stack offset `off` of stack `k` (R252).
DESIGN CHOICE: notes/assumptions/96.md. -/
def State.pseudoOf (s : State) (k off : Nat) : Nat :=
  let x : Stack := s.nearStacks.get {} k
  x.channels.getD (off / 256 % max 1 x.w) 0xFFFF

/-- PHYS of a fault in the memory of a scrub unit.
DEDUCED: notes/assumptions/74.md. -/
def State.scrubPhys (s : State) (u loc : Nat) : Nat :=
  if u < 512 then (s.physCluster u).getD 0xFFFF
  else if u < 520 then u - 512
  else if u < 524 then (s.engineMap.getD (u - 520) none).getD 0xFFFF
  else if u < 532 then s.pseudoOf (u - 524) (loc % 0x2000000000)
  else if u < 548 then u - 532 else u - 548

/-! ### Correctable errors (R360) -/

/-- Ranges whose maintenance code is not SEC-DED (R59): base, end, code. -/
def codedRanges (m : Option MemorySec) : List (Nat × Nat × Nat) :=
  match m with
  | none => []
  | some x => if x.mode = 0 then [] else (x.regions.filter (·.ecc != 0)).map fun g => (g.base, g.base + g.size, g.ecc)

/-- The code that applies at an address. -/
def codeAt (rs : List (Nat × Nat × Nat)) (a : Nat) : Nat := match rs.find? fun r => decide (r.1 ≤ a) && decide (a < r.2.1) with
  | some r => r.2.2
  | none => 0

/-- The code that protects local address `a` (R358): 0 SEC-DED, 1 DEC-BCH, 2 parity, by the mode and the region of the image in force. -/
def State.codeOf (s : State) (a : Nat) : Nat := codeAt (codedRanges (s.dmk.inForce.bind (·.memory))) a

/-- A correctable error met in the memory of scrub unit `u`: its record, with the code that protects the location (R358), and at a
cluster store CE_COUNT and CE_LAST_BANK (R250). Parity corrects none.
DESIGN CHOICE: notes/assumptions/46.md. -/
def State.correctedAt (s : State) (u loc detail : Nat) : State :=
  let code := if u < 524 then 0 else s.codeOf loc
  let s1 := s.logFault { kind := fkCE, subject := s.node, unit := scrubUnit u, location := loc } 1 (s.scrubPhys u loc) (detail / 4 * 4 + code)
  if code = 2 then s
  else if u < 512 then
    let c := s1.cluster u
    s1.setCluster u { c with ceCount := min (c.ceCount + 1) 0xFFFF, ceLastBank := bankOf loc }
  else s1

/-- Scrub unit and LOCATION of the code unit at local address `a`: a store offset in a cluster store, a local address elsewhere. A
code unit is 32 bytes under BCH and 8 bytes under SEC-DED (Table 16.1). -/
def State.codeUnit (s : State) (a : Nat) : Option (Nat × Nat) :=
  let g := if s.codeOf a = 1 then 32 else 8
  match winOf a with
  | (.store n, off) => some (n, off / g * g)
  | (.link t, _) => some (512 + t, a / g * g)
  | (.work e, _) => some (520 + e, a / g * g)
  | (.near k, _) => some (524 + k, a / g * g)
  | (.board k, _) => some (532 + k, a / g * g)
  | (.far p, _) => some (548 + p, a / g * g)
  | _ => none

/-- A correctable error that an ordinary access meets at local address `a`: logged, and the data returned are the corrected ones.
DESIGN CHOICE: notes/assumptions/46.md. -/
def State.corrected (s : State) (a detail : Nat) : State := match s.codeUnit a with
  | some (u, loc) => s.correctedAt u loc (detail % 2 ^ 63)
  | none => s

/-- The errors of `ces` (local address and DETAIL) that lie in [a, a + n), in their order.
DESIGN CHOICE: notes/assumptions/46.md. -/
def State.corrections (s : State) (ces : List (Nat × Nat)) (a n : Nat) : State :=
  (ces.filter fun e => decide (a ≤ e.1) && decide (e.1 < a + n)).foldl (fun s e => s.corrected e.1 e.2) s

/-- The errors of `ces` that a write of [a, a + n) meets: those in code units that it covers in part, which it reads, corrects and writes back
(R359, R245). -/
def State.writeCorrections (s : State) (ces : List (Nat × Nat)) (a n : Nat) : State :=
  (ces.filter fun e => let g := if s.codeOf e.1 = 1 then 32 else 8
    let u := e.1 / g * g
    (decide (u < a) || decide (a + n < u + g)) && decide (u < a + n) && decide (a < u + g)).foldl (fun s e => s.corrected e.1 e.2) s

/-! ### Free values -/

/-- Takes one free value's number.
DESIGN CHOICE: notes/assumptions/3.md. -/
def State.draw (s : State) : Nat × State := (s.draws, { s with draws := s.draws + 1 })

end Sys2Proof.Machine
end

