-- ==== Sys2Proof/Machine/Packets.lean ====
section
/-! DEFINITION. The fabric seen from a module's units (13): neighbours, requests, answers, the epoch check, and the descriptor
list with what an answer does to it. -/

namespace Sys2Proof.Machine

/-! ### Neighbours and lost partners (R269, R291) -/

def State.port (s : State) (p : Nat) : Port := s.ports.get {} p
def State.setPort (s : State) (p : Nat) (x : Port) : State := { s with ports := s.ports.set {} p x }

/-- The module that port `p` must reach (R269), none for an unused pair. -/
def Topology.neighbour (t : Topology) (p : Nat) : Option Nat :=
  let a := t.axisOfPort p
  if a = 0xFF then none
  else
    let n := t.size a
    let c := coord t.node a
    some (setCoord t.node a (if p % 2 = 0 then (c + 1) % n else (c + n - 1) % n))

/-- Ports of used pairs that lead to `node`. -/
def State.portsTo (s : State) (node : Nat) : List Nat := (List.range 8).filter fun p => s.topo.neighbour p == some node

/-- The partner is declared lost: every link to it is lost (R291). -/
def State.partnerLost (s : State) (node : Nat) : Bool :=
  let ps := s.portsTo node
  !ps.isEmpty && ps.all fun p => (s.port p).lost

/-! ### The descriptor list -/

def State.desc? (s : State) (id : Nat) : Option Desc := s.descs.find? (·.id == id)

/-- How far a descriptor is. -/
def State.work? (s : State) (id : Nat) : Option Work := (s.desc? id).map (fun d => d.work)

/-- Changes one descriptor. -/
def State.updDesc (s : State) (id : Nat) (f : Desc → Desc) : State :=
  { s with descs := s.descs.map fun d => if d.id = id then f d else d }

def State.setWork (s : State) (id : Nat) (w : Work) : State := s.updDesc id fun d => { d with work := w }

def State.dropDesc (s : State) (id : Nat) : State := { s with descs := s.descs.filter (·.id != id) }

/-- The earlier of two descriptor statuses by R130 and R242: NODE_LOST, EPOCH_STALE, then refusals, RETIRED_PAGE,
COMPLEMENT_MISMATCH, BANK_CONFLICT, OK. -/
def statusRank (st : Nat) : Nat :=
  if st = stOK then 0 else if st = stBANK_CONFLICT then 1 else if st = stCOMPLEMENT_MISMATCH then 2
  else if st = stRETIRED_PAGE then 3 else if st = stEPOCH_STALE then 5 else if st = stNODE_LOST then 6 else 4

def worse (a b : Nat) : Nat := if statusRank a < statusRank b then b else a

/-! ### The end of a tick (R9) -/

/-- Commands still waiting that belong to this tick. -/
def State.sameTick (s : State) : List Instr := s.pending.takeWhile fun c => match c with
  | .flannelTick _ => false
  | _ => true

/-- Rows that let a time run out: the last commands of their tick. -/
def Instr.timesOut (c : Instr) : Bool := match c with
  | .waitTimeout _ => true
  | .gatherDeadline _ => true
  | .solveDeadline _ => true
  | .permuteDrainTimeout _ => true
  | .finalDrainTimeout => true
  | .linkSilence _ => true
  | .transactionTimeout _ => true
  | .deltaReservationTimeout _ _ => true
  | .domainRetainTimeout _ => true
  | .domainOffTimeout _ => true
  | .wakeFail _ _ => true
  | _ => false

/-- A time that ends at tick `t` has run out: `t` has passed, or it is this tick and no other event of it is still to come (R9).
DEDUCED: notes/assumptions/63.md. -/
def State.runOut (s : State) (t : Nat) : Bool := s.overdue t || (decide (s.due t = s.tick) && s.sameTick.all Instr.timesOut)

/-! ### Sending -/

/-- A packet of this module, in the epoch given. -/
def State.packet (s : State) (dst kind epoch txn : Nat) (hdr data : Bytes) : Packet :=
  { dst := dst, src := s.node, kind := kind, epoch := epoch, txn := txn, hdr := hdr, data := data }

def State.send (s : State) (k : Packet) : State := { s with egress := s.egress ++ [k] }

/-- Sends a request and notes its transaction (R280).
DESIGN CHOICE: notes/assumptions/5.md. -/
def State.request (s : State) (use : TxnUse) (dst kind sub epoch : Nat) (hdr data : Bytes) (addr len off : Nat) : State :=
  let n := s.nextTxn
  let t : Txn := { txn := n, use := use, kind := kind, sub := sub, dst := dst, sent := s.tick, addr := addr, len := len, off := off }
  { s with nextTxn := (n + 1) % 2 ^ 32, txns := s.txns ++ [t] }.send (s.packet dst kind epoch n hdr data)

/-- The COLL header at payload 0x10 (Table 14.3): SUBKIND, SUBFLAGS, bytes 0x12 and 0x13, the subject and STEP. -/
def collHeader (sub flags b12 b13 subject step : Nat) : Bytes :=
  leBytes 1 sub ++ leBytes 1 flags ++ leBytes 1 b12 ++ leBytes 1 b13 ++ leBytes 4 subject ++ leBytes 8 step

/-- Cuts [a, a + len) at the 2 KiB boundaries of `a` (R280): offset and length of each packet. -/
def cutsGo : (fuel a off len : Nat) → List (Nat × Nat)
  | 0, _, _, _ => []
  | f + 1, a, off, len =>
    if len = 0 then [] else let n := min len (2048 - (a + off) % 2048); (off, n) :: cutsGo f a (off + n) (len - n)

def cuts (a len : Nat) : List (Nat × Nat) := cutsGo (len / 2048 + 2) a 0 len

/-- Runs of at most `n` items of `count`: first item and length of each. -/
def runsOf (n count : Nat) : List (Nat × Nat) := (List.range (ceilDiv count n)).map fun i => (i * n, min n (count - i * n))

/-- The same, with pieces of at most `m` bytes: packets that carry a header of their own before the bytes. -/
def cutsBy (m a len : Nat) : List (Nat × Nat) := (cuts a len).flatMap fun c => (runsOf m c.2).map fun r => (c.1 + r.1, r.2)

/-- Answers a request with an ACK, its status and flags (Table 13.6). -/
def State.answer (s : State) (k : Packet) (status flags : Nat) (resp : Nat := 0) (data : Bytes := []) : State :=
  s.send { dst := k.src, src := s.node, kind := kACK, epoch := k.epoch, txn := k.txn,
           hdr := opHeader k.addr data.length 0 status flags resp, data := data }

/-- Sends writes of `b` to global address `ga` for a descriptor. -/
def State.sendWrites (s : State) (use : TxnUse) (epoch ga : Nat) (b : Bytes) : State :=
  (cuts (gaLocal ga) b.length).foldl (fun s c =>
    s.request use (gaNode ga) kWRITE 0 epoch (opHeader (gaLocal ga + c.1) c.2 0 0 0 0) (slice b c.1 c.2) ga c.2 c.1) s

/-- Sends reads of `len` bytes at global address `src`; each answer goes to the global address `dst` at its offset. -/
def State.sendReads (s : State) (use : TxnUse) (epoch src dst len : Nat) : State :=
  (cuts (gaLocal src) len).foldl (fun s c =>
    s.request use (gaNode src) kREAD_REQ 0 epoch (opHeader (gaLocal src + c.1) c.2 0 0 0 0) [] (dst + c.1) c.2 c.1) s

/-! ### Movers' local writes and lost contests (R240, R241) -/

/-- The 8-byte words of a cluster store that a write of `len` bytes at `a` covers. -/
def wordsOf (a len : Nat) : List Nat := if len = 0 then [] else (List.range ((a + len - 1) / 8 - a / 8 + 1)).map fun i => (a / 8 + i) * 8

/-- The address lies in a cluster store, where alone writes can meet a contest (R240). -/
def inStore (a : Nat) : Bool := match (winOf a).1 with
  | .store _ => true
  | _ => false

/-- A data mover's write for descriptor `id`: the words that lose their first contest are kept for a retry (R241). -/
def State.moverWrite (s : State) (id a : Nat) (b : Bytes) : State :=
  match s.desc? id with
  | none => s.writeBytes a b
  | some d =>
    let ws := (wordsOf a b.length).filter fun w => d.lost.contains w && inStore w
    let s1 := ((List.range b.length).zip b).foldl (fun s x => if ws.contains ((a + x.1) / 8 * 8) then s else s.write8 (a + x.1) x.2) s
    let again := ws.map fun w =>
      let lo := max w a
      let hi := min (w + 8) (a + b.length)
      (lo, slice b (lo - a) (hi - lo), 1)
    let s2 := s1.updDesc id fun d => { d with lost := d.lost.filter (fun w => !ws.contains w), retry := d.retry ++ again }
    ws.foldl (fun s w => match (winOf w).1 with
      | .store n => let c := s.cluster n; s.setCluster n { c with lostWrites := min (c.lostWrites + 1) 0xFFFF }
      | _ => s) s2

/-- Counts `n` contests lost by a write of the word at `a`; 16 of them leave it unwritten (R241, Table 11.5). -/
def State.countLosses (s : State) (a n : Nat) : State := match (winOf a).1 with
  | .store k =>
    let c := s.cluster k
    s.setCluster k { c with
      lostWrites := min (c.lostWrites + min n 16) 0xFFFF
      droppedWords := if 16 ≤ n then min (c.droppedWords + 1) 0xFFFF else c.droppedWords }
  | _ => s

/-! ### Epoch check (R348, Table 15.4) -/

/-- What becomes of an RACC, BUCKET, DELTA or COLL packet that arrives with an epoch. `switchFirst`: the module completes its own
switch and then accepts it. -/
inductive EpochCheck where
  | accept
  | switchFirst
  | stale
  deriving DecidableEq, Repr

/-- The switch is held on the loss of a partner (R356): it neither proceeds nor completes. -/
def State.switchHeld (s : State) : Bool := s.descs.any fun d => dType d.bytes == tyPERMUTE && (match d.work with
  | .held _ _ => true
  | _ => false)

/-- DEDUCED: notes/assumptions/43.md. -/
def State.epochCheck (s : State) (kind epoch : Nat) : EpochCheck :=
  if epoch = s.epochNow then (if s.shard.begun && kind != kCOLL then .stale else .accept)
  else if s.shard.begun && !s.switchHeld && epoch == s.epochPending then .switchFirst
  else .stale

/-- A packet refused with EPOCH_STALE is counted (Table 15.7). -/
def State.countStale (s : State) : State :=
  { s with shard := { s.shard with staleRefused := min (s.shard.staleRefused + 1) 0xFFFF } }

/-- Takes a packet that was whole at this module off the list of arrivals. -/
def State.take (s : State) (k : Packet) : State := { s with arrived := s.arrived.erase k }

end Sys2Proof.Machine
end

