-- ==== Sys2Proof/Machine/Array.lean ====
section
/-! DEFINITION. The matrix array (05) and its accumulation into the spill target (06): resolution, checks, products, intervals and
writeback of a MATMUL. -/

namespace Sys2Proof.Machine

/-! ### Resolving the mode (R99) -/

/-- Effective mode (0 ACC16, 1 ACC32, 2 EXACT, 3 INT32), PASSES and interval in k steps. -/
structure MatCfg where
  mode : Nat
  passes : Nat
  interval : Nat
  deriving DecidableEq, Repr

def resolveMat (fmt acc passes spill : Nat) (nu : Numerics) : MatCfg :=
  let p := if fmt = 5 then (if passes = 0 then nu.passes else passes) else 1
  let m := if fmt = 4 then 3 else if acc = 0 then nu.accDefault else acc - 1
  let m' := if 1 < p then 1 else m
  let n := if spill = 0xFF then nu.spill else spill
  { mode := m', passes := p, interval := 2 ^ (n + 4) }

/-- Operand element width (Table 5.2). -/
def fmtWidth (fmt : Nat) : Nat := if fmt < 2 then 2 else if fmt < 5 then 1 else 4

/-- Output element width. -/
def outWidth (o : Nat) : Nat := if o = 1 then 2 else if o = 2 then 96 else 4

/-- The float format of an operand code (INT8 and FP32 parts aside). -/
def fmtFp (fmt : Nat) : Fp := match fmt with
  | 0 => .fp16
  | 1 => .bf16
  | 2 => .e4m3
  | 3 => .e5m2
  | _ => .fp32

/-- Accumulator format of Table 5.4 in ACC16 or ACC32. -/
def accFp (fmt mode : Nat) : Fp := if mode = 1 then .fp32 else if fmt = 1 ∨ fmt = 5 then .bf16 else .fp16

/-! ### Regions -/

/-- Byte ranges of `rows` rows of `len` bytes: a region is the bytes of its rows, not those between them.
DEDUCED: notes/assumptions/49.md. -/
def rowRanges (off stride rows len : Nat) : List (Nat × Nat) := (List.range rows).map fun r => (off + r * stride, len)

def rangesOverlap (a b : List (Nat × Nat)) : Bool := a.any fun x => b.any fun y => overlap x.1 x.2 y.1 y.2

/-- All ranges lie in a cluster store (offsets 0 to 0x005F_FFFF). -/
def rangesInStore (a : List (Nat × Nat)) : Bool := a.all fun x => decide (x.1 + x.2 ≤ storeSize)

/-- Length of one code-expanded block (R92). -/
def blockLen (code w : Nat) : Nat := if code = 1 then 2 * w + 16 else 4 * w + 32

/-- Bytes of one column of B. -/
def mmColLen (b : Bytes) : Nat :=
  if Mm.code b = 0 then Mm.k b * fmtWidth (Mm.fmt b) else ceilDiv (Mm.k b) 128 * blockLen (Mm.code b) (fmtWidth (Mm.fmt b))

def mmCfg (b : Bytes) (nu : Numerics) : MatCfg := resolveMat (Mm.fmt b) (Mm.acc b) (Mm.passes b) (Mm.spill b) nu

/-- R102: the spills go to the scratch cells. -/
def mmScratch (b : Bytes) (c : MatCfg) : Bool := c.mode == 2 && Mm.outFmt b == 0 && decide (c.interval < Mm.k b)

def mmA (b : Bytes) : List (Nat × Nat) := rowRanges (Mm.aOff b) (Mm.aStride b) (Mm.m b) (Mm.k b * fmtWidth (Mm.fmt b))
def mmB (b : Bytes) : List (Nat × Nat) := rowRanges (Mm.bOff b) (Mm.bStride b) (Mm.n b) (mmColLen b)
def mmC (b : Bytes) : List (Nat × Nat) := rowRanges (Mm.cOff b) (Mm.cStride b) (Mm.m b) (Mm.n b * outWidth (Mm.outFmt b))
def mmS (b : Bytes) (c : MatCfg) : List (Nat × Nat) := if mmScratch b c then [(Mm.scratch b, 1024 * 96)] else []

/-! ### Field checks (R100, Table 5.3), the presence of the cluster aside -/

def matmulCheck (b : Bytes) (nu : Numerics) : Nat :=
  let c := mmCfg b nu
  let f := Mm.fmt b
  let w := fmtWidth f
  let m16 (x : Nat) : Bool := x % 16 == 0
  let fields := zeros b 0x39 7 && m16 (Mm.aOff b) && m16 (Mm.bOff b) && m16 (Mm.cOff b) &&
    m16 (Mm.aStride b) && m16 (Mm.bStride b) && m16 (Mm.cStride b) &&
    decide (1 ≤ Mm.k b ∧ Mm.k b ≤ 262144) && (Mm.code b == 0 || Mm.k b % 128 == 0) &&
    decide (1 ≤ Mm.m b ∧ Mm.m b ≤ 32) && decide (1 ≤ Mm.n b ∧ Mm.n b ≤ 32) && decide (f ≤ 5) && decide (Mm.code b ≤ 2) &&
    decide (Mm.acc b ≤ 3) && decide (Mm.passes b ≤ 3) && (Mm.spill b == 0xFF || decide (Mm.spill b ≤ 4)) &&
    decide (Mm.outFmt b ≤ 3) && decide (Mm.outMode b ≤ 1) &&
    decide (Mm.k b * w ≤ Mm.aStride b) && decide (mmColLen b ≤ Mm.bStride b) &&
    decide (Mm.n b * outWidth (Mm.outFmt b) ≤ Mm.cStride b) && (!mmScratch b c || m16 (Mm.scratch b))
  if !fields then stBAD_DESCRIPTOR
  else if f = 5 ∧ Mm.code b ≠ 0 then stBAD_DESCRIPTOR
  else if f ≠ 5 ∧ Mm.passes b ≠ 0 then stBAD_DESCRIPTOR
  else if f = 4 ∧ (Mm.acc b ≠ 0 ∨ Mm.outFmt b ≠ 3) then stBAD_DESCRIPTOR
  else if f ≠ 4 ∧ Mm.outFmt b = 3 then stBAD_DESCRIPTOR
  else if Mm.outFmt b = 1 ∧ ¬(c.mode = 0 ∧ Mm.k b ≤ c.interval ∧ Mm.outMode b = 0) then stBAD_DESCRIPTOR
  else if Mm.outFmt b = 2 ∧ c.mode ≠ 2 then stBAD_DESCRIPTOR
  else if c.mode = 2 ∧ ¬(f = 0 ∨ f = 1 ∨ f = 5) then stUNSUPPORTED
  else if !(rangesInStore (mmA b) && rangesInStore (mmB b) && rangesInStore (mmC b) && rangesInStore (mmS b c)) then stBAD_DESCRIPTOR
  else if rangesOverlap (mmC b) (mmS b c) || rangesOverlap (mmC b) (mmA b ++ mmB b) || rangesOverlap (mmS b c) (mmA b ++ mmB b) then
    stBAD_DESCRIPTOR
  else stOK

/-! ### Operands and terms (R92, R101, R104, R106) -/

/-- Code of A[m, k]. -/
def mmElemA (s : State) (n : Nat) (b : Bytes) (m k : Nat) : Nat :=
  let w := fmtWidth (Mm.fmt b)
  leNat (s.readStore n (Mm.aOff b + m * Mm.aStride b + k * w) w)

/-- Code of B[k, col], expanded from its look-up table when the operand is code-expanded (R92, R93). -/
def mmElemB (s : State) (n : Nat) (b : Bytes) (k col : Nat) : Nat :=
  let w := fmtWidth (Mm.fmt b)
  let base := Mm.bOff b + col * Mm.bStride b
  if Mm.code b = 0 then leNat (s.readStore n (base + k * w) w)
  else
    let blk := base + k / 128 * blockLen (Mm.code b) w
    let j := k % 128
    let e := if Mm.code b = 1 then bits (leNat (s.readStore n (blk + 2 * w + j / 8) 1)) (j % 8) 1
             else bits (leNat (s.readStore n (blk + 4 * w + j / 4) 1)) (2 * (j % 4)) 2
    leNat (s.readStore n (blk + e * w) w)

/-- A part that is an infinity or a NaN. -/
def FVal.special : FVal → Bool
  | .fin _ _ _ => false
  | _ => true

/-- A cross term of R106: +0 when a part is not finite (R107). -/
def crossTerm (a b : FVal) : FVal × FVal := if a.special || b.special then (fzero, fzero) else (a, b)

/-- The factors of the terms of one k, in order (Table 5.7), and the flags of reading the operands. -/
def matTerms (fmt passes a b : Nat) : Flagged (List (FVal × FVal)) :=
  if fmt = 5 then
    let x := splitFp32 a
    let y := splitFp32 b
    let (a1, a2, a3) := x.1
    let (b1, b2, b3) := y.1
    let main := (a1, b1)
    let ts := if passes = 1 then [main]
      else if passes = 2 then [crossTerm a2 b1, crossTerm a1 b2, main]
      else [crossTerm a3 b1, crossTerm a2 b2, crossTerm a1 b3, crossTerm a2 b1, crossTerm a1 b2, main]
    (ts, x.2 ||| y.2)
  else ([((fmtFp fmt).value a, (fmtFp fmt).value b)], 0)

/-- acc ← round_acc(acc + round_acc(t)) (R104). -/
def accStep (f : Fp) (acc : Flagged Nat) (t : FVal × FVal) : Flagged Nat :=
  let p := fmul t.1 t.2
  let pr := f.round p.1
  let sum := fadd (f.value acc.1) (f.value pr.1)
  let r := f.round sum.1
  (r.1, acc.2 ||| p.2 ||| pr.2 ||| sum.2 ||| r.2)

/-- The partial of one output element over k in [lo, lo + len): a 16-bit or FP32 accumulator, starting from −0. -/
def partialFp (f : Fp) (fmt passes : Nat) (ab : Nat → Nat × Nat) (lo len : Nat) : Flagged Nat :=
  (List.range len).foldl (fun acc i =>
    let e := ab (lo + i)
    let ts := matTerms fmt passes e.1 e.2
    ts.1.foldl (accStep f) (acc.1, acc.2 ||| ts.2)) (f.sign true 0, 0)

/-- The exact partial: every term enters with no rounding; COUNT is the k indices of the interval (R120, R123). -/
def partialExact (fmt : Nat) (ab : Nat → Nat × Nat) (lo len : Nat) : Flagged Acc :=
  let r := (List.range len).foldl (fun (acc : Flagged Acc) i =>
    let e := ab (lo + i)
    let ts := matTerms fmt 1 e.1 e.2
    ts.1.foldl (fun (a : Flagged Acc) t => let v := a.1.term (fmul t.1 t.2).1; (v.1, a.2 ||| v.2)) (acc.1, acc.2 ||| ts.2)) ({}, 0)
  ({ r.1 with count := len }, r.2)

/-- The INT32 partial (R105). -/
def partialInt (ab : Nat → Nat × Nat) (lo len : Nat) : Nat :=
  wrap 32 ((List.range len).foldl (fun (a : Int) i => let e := ab (lo + i); a + signed 8 e.1 * signed 8 e.2) 0)

/-! ### Contributions to the target (R116, R119, Table 6.1) -/

/-- Row quarters: EXACT works 8 rows at a time (R104). -/
def mmQuarters (b : Bytes) (c : MatCfg) : Nat := if c.mode = 2 then ceilDiv (Mm.m b) 8 else 1

/-- Intervals J. -/
def mmIntervals (b : Bytes) (c : MatCfg) : Nat := ceilDiv (Mm.k b) c.interval

def mmContributions (b : Bytes) (c : MatCfg) : Nat := mmQuarters b c * mmIntervals b c

/-- Rows of quarter `q`. -/
def mmRows (b : Bytes) (c : MatCfg) (q : Nat) : List Nat :=
  if c.mode = 2 then (List.range (min 8 (Mm.m b - 8 * q))).map (8 * q + ·) else List.range (Mm.m b)

/-- An FP32 contribution to a store element: overwritten, or added by the bank adder. -/
def putFp32 (s : State) (n off v : Nat) (add : Bool) : Flagged State :=
  if add then
    let r := add32 (leNat (s.readStore n off 4)) v
    (s.writeStore n off (leBytes 4 r.1), r.2)
  else (s.writeStore n off (leBytes 4 v), 0)

/-- A cell contribution: overwritten, or a cell addition; none where the destination cell is damaged (R122). -/
def putCell (s : State) (n off : Nat) (a : Acc) (add : Bool) : Option State :=
  if add then
    match Acc.ofBytes (s.readStore n off 96) with
    | some d => some (s.writeStore n off (d.add a).bytes)
    | none => none
  else some (s.writeStore n off a.bytes)

/-- The partial of element (m, col) over interval `j`, cast for its target (Table 6.1): a code, an INT32 sum, or a cell's 96 bytes. -/
def mmPartial (b : Bytes) (c : MatCfg) (n j m col : Nat) (s : State) : Flagged Nat :=
  let lo := j * c.interval
  let len := min c.interval (Mm.k b - lo)
  let ab := fun k => (mmElemA s n b m k, mmElemB s n b k col)
  if c.mode = 3 then (partialInt ab lo len, 0)
  else if c.mode = 2 then let p := partialExact (Mm.fmt b) ab lo len; (leNat p.1.bytes, p.2)
  else
    let f := accFp (Mm.fmt b) c.mode
    let p := partialFp f (Mm.fmt b) c.passes ab lo len
    if Mm.outFmt b = 1 ∨ c.mode = 1 then p
    else let v := convert f .fp32 p.1; (v.1, p.2 ||| v.2)

/-- A cell held as the number its bytes make. -/
def cellOf (v : Nat) : Acc := (Acc.ofBytes (leBytes 96 v)).getD {}

/-- Partial `v` of element (m, col) over interval `j` enters the target: the flags raised, and whether a damaged cell was met. -/
def mmPut (b : Bytes) (c : MatCfg) (n j m col v : Nat) (s : State) : State × Nat × Bool :=
  let off := Mm.cOff b + m * Mm.cStride b + col * outWidth (Mm.outFmt b)
  let add := decide (Mm.outMode b = 1) || decide (0 < j)
  if c.mode = 3 then
    let old := if add then leNat (s.readStore n off 4) else 0
    (s.writeStore n off (leBytes 4 (old + v)), 0, false)
  else if c.mode = 2 then
    if Mm.outFmt b = 2 then
      match putCell s n off (cellOf v) add with
      | some t => (t, 0, false)
      | none => (s, 0, true)
    else if mmScratch b c then
      let cell := Mm.scratch b + (32 * m + col) * 96
      match putCell s n cell (cellOf v) (decide (0 < j)) with
      | none => (s, 0, true)
      | some t =>
        if j + 1 < mmIntervals b c then (t, 0, false)
        else match Acc.ofBytes (t.readStore n cell 96) with
          | none => (t, 0, true)
          | some a =>
            let r := a.readout
            let w := putFp32 t n off r.1 (decide (Mm.outMode b = 1))
            (w.1, r.2 ||| w.2, false)
    else
      let r := (cellOf v).readout
      let w := putFp32 s n off r.1 add
      (w.1, r.2 ||| w.2, false)
  else if Mm.outFmt b = 1 then (s.writeStore n off (leBytes 2 v), 0, false)
  else let w := putFp32 s n off v add; (w.1, w.2, false)

/-- The elements of contribution `i`, row by row. -/
def mmElements (b : Bytes) (c : MatCfg) (i : Nat) : List (Nat × Nat) :=
  (mmRows b c (i / mmIntervals b c)).flatMap fun m => (List.range (Mm.n b)).map fun col => (m, col)

/-- The products of contribution `i` of a MATMUL on cluster `n`: its partials, from A and B as they stand. -/
def mmProducts (b : Bytes) (c : MatCfg) (n i : Nat) (s : State) : Flagged (List Nat) :=
  let ps := (mmElements b c i).map fun e => mmPartial b c n (i % mmIntervals b c) e.1 e.2 s
  (ps.map (·.1), ps.foldl (fun a p => a ||| p.2) 0)

/-- The partials of contribution `i` enter the target. -/
def mmContribute (b : Bytes) (c : MatCfg) (n i : Nat) (ps : List Nat) (s : State) : State × Nat × Bool :=
  ((mmElements b c i).zip ps).foldl (fun (a : State × Nat × Bool) e =>
    let r := mmPut b c n (i % mmIntervals b c) e.1.1 e.1.2 e.2 a.1
    (r.1, a.2.1 ||| r.2.1, a.2.2 || r.2.2)) (s, 0, false)

/-- Contribution number `i` of a MATMUL on cluster `n`: the state, the flags raised, and whether a damaged cell was met. -/
def mmContribution (b : Bytes) (c : MatCfg) (n i : Nat) (s : State) : State × Nat × Bool :=
  let p := mmProducts b c n i s
  let r := mmContribute b c n i p.1 s
  (r.1, p.2 ||| r.2.1, r.2.2)

/-- Product cycles of `len` k steps in format `f` (R112, Table 5.5). -/
def cfgCycles (c : MatCfg) (f len : Nat) : Nat :=
  if c.mode = 2 then len
  else if c.passes = 2 then 3 * len
  else if c.passes = 3 then 6 * len
  else
    let narrow := decide (2 ≤ f ∧ f ≤ 4)
    let r := if c.mode = 3 then 2 else if c.mode = 1 then (if narrow then 2 else 1) else (if narrow then 4 else 2)
    ceilDiv len r

/-- Product cycles of one contribution. -/
def mmProductCycles (b : Bytes) (c : MatCfg) (i : Nat) : Nat :=
  cfgCycles c (Mm.fmt b) (min c.interval (Mm.k b - i % mmIntervals b c * c.interval))

/-! ### The queue of an array (R111, R113) -/

/-- Descriptors accepted by the array of cluster `n`, in order of acceptance. -/
def State.arrayQueue (s : State) (n : Nat) : List Desc := s.descs.filter (·.place == .array n)

/-- Store ranges that an accepted array descriptor writes: C and scratch, or the gather buffer (R113, R196). -/
def arrayWrites (d : Desc) : List (Nat × Nat) :=
  if dType d.bytes = tyMATMUL then let c := mmCfg d.bytes d.num; mmC d.bytes ++ mmS d.bytes c
  else [(Cg.bufOff d.bytes, 16384)]

def Work.ended : Work → Bool
  | .done _ _ _ => true
  | .emit _ _ _ _ => true
  | .held _ _ => true
  | _ => false

/-- The MATMUL that waits to start: the first of the queue not yet started. -/
def State.nextMatmul (s : State) (n : Nat) : Option Desc := (s.arrayQueue n).find? (·.work == .queued)

/-- A descriptor of the queue accepted before `d` still has its output to write, and that output overlaps what `d` reads. -/
def State.matHazard (s : State) (n : Nat) (d : Desc) : Bool :=
  let reads := mmA d.bytes ++ mmB d.bytes
  ((s.arrayQueue n).takeWhile (·.id != d.id)).any fun e => !e.work.ended && rangesOverlap reads (arrayWrites e)

/-- A started MATMUL whose products have not ended: some interval is still to end. -/
def Desc.inProducts (d : Desc) : Bool :=
  match d.work with
  | .mat k _ _ _ => decide (k < mmContributions d.bytes (mmCfg d.bytes d.num))
  | _ => false

/-- Product cycles of a started MATMUL from contribution `skip` beyond those ended on. -/
def Desc.cyclesLeft (d : Desc) (skip : Nat) : Nat :=
  match d.work with
  | .mat k _ _ _ =>
    let c := mmCfg d.bytes d.num
    (((List.range (mmContributions d.bytes c)).drop (k + skip)).map (mmProductCycles d.bytes c)).sum
  | _ => 0

/-- A MATMUL whose products have ended and whose writeback is in progress. -/
def Desc.inWriteback (d : Desc) : Bool :=
  match d.work with
  | .mat _ _ _ _ => !d.inProducts
  | _ => false

/-! ### Offloaded MATMULs in the queue (R217, R111, R112) -/

/-- Offloaded MATMULs of cluster `n`'s array, in order of acceptance. -/
def State.offQueue (s : State) (n : Nat) : List Offload := s.offloads.filter (·.n == n)

def Offload.queued (o : Offload) : Bool := o.left.isNone
def Offload.inProducts (o : Offload) : Bool := o.left.any (0 < ·)
def Offload.inWriteback (o : Offload) : Bool := o.left == some 0

/-- Spill intervals of an offloaded MATMUL. -/
def Offload.intervals (o : Offload) : Nat := ceilDiv o.k o.interval

/-- Product cycles of a started offloaded MATMUL from interval `skip` beyond those ended on: six for each step of K. -/
def Offload.cyclesLeft (o : Offload) (skip : Nat) : Nat := match o.left with
  | some l => 6 * (o.k - (o.intervals - l + skip) * o.interval)
  | none => 0

/-- The earliest accepted of an array's descriptors with `p` and offloaded MATMULs with `q`. -/
def State.firstOf (s : State) (n : Nat) (p : Desc → Bool) (q : Offload → Bool) : Option (Desc ⊕ Offload) :=
  match (s.arrayQueue n).find? p, (s.offQueue n).find? q with
  | some d, some o => if o.seq ≤ d.id then some (.inr o) else some (.inl d)
  | some d, none => some (.inl d)
  | none, some o => some (.inr o)
  | none, none => none

/-- Product cycles that the started MATMULs of an array have left, and those of the interval under way. -/
def State.productsLeft (s : State) (n : Nat) : Nat :=
  (((s.arrayQueue n).filter Desc.inProducts).map (·.cyclesLeft 0)).sum + (((s.offQueue n).filter Offload.inProducts).map (·.cyclesLeft 0)).sum

def State.intervalLeft (s : State) (n : Nat) : Nat := match s.firstOf n Desc.inProducts Offload.inProducts with
  | some (.inl d) => d.cyclesLeft 0 - d.cyclesLeft 1
  | some (.inr o) => o.cyclesLeft 0 - o.cyclesLeft 1
  | none => 0

/-- Beyond the interval under way, fewer than 24 product cycles of the started MATMULs remain: the next fetch may overlap them (R112). -/
def State.fetchOpen (s : State) (n : Nat) : Bool := decide (s.productsLeft n - s.intervalLeft n < 24)

/-- A writeback of the array is in progress. -/
def State.writingBack (s : State) (n : Nat) : Bool := (s.arrayQueue n).any Desc.inWriteback || (s.offQueue n).any Offload.inWriteback

/-- Changes the first element of a list that satisfies `p`. -/
def updateFirst {α : Type} (p : α → Bool) (f : α → α) : List α → List α
  | [] => []
  | x :: xs => if p x then f x :: xs else x :: updateFirst p f xs

/-- Changes the earliest offloaded MATMUL of an array that satisfies `p`. -/
def State.updOffload (s : State) (n : Nat) (p : Offload → Bool) (f : Offload → Offload) : State :=
  { s with offloads := updateFirst (fun o => o.n == n && p o) f s.offloads }

/-- Descriptors, and offloaded MATMULs, of a queue that have not started.
DEDUCED: notes/assumptions/26.md. -/
def State.queuedAt (s : State) (p : Place) : Nat :=
  (s.descs.filter fun d => d.place == p && d.work == .queued).length + (match p with
    | .array n => ((s.offQueue n).filter Offload.queued).length
    | _ => 0)

/-! ### Intervals and writebacks (R116, R119, R122) -/

/-- Array counts (Table 5.11). -/
def State.countArray (s : State) (n prod busy : Nat) : State :=
  let c := s.cluster n
  s.setCluster n { c with productCycles := min (c.productCycles + prod) 0xFFFFFFFF, busyCycles := min (c.busyCycles + busy) 0xFFFFFFFF }

/-- An interval of `d` ends: its contribution enters the target, the last one's partials move into the spill buffer (R116, R119). The words of A
and B that belong to the interval are read at its end.
DESIGN CHOICE: notes/assumptions/112.md. -/
def State.intervalEnd (s : State) (n : Nat) (d : Desc) (busy : Nat) : State :=
  match d.work with
  | .mat k fl dm _ =>
    let c := mmCfg d.bytes d.num
    let prod := mmProductCycles d.bytes c k
    if k + 1 < mmContributions d.bytes c then
      let r := mmContribution d.bytes c n k s
      (r.1.countArray n prod busy).setWork d.id (.mat (k + 1) (fl ||| r.2.1) (dm || r.2.2) [])
    else
      let p := mmProducts d.bytes c n k s
      (s.countArray n prod busy).setWork d.id (.mat (k + 1) (fl ||| p.2) dm p.1)
  | _ => s

/-- The writeback of `d` ends: the last contribution has entered the target and the MATMUL is owed its completion (R112, R122). DONE_COUNT and
FLAGS_LAST follow such an end alone, not a MATMUL that completes without having run.
DESIGN CHOICE: notes/assumptions/100.md. -/
def State.writebackEnd (s : State) (n : Nat) (d : Desc) (busy : Nat) : State :=
  match d.work with
  | .mat _ fl dm ps =>
    let c := mmCfg d.bytes d.num
    let r := mmContribute d.bytes c n (mmContributions d.bytes c - 1) ps s
    let s1 := r.1.countArray n 0 busy
    let fl' := fl ||| r.2.1
    let x := s1.cluster n
    (s1.setCluster n { x with arrFlags := fl', arrDone := (x.arrDone + 1) % 2 ^ 24 }).setWork d.id
      (.done (if dm || r.2.2 then stCOMPLEMENT_MISMATCH else stOK) fl' 0)
  | _ => s

/-- An interval of an offloaded MATMUL ends. -/
def State.offIntervalEnd (s : State) (n : Nat) (o : Offload) (busy : Nat) : State :=
  (s.updOffload n Offload.inProducts fun o => { o with left := o.left.map (· - 1) }).countArray n (o.cyclesLeft 0 - o.cyclesLeft 1) busy

end Sys2Proof.Machine
end

