-- ==== Sys2Proof/Machine/Factors.lean ====
section
/-! DEFINITION. Resident factors in the SERGE region (10): their layout, headers and creation, delta rings and the folding of delta
packets. -/

namespace Sys2Proof.Machine

/-! ### Layout (R203, R204, Table 10.2) -/

def controlSize : Nat := 65536
def ringSize : Nat := 4194304

/-- Block records of a factor of dimension `n`. -/
def blockCount (n : Nat) : Nat := n / 64 * (n / 64 + 1) / 2
def blocksSize (n : Nat) : Nat := roundUp (blockCount n * 32832) 65536
def slotSize (n : Nat) : Nat := roundUp (4 * n * n) 65536
def factorSize (n : Nat) : Nat := controlSize + ringSize + blocksSize n + 2 * slotSize n

/-- Scratch of engine `k`. -/
def scratchSize (fs : List FactorRec) (k : Nat) : Nat :=
  let m := (fs.filter fun r => r.engine == k || r.engine == 0xFF).foldl (fun a r => max a r.dim) 0
  32 * m * m

/-- The resident footprint of R64. -/
def footprint (fs : List FactorRec) : Nat :=
  fs.foldl (fun a r => a + factorSize r.dim) 0 + ((List.range 4).map (scratchSize fs)).foldl (· + ·) 0

/-- Kind codes of MEMORY regions (Table 3.6). -/
def rkSTASH : Nat := 1
def rkSTASH_OVERFLOW : Nat := 2
def rkREDUCTION : Nat := 3
def rkOPTIMISER : Nat := 4
def rkSERGE : Nat := 5
def rkGENERAL : Nat := 6

/-- The SERGE region's base. -/
def State.sergeBase (s : State) : Nat := match s.region rkSERGE with
  | some r => r.base
  | none => 0

def State.factorRecs (s : State) : List FactorRec := match s.sergeSec with
  | some x => x.factors
  | none => []

def State.factorRec (s : State) (f : Nat) : Option FactorRec := s.factorRecs[f]?

/-- DIM of factor `f`. -/
def State.dim (s : State) (f : Nat) : Nat := match s.factorRec f with
  | some r => r.dim
  | none => 0

/-- Address of a factor's structure. -/
def State.factorBase (s : State) (f : Nat) : Nat :=
  s.sergeBase + (s.factorRecs.take f).foldl (fun a r => a + factorSize r.dim) 0

/-- Headers of root slot `k`. -/
def State.slotHeader (s : State) (f k : Nat) : Nat := s.factorBase f + 0x40 + 0x40 * k
def State.ringBase (s : State) (f : Nat) : Nat := s.factorBase f + controlSize
def State.blocksBase (s : State) (f : Nat) : Nat := s.ringBase f + ringSize
def State.slotBase (s : State) (f k : Nat) : Nat := s.blocksBase f + blocksSize (s.dim f) + k * slotSize (s.dim f)

/-- Record number of block (a, b), a ≤ b, among N block rows. -/
def blockRec (N a b : Nat) : Nat := a * N - a * (a - 1) / 2 + (b - a)
def State.blockBase (s : State) (f a b : Nat) : Nat := s.blocksBase f + blockRec (s.dim f / 64) a b * 32832

/-! ### Factor header (Table 10.3) -/

def State.fhActive (s : State) (f : Nat) : Nat := s.readNat (s.factorBase f + 4) 1
def State.fhBusy (s : State) (f : Nat) : Bool := s.readNat (s.factorBase f + 5) 1 == 1
def State.fhSeq (s : State) (f : Nat) : Nat := s.readNat (s.factorBase f + 0x10) 8

/-- The factor's header and its slots' headers lie on a retired page, whose accesses are refused (R266). -/
def State.controlRetired (s : State) (f : Nat) : Bool := s.touchesRetired (s.factorBase f) controlSize

/-- Writes bytes 0x00 to 0x0F of the header: DIM, ACTIVE, BUSY and their complement. -/
def State.setHeader (s : State) (f active : Nat) (busy : Bool) : State :=
  let w := s.dim f + active * 2 ^ 32 + b2n busy * 2 ^ 40
  if s.controlRetired f then s
  else (s.writeNat (s.factorBase f) 8 w).writeNat (s.factorBase f + 8) 8 (2 ^ 64 - 1 - w)

/-- Adds 1 to a header count of `len` bytes at `off`, which wraps.
DESIGN CHOICE: notes/assumptions/111.md. -/
def State.bumpHeader (s : State) (f off len : Nat) : State :=
  if s.controlRetired f then s
  else s.writeNat (s.factorBase f + off) len (s.readNat (s.factorBase f + off) len + 1)

def State.factor (s : State) (f : Nat) : Factor := s.factors.get {} f
def State.setFactor (s : State) (f : Nat) (x : Factor) : State := { s with factors := s.factors.set {} f x }

/-- Where the scratch area of logical engine `k` lies: behind the factors, in engine order (R203). -/
def State.scratchBase (s : State) (k : Nat) : Nat :=
  s.sergeBase + s.factorRecs.foldl (fun a r => a + factorSize r.dim) 0 + ((List.range k).map (scratchSize s.factorRecs)).sum

/-- Creates a factor's structure (R205): every block holds LAST_STEP 0 and its complement (R204). -/
def State.createFactor (s : State) (f : Nat) : State :=
  let n := s.dim f
  let s1 := (s.zeroRange (s.factorBase f) controlSize).zeroRange (s.blocksBase f) (blocksSize n + 2 * slotSize n)
  let s2 := (List.range (blockCount n)).foldl (fun s r => s.writeNat (s.blocksBase f + r * 32832 + 8) 8 (2 ^ 64 - 1)) s1
  (s2.setFactor f {}).setHeader f 0xFF false

/-! ### The delta ring (R198, R282) -/

/-- Bytes of a ring in use, reservations included. -/
def Factor.used (x : Factor) : Nat :=
  x.ring.foldl (fun a p => a + p.bytes.length) 0 + x.reserved.foldl (fun a r => a + r.len) 0

def Factor.hasRoom (x : Factor) (len : Nat) : Bool := decide (x.used + len ≤ ringSize)

/-- The pieces of ring memory that a packet takes from offset `t` on: address, and the packet's bytes there. -/
def State.ringPieces (s : State) (f t : Nat) (p : Bytes) : List (Nat × Bytes) :=
  let room := ringSize - t
  if p.length ≤ room then [(s.ringBase f + t, p)] else [(s.ringBase f + t, p.take room), (s.ringBase f, p.drop room)]

/-- Domains of a factor's delta ring. -/
def State.ringDomains (s : State) (f : Nat) : List Nat := if (s.factorRec f).isSome then s.rangeDomains (s.ringBase f) ringSize else []

/-- The next packet's place in the ring lies on a retired page (R266). -/
def State.ringRetired (s : State) (f : Nat) (p : Bytes) : Bool :=
  (s.ringPieces f (s.factor f).tail p).any fun x => s.touchesRetired x.1 x.2.length

/-- A whole packet enters the ring, behind the packets before it (R203, R205).
DEDUCED: notes/assumptions/39.md. -/
def State.enterRing (s : State) (f : Nat) (p : Bytes) : State :=
  let x := s.factor f
  ((s.ringPieces f x.tail p).foldl (fun s e => s.writeBytes e.1 e.2) s).setFactor f
    { x with ring := x.ring ++ [{ entered := s.nextId, bytes := p }], tail := (x.tail + p.length) % ringSize }

/-- The destination checks of Table 9.2 on a delta packet's header. -/
def State.deltaRecordOk (s : State) (f side col : Nat) : Bool := match s.factorRec f with
  | some r => r.side == side && decide (col < r.dim / 64)
  | none => false

/-! ### Folding (R206 to R208) -/

/-- pow(β, a) by binary exponentiation from the most significant bit down, each step rounded. -/
def pow64Go (beta a : Nat) : (i : Nat) → Flagged Nat → Flagged Nat
  | 0, r => r
  | i + 1, r =>
    let q := mul64 r.1 r.1
    let t := mul64 q.1 beta
    pow64Go beta a i (if a.testBit i then (t.1, r.2 ||| q.2 ||| t.2) else (q.1, r.2 ||| q.2))

/-- The FP64 code of 1. -/
def one64 : Nat := 0x3FF0000000000000

def pow64 (beta a : Nat) : Flagged Nat := pow64Go beta a (bitLen a) (one64, 0)

/-- BETA widened to FP64 (R79: a subnormal BETA is flushed), and the weight w. -/
def betaOf (r : FactorRec) : Flagged Nat := convert .fp32 .fp64 r.beta.toNat
def weightOf (beta : Nat) : Flagged Nat := if lt64 beta one64 then sub64 one64 beta else (one64, 0)

/-- Entry e = 64 i + j of a block. -/
def State.blockEntry (s : State) (base e : Nat) : Nat := s.readNat (base + 0x40 + e * 8) 8

/-- The bitmap's set bits, in order. -/
def deltaBits (p : Bytes) : List Nat := (List.range 4096).filter fun e => (field p (0x40 + e / 8) 1).testBit (e % 8)

/-- Multiplies every entry of a block by `d`. -/
def State.decayBlock (s : State) (base d : Nat) : Flagged State :=
  (List.range 4096).foldl (fun acc e =>
    let v := mul64 d (acc.1.blockEntry base e)
    (acc.1.writeNat (base + 0x40 + e * 8) 8 v.1, acc.2 ||| v.2)) (s, 0)

/-- Adds the changed entries of packet `p`, weighted by `u`, to a block. -/
def State.addEntries (s : State) (base u : Nat) (p : Bytes) : Flagged State :=
  let vs := deltaBits p
  ((List.range vs.length).zip vs).foldl (fun acc x =>
    let v := convert .fp32 .fp64 (field p (0x240 + 4 * x.1) 4)
    let m := mul64 u v.1
    let t := add64 (acc.1.blockEntry base x.2) m.1
    (acc.1.writeNat (base + 0x40 + x.2 * 8) 8 t.1, acc.2 ||| v.2 ||| m.2 ||| t.2)) (s, 0)

/-- Folds packet `p` into its block of factor `f`, with the flags that this raises. The accesses to a block on a retired page are refused, and
the packet is left unfolded (R266).
DEDUCED: notes/assumptions/39.md. -/
def State.foldPacket (s : State) (f : Nat) (r : FactorRec) (p : Bytes) : Flagged State :=
  let base := s.blockBase f (field p 4 2) (field p 6 2)
  if (field p 3 1).testBit 1 then (s.bumpHeader f 0x24 4, 0)
  else if s.touchesRetired base 32832 then (s, 0)
  else
    let step := field p 0x10 8
    let last := s.readNat base 8
    let beta := betaOf r
    let w := weightOf beta.1
    let su : State × Nat × Nat :=
      if last ≤ step then
        let d := pow64 beta.1 (step - last)
        let t := s.decayBlock base d.1
        ((t.1.writeNat base 8 step).writeNat (base + 8) 8 (2 ^ 64 - 1 - step), w.1, d.2 ||| t.2)
      else
        let d := pow64 beta.1 (last - step)
        let u := mul64 w.1 d.1
        (s.bumpHeader f 0x20 4, u.1, d.2 ||| u.2)
    let t := su.1.addEntries base su.2.1 p
    (t.1.bumpHeader f 0x18 8, beta.2 ||| w.2 ||| su.2.2 ||| t.2)

/-- Folds the oldest packet of factor `f`'s ring and frees its space (R207). -/
def State.foldNext (s : State) (f : Nat) : Flagged State :=
  match s.factorRec f, (s.factor f).ring with
  | some r, p :: rest =>
    let t := s.foldPacket f r p.bytes
    (t.1.setFactor f { s.factor f with ring := rest }, t.2)
  | _, _ => (s, 0)

/-- Folds every packet that entered before descriptor number `id` was accepted. -/
def State.foldBefore (s : State) (f id : Nat) : (fuel : Nat) → Flagged State
  | 0 => (s, 0)
  | k + 1 => match (s.factor f).ring with
    | p :: _ =>
      if p.entered ≤ id then
        let t := s.foldNext f
        let u := State.foldBefore t.1 f id k
        (u.1, t.2 ||| u.2)
      else (s, 0)
    | [] => (s, 0)

/-- Engines that are on, lowest first. -/
def State.enginesOn (s : State) : List Nat := (List.range 4).filter fun e => s.enginePresent e && s.domOn (40 + e)

/-- The engine that folds factor `f` (R208), if any is on.
DEDUCED: notes/assumptions/39.md. -/
def State.foldEngine (s : State) (f : Nat) (r : FactorRec) : Option Nat :=
  let on := s.enginesOn
  if on.contains r.engine then some r.engine else if on.isEmpty then none else some (f % on.length)

/-- A SOLVE of factor `f` accepted before packet `p` entered its ring has not read the factor yet.
DEDUCED: notes/assumptions/39.md. -/
def State.foldBarred (s : State) (f : Nat) (p : RingPkt) : Bool :=
  s.descs.any fun x => dType x.bytes == tySOLVE && So.factor x.bytes == f && x.work == .queued && decide (x.id < p.entered)

end Sys2Proof.Machine
end

