-- ==== Sys2Proof/Machine/Curv.lean ====
section
/-! DEFINITION. Gathering curvature (09): checks, the forming of a block in its gather buffer and the delta packet. -/

namespace Sys2Proof.Machine

def cgEmit (b : Bytes) : Bool := (Cg.ctrl b).testBit 0
def cgFirst (b : Bytes) : Bool := (Cg.ctrl b).testBit 1
def cgDiag (b : Bytes) : Bool := Cg.row b == Cg.col b

/-- Effective mode, passes and interval (R193). -/
def cgCfg (b : Bytes) (nu : Numerics) : MatCfg := resolveMat (Cg.fmt b) (Cg.acc b) (Cg.passes b) (Cg.spill b) nu

/-- G of R192. -/
def cgGap (b : Bytes) : Nat := if Cg.colGap b = 0 then 64 * (Cg.col b - Cg.row b) else Cg.colGap b

/-- Byte ranges of X that the block reads. -/
def cgX (b : Bytes) : List (Nat × Nat) :=
  let w := fmtWidth (Cg.fmt b)
  let rows (c : Nat) := rowRanges (Cg.xOff b + c * w) (Cg.xStride b) (Cg.rows b) (64 * w)
  if cgDiag b then rows 0 else rows 0 ++ rows (cgGap b)

/-- A finite binary32 code. -/
def finite32 (c : Nat) : Bool := bits c 23 8 != 255

/-- Table 9.2, the presence of the cluster included; the destination's rows when DEST is this module. -/
def curvCheck (s : State) (n : Nat) (b : Bytes) : Nat :=
  let c := cgCfg b s.numerics
  let f := Cg.fmt b
  let gapOk := if cgDiag b then Cg.colGap b == 0 else Cg.colGap b == 0 || decide (64 ≤ Cg.colGap b)
  let fields := Cg.xOff b % 16 == 0 && Cg.xStride b % 16 == 0 && Cg.bufOff b % 64 == 0 && decide (Cg.rows b ≤ 262144) &&
    (Cg.rows b != 0 || cgEmit b) && decide (Cg.row b ≤ 511) && decide (Cg.row b ≤ Cg.col b) && decide (Cg.col b ≤ 511) &&
    decide (Cg.factor b ≤ 4095) && decide (Cg.side b ≤ 1) && (f == 0 || f == 1 || f == 5) && decide (Cg.acc b ≤ 2) &&
    decide (Cg.passes b ≤ 3) && (Cg.passes b == 0 || f == 5) && (Cg.spill b == 0xFF || decide (Cg.spill b ≤ 4)) &&
    decide (Cg.ctrl b < 4) && gapOk && finite32 (Cg.scale b) && bits (Cg.scale b) 0 31 != 0 && finite32 (Cg.drop b) &&
    (!(Cg.drop b).testBit 31 || bits (Cg.drop b) 0 31 == 0)
  let buf := [(Cg.bufOff b, 16384)]
  if !fields then stBAD_DESCRIPTOR
  else if c.mode = 2 then stBAD_DESCRIPTOR
  else if !(rangesInStore (cgX b) && rangesInStore buf) || rangesOverlap buf (cgX b) then stBAD_DESCRIPTOR
  else if !s.nodeOk (Cg.dest b) then stBAD_DESCRIPTOR
  else if !s.clusterPresent n then stUNSUPPORTED
  else if s.isSelf (Cg.dest b) && !s.deltaRecordOk (Cg.factor b) (Cg.side b) (Cg.col b) then stBAD_DESCRIPTOR
  else if cgEmit b && s.isSelf (Cg.dest b) && s.epochCheck kDELTA s.epochNow != .accept then stEPOCH_STALE
  else stOK

/-! ### Forming a block (R195, R196) -/

/-- Tiles in order. -/
def cgTiles (b : Bytes) : List (Nat × Nat) := if cgDiag b then [(0, 0), (0, 1), (1, 1)] else [(0, 0), (0, 1), (1, 0), (1, 1)]

/-- Code of X at token t: block row column i, or block column column j. -/
def cgElem (s : State) (n : Nat) (b : Bytes) (t col : Nat) : Nat :=
  let w := fmtWidth (Cg.fmt b)
  leNat (s.readStore n (Cg.xOff b + t * Cg.xStride b + col * w) w)

/-- Column in X of block column j. -/
def cgCol (b : Bytes) (j : Nat) : Nat := if cgDiag b then j else cgGap b + j

/-- One contribution of interval `v` to entry (i, j); entries below the diagonal are computed and discarded. -/
def cgEntry (b : Bytes) (c : MatCfg) (n v i j : Nat) (s : State) : Flagged State :=
  let lo := v * c.interval
  let len := min c.interval (Cg.rows b - lo)
  let f := accFp (Cg.fmt b) c.mode
  let p := partialFp f (Cg.fmt b) c.passes (fun t => (cgElem s n b t i, cgElem s n b t (cgCol b j))) lo len
  let x := if c.mode = 1 then (p.1, 0) else convert f .fp32 p.1
  if cgDiag b ∧ j < i then (s, p.2 ||| x.2)
  else
    let w := putFp32 s n (Cg.bufOff b + (64 * i + j) * 4) x.1 (!(cgFirst b && v == 0))
    (w.1, p.2 ||| x.2 ||| w.2)

/-- The whole block. -/
def cgBlock (b : Bytes) (c : MatCfg) (n : Nat) (s : State) : Flagged State :=
  (cgTiles b).foldl (fun acc t =>
    (List.range (ceilDiv (Cg.rows b) c.interval)).foldl (fun acc v =>
      (List.range 1024).foldl (fun (a : Flagged State) e =>
        let r := cgEntry b c n v (32 * t.1 + e / 32) (32 * t.2 + e % 32) a.1
        (r.1, a.2 ||| r.2)) acc) acc) (s, 0)

/-! ### The delta packet (R197, Table 9.3) -/

/-- The changed entries: index and value, in order, with the flags of the roundings. -/
def cgChanged (s : State) (n : Nat) (b : Bytes) : Flagged (List (Nat × Nat)) :=
  let es := (List.range 4096).filter fun e => !cgDiag b || decide (e / 64 ≤ e % 64)
  let vs := es.map fun e => (e, op2 .fp32 .fp32 fmul (Cg.scale b) (leNat (s.readStore n (Cg.bufOff b + e * 4) 4)))
  let drop := bits (Cg.drop b) 0 31
  let changed (v : Nat) : Bool := !finite32 v || flt (Fp.fp32.value drop) (Fp.fp32.value (bits v 0 31))
  ((vs.filter fun x => changed x.2.1).map fun x => (x.1, x.2.1), vs.foldl (fun a x => a ||| x.2.2) 0)

/-- The bitmap of 512 bytes. -/
def bitmapOf (es : List Nat) : Bytes := leBytes 512 (es.foldl (fun a e => a + 2 ^ e) 0)

def cgPacket (b : Bytes) (epoch source tokens flags : Nat) (vs : List (Nat × Nat)) : Bytes :=
  let len := roundUp (0x240 + 4 * vs.length) 64
  let fl := b2n (cgDiag b) + 2 * b2n (vs.any fun x => !finite32 x.2)
  let w0 := Cg.factor b + Cg.side b * 2 ^ 16 + fl * 2 ^ 24 + Cg.row b * 2 ^ 32 + Cg.col b * 2 ^ 48
  slice (leBytes 8 w0 ++ leBytes 8 (2 ^ 64 - 1 - w0) ++ leBytes 8 (Cg.step b) ++ leBytes 4 epoch ++ leBytes 2 source ++
    leBytes 2 vs.length ++ leBytes 4 tokens ++ leBytes 4 len ++ leBytes 1 flags ++ leBytes 23 0 ++
    bitmapOf (vs.map (·.1)) ++ (vs.map fun x => leBytes 4 x.2).flatten) 0 len

/-- RESULT of a CURVGATHER whose packet is `p` (R200). -/
def cgResult (p : Bytes) : Word := BitVec.ofNat 64 (field p 0x1E 2 + field p 0x20 4 * 2 ^ 32)

/-- Sets the gather buffer to +0 in every word of the block's layout (R199). -/
def State.clearBuffer (s : State) (n : Nat) (b : Bytes) : State :=
  let es := (List.range 4096).filter fun e => !cgDiag b || decide (e / 64 ≤ e % 64)
  let s1 := es.foldl (fun s e => s.writeStore n (Cg.bufOff b + e * 4) (leBytes 4 0)) s
  let c := s1.cluster n
  s1.setCluster n { c with tokens := c.tokens.erase (Cg.bufOff b) }

/-- The packet is accepted: the buffer is cleared and the completion is owed. -/
def State.curvAccepted (s : State) (d : Desc) (p : Bytes) (flags : Nat) : State :=
  (s.clearBuffer (dTarget d.bytes) d.bytes).setWork d.id (.done stOK flags (cgResult p))

/-- Sends segment `i` of a delta packet to a remote DEST (R282). -/
def State.sendSegment (s : State) (d : Desc) (p : Bytes) (i : Nat) : State :=
  let off := 2048 * i
  let seg := (p.drop off).take 2048
  s.request (.desc d.id) (Cg.dest d.bytes) kDELTA 0 d.epoch (opHeader off seg.length 0 0 0 0) seg 0 seg.length off

/-- Emits a packet for this module's own ring: it enters when the epoch is current, the tier is on and the ring has room; else it
waits (R198). -/
def State.emitLocal (s : State) (d : Desc) (p : Bytes) (flags : Nat) : State :=
  let f := field p 0 2
  let need := (s.ringDomains f).filter fun x => !s.domOn x
  if s.epochCheck kDELTA d.epoch ≠ .accept then s.setWork d.id (.done stEPOCH_STALE flags (cgResult p))
  else if !s.deltaRecordOk f (field p 2 1) (field p 6 2) then s.setWork d.id (.done stBAD_DESCRIPTOR flags (cgResult p))
  else if !need.isEmpty then (s.wakeAll need).setWork d.id (.emit p 0 none flags)
  else if !(s.factor f).hasRoom p.length then s.setWork d.id (.emit p 0 none flags)
  else if s.ringRetired f p then s.setWork d.id (.done stRETIRED_PAGE flags (cgResult p))
  else (s.enterRing f p).curvAccepted d p flags

/-- Runs a CURVGATHER on its cluster: the block, and with EMIT its packet. Its product cycles count at the array (R115, R201). -/
def State.runCurv (s : State) (d : Desc) : State :=
  let b := d.bytes
  let n := dTarget b
  let r := cgBlock b (cgCfg b d.num) n s
  let cfg := cgCfg b d.num
  let r1 := r.1.countArray n ((cgTiles b).length * cfgCycles cfg (Cg.fmt b) (Cg.rows b)) 0
  let c := r1.cluster n
  let before := if cgFirst b && Cg.rows b != 0 then 0 else c.tokens.get 0 (Cg.bufOff b)
  let s1 := r1.setCluster n { c with tokens := c.tokens.set 0 (Cg.bufOff b) (before + Cg.rows b) }
  if !cgEmit b then s1.setWork d.id (.done stOK r.2 0)
  else
    let v := cgChanged s1 n b
    let flags := r.2 ||| v.2
    let p := cgPacket b d.epoch s.node (before + Cg.rows b) flags v.1
    if s.isSelf (Cg.dest b) then s1.emitLocal d p flags
    else (s1.sendSegment d p 0).setWork d.id (.emit p 0 none flags)

/-- Packets held for the module's own rings are tried again. -/
def State.retryLocal (s : State) : State :=
  s.descs.foldl (fun s d => match d.work with
    | .emit p _ _ fl => if s.isSelf (Cg.dest d.bytes) then s.emitLocal d p fl else s
    | _ => s) s

end Sys2Proof.Machine
end

