-- ==== Sys2Proof/Machine/Calico.lean ====
section
/-! DEFINITION. The Calico table (02): the snapshot that a publication takes, and the bytes that a published table shows. -/

namespace Sys2Proof.Machine

/-! ### The snapshot -/

/-- Record of logical cluster `n` (Table 2.5): PHYS_CLUSTER, STATE, SPARE_CORE_FOR, MARKS, REMAP_USED.
DEDUCED: notes/assumptions/45.md. -/
def State.clusterRecord (s : State) (n : Nat) : Nat × Nat × Nat × Nat × Nat :=
  match s.physCluster n with
  | none => (0xFFFF, 2, 0xFF, 0, 0)
  | some p =>
    let core := SMap.find? s.spareCores n
    let marked := s.flash.marks.cores.any fun c => c.1 == p && core != some c.2
    let mine := s.flash.remaps.filter (·.1 == p)
    let used := mine.foldl (fun a r => max a (mine.filter (·.2.1 == r.2.1)).length) 0
    (p, b2n (p != defaultPhys n), core.getD 0xFF, b2n (s.clusterFailed n) + 2 * b2n marked, used)

/-- The record of a cluster on its default silicon with nothing marked. -/
def clusterRecordDefault (n : Nat) : Nat × Nat × Nat × Nat × Nat := (defaultPhys n, 0, 0xFF, 0, 0)

/-- Physical lane that carries logical lane `i` outside a rotation (R39); the identity before a port has trained.
DEDUCED: notes/assumptions/45.md. -/
def Port.lanePhys (p : Port) (i : Nat) : Nat :=
  match p.rotation with
  | some r => if r.logical = i then r.old else look
  | none => look
where
  look : Nat := if p.lanes.isEmpty then i else
    match List.find? (fun (e : Nat × Lane) => (e.2.st == 0 || e.2.st == 2) && e.2.logical == i) p.lanes with
    | some e => e.1
    | none => 0xFF

/-- Lanes that have failed since the port last trained. -/
def Port.failedLanes (p : Port) : Nat := (List.filter (fun (e : Nat × Lane) => e.2.st == 3) p.lanes).length

/-- SPARES_FREE (Table 2.6, R296): healthy lanes beyond those in use, at most 2. Of a port lost with fewer than 8 healthy lanes none is in use.
DEDUCED: notes/assumptions/45.md. -/
def Port.sparesFree (p : Port) : Nat := min 2 (18 - p.failedLanes - p.active)

/-- LANE_PHYS, ACTIVE_LANES, SPARES_FREE, AXIS and CAL_ENABLED of port `p` (Table 2.6). ACTIVE_LANES is 16 or 8 also where fewer than
8 healthy lanes remain and the link is lost; CAL_ENABLED shows what R296 suspends, whatever the port's state.
DEDUCED: notes/assumptions/45.md. -/
def State.laneRecord (s : State) (p : Nat) : List Nat × Nat × Nat × Nat × Nat :=
  let x := s.port p
  let axis := s.topo.axisOfPort p
  ((List.range 16).map fun i => if i < x.active then x.lanePhys i else 0xFF, if 16 ≤ x.active then 16 else 8, x.sparesFree, axis,
    b2n (axis != 0xFF && decide (0 < x.sparesFree)))

/-- Record of tier unit `r`: STATE, SPARE_USED, SIZE (Table 2.7). -/
def State.tierRecord (s : State) (r : Nat) : Nat × Nat × Nat :=
  if r < 8 then let x := s.nearStacks.get {} r; (x.state, b2n x.spareUsed, if x.state = 0 then x.w * 0x100000000 else 0)
  else let x := s.tiers.get {} r; (x.state, 0, if x.state = 0 then x.size else 0)

/-- PHYS_ENGINE and STATE of logical engine `e` (Table 2.6). A swap is not published before its spare has woken (R233).
DEDUCED: notes/assumptions/45.md. -/
def State.engineRecord (s : State) (e : Nat) : Nat × Nat :=
  let now := match s.engineMap.getD e none with
    | some p => (p, b2n (p != e))
    | none => (0xFF, 2)
  if (s.dom (40 + e)).awaitPublish = swapAwaits then match s.calico.view with
    | some v => v.engines.getD e now
    | none => now
  else now

/-- The table's contents as they stand now. -/
def State.calicoNow (s : State) : CalicoView :=
  { node := s.node
    bootCount := s.bootCount
    sergeEnabled := if (List.range 4).all s.enginePresent then 4 else 3
    clusters := (List.range 512).filterMap fun n =>
      let r := s.clusterRecord n
      if r = clusterRecordDefault n then none else some (n, r)
    lanes := (List.range 8).map s.laneRecord
    engines := (List.range 4).map s.engineRecord
    tiers := (List.range 26).map s.tierRecord
    retired := s.flash.retired
    runningSlot := s.fw.bootedSlot
    staged := b2n (s.fw.staged != 0xFF)
    components := (List.range 6).map fun c => (min 255 (s.fw.toReload.getD c []).length, s.fw.versions.getD c 0) }

/-! ### The bytes (Tables 2.1 to 2.11) -/

/-- An entry: its 16-byte header (R34) and the payload. -/
def calicoEntry (typ : Nat) (payload : Bytes) : Bytes :=
  let w := typ + 2 ^ 16 + (16 + payload.length) * 2 ^ 32
  leBytes 8 w ++ leBytes 8 (2 ^ 64 - 1 - w) ++ payload

/-- Window base of tier unit `r` (Table 1.6). -/
def tierBase (r : Nat) : Nat :=
  if r < 8 then r * 0x2000000000 else if r < 24 then 0x010000000000 + (r - 8) * 0x2000000000
  else 0x030000000000 + (r - 24) * 0x10000000000

/-- Register blocks (Table 19.3): BLOCK_ID, unit number, OFFSET, SIZE. -/
def registerBlocks : List (Nat × Nat × Nat × Nat) :=
  [(1, 0, 0, 0x100000), (2, 0, 0x200000, 0x1000), (3, 0, 0x201000, 0x1000)] ++
  ((List.range 8).map fun i => (4, i, 0x210000 + i * 0x1000, 0x1000)) ++ [(5, 0, 0x220000, 0x8000)] ++
  ((List.range 4).map fun i => (6, i, 0x230000 + i * 0x1000, 0x1000)) ++
  [(7, 0, 0x240000, 0x1000), (8, 0, 0x241000, 0x1000), (9, 0, 0x250000, 0x4000), (10, 0, 0x260000, 0x1000)]

/-- Rate records (Table 2.11). -/
def rateRecords : List Nat := [0x04000103, 0x08000003, 0x0800010C, 0x1000000C, 0x08000110, 0x01000203]

/-- ASCII, padded with zeros. -/
def orderingCode : Bytes :=
  slice ([0x46, 0x56, 0x35, 0x31, 0x32, 0x2D, 0x37, 0x32, 0x53] ++ (if Config.unitBound then [0x42] else [])) 0 16

def CalicoView.entries (v : CalicoView) : List Bytes :=
  [calicoEntry 1 (leBytes 2 0xF512 ++ leBytes 2 Config.deviceStep.toNat ++ leBytes 2 v.node ++ leBytes 2 58 ++ leBytes 8 0),
   calicoEntry 2 ([16, 8, 17, 16, 16, 64, 8, 18, 16, 5, BitVec.ofNat 8 v.sergeEnabled, 8, 16, 2, 64, 0]),
   calicoEntry 3 (leBytes 2 512 ++ leBytes 2 8 ++ leBytes 4 0 ++ ((List.range 512).map fun n =>
     let r := v.clusters.get (clusterRecordDefault n) n
     leBytes 2 r.1 ++ leBytes 1 r.2.1 ++ leBytes 1 r.2.2.1 ++ leBytes 1 r.2.2.2.1 ++ leBytes 1 r.2.2.2.2 ++ leBytes 2 0).flatten),
   calicoEntry 4 (v.lanes.map fun l => (l.1.map fun x => BitVec.ofNat 8 x) ++ leBytes 1 l.2.1 ++ leBytes 1 l.2.2.1 ++
     leBytes 1 l.2.2.2.1 ++ leBytes 1 l.2.2.2.2 ++ leBytes 4 0).flatten,
   calicoEntry 5 (v.engines.map fun e => leBytes 1 e.1 ++ leBytes 1 e.2 ++ leBytes 2 0).flatten,
   calicoEntry 6 (((List.range v.tiers.length).zip v.tiers).map fun x =>
     let r := x.1
     let tier := if r < 8 then 0 else if r < 24 then 1 else 2
     let unit := if r < 8 then r else if r < 24 then r - 8 else r - 24
     leBytes 1 tier ++ leBytes 1 unit ++ leBytes 1 x.2.1 ++ leBytes 1 x.2.2.1 ++ leBytes 4 0 ++ leBytes 8 (tierBase r) ++
       leBytes 8 x.2.2.2).flatten,
   calicoEntry 7 (leBytes 4 v.retired.length ++ leBytes 4 0 ++ (v.retired.map (leBytes 8)).flatten),
   calicoEntry 8 (registerBlocks.map fun r => leBytes 2 r.1 ++ leBytes 2 r.2.1 ++ leBytes 4 r.2.2.1 ++ leBytes 4 r.2.2.2 ++
     leBytes 4 0).flatten,
   calicoEntry 9 (leBytes 2 0x7F ++ [7, 3, 0x1F, 7, 1, 16] ++ leBytes 2 1250 ++ leBytes 2 1000 ++ leBytes 2 6 ++ leBytes 2 0 ++
     (rateRecords.map (leBytes 4)).flatten),
   calicoEntry 10 (orderingCode ++ leBytes 8 Config.serial.toNat ++ leBytes 1 (b2n Config.unitBound) ++ leBytes 1 v.runningSlot ++
     leBytes 1 v.staged ++ leBytes 1 6 ++ leBytes 12 0 ++ (((List.range v.components.length).zip v.components).map fun x =>
       leBytes 1 x.1 ++ leBytes 1 x.2.1 ++ leBytes 2 0 ++ leBytes 4 x.2.2).flatten),
   calicoEntry 0xFFFF []]

/-- The whole table as it reads with GENERATION `gen`. -/
def CalicoView.bytes (v : CalicoView) (gen : Nat) : Bytes :=
  let es := v.entries
  let body := es.flatten
  leBytes 4 0x494C4143 ++ leBytes 2 1 ++ leBytes 2 es.length ++ leBytes 4 (32 + body.length) ++ leBytes 4 (crc32c body) ++
  leBytes 8 gen ++ leBytes 4 v.bootCount ++ leBytes 4 (2 ^ 32 - 1 - v.bootCount) ++ body

/-! ### Reading the region (R30, R33, R40) -/

/-- The region within control space. -/
def calicoLo : Nat := controlBase + 0x100000
def calicoSize : Nat := 0x100000

/-- `n` bytes of the region from offset `off`. While GENERATION is odd, bytes outside GENERATION are free values, but for MAGIC, which
holds from the end of the first publication (R33).
DEDUCED: notes/assumptions/22.md. -/
def State.calicoBytes (s : State) (off n : Nat) : Bytes :=
  let gen := leBytes 8 s.calico.generation
  let table := match s.calico.view with
    | some v => v.bytes s.calico.generation
    | none => []
  (List.range n).map fun i =>
    let o := off + i
    if 0x10 ≤ o ∧ o < 0x18 then gen.getD (o - 0x10) 0
    else if s.calico.generation % 2 = 1 ∧ ¬(o < 4 ∧ 3 ≤ s.calico.generation) then Config.tornByte s.draws o
    else table.getD o 0

/-- [a, a + n) lies in the Calico table. -/
def inCalico (a n : Nat) : Bool := decide (calicoLo ≤ a) && decide (a + n ≤ calicoLo + calicoSize)

/-- Bytes that a data mover reads from a local range: memory, or the Calico table. -/
def State.readSrc (s : State) (a n : Nat) : Bytes := if inCalico a n then s.calicoBytes (a - calicoLo) n else s.readBytes a n

/-- After a read of [a, a + n): bytes of the Calico table that a publication was writing are free values, new at each read.
DEDUCED: notes/assumptions/22.md. -/
def State.afterRead (s : State) (a n : Nat) : State := if inCalico a n then { s with draws := s.draws + 1 } else s

end Sys2Proof.Machine
end

