-- ==== Sys2Proof/Machine/Adders.lean ====
section
/-! DEFINITION. The memory-side adders (06, 11), voile encoding (R305 to R307) and the blocks of the compressed ring (R309 to R311). -/

namespace Sys2Proof.Machine

/-! ### Element operations (Tables 6.6 and 6.7) -/

/-- Bytes of a source element. -/
def racSrc (op : Nat) : Nat := if op = 2 ∨ op = 5 then 8 else if op = 3 then 96 else 4
/-- Bytes of a destination element. -/
def racDst (op : Nat) : Nat := if op = 2 ∨ op = 5 then 8 else if op = 3 ∨ op = 4 then 96 else 4

/-- What one element, or the elements of one packet, left: status, flags, and for SWAP the old values. -/
structure Applied where
  st : State
  status : Nat := 0
  flags : Nat := 0
  old : Bytes := []

/-- XACC_ADD_FP32: the term S into a cell; COUNT + 1 (Table 6.7). -/
def cellTerm (a : Acc) (code : Nat) : Flagged Acc :=
  let x := Fp.fp32.read code
  let t := a.term x.1
  ({ t.1 with count := min (a.count + 1) (2 ^ 48 - 1) }, x.2 ||| t.2)

/-- One element operation at local address `a`. An element in a retired page is refused (R129); a damaged cell is skipped (R122). -/
def applyElement (s : State) (op a : Nat) (src : Bytes) : Applied :=
  if s.touchesRetired a (racDst op) then { st := s, status := stRETIRED_PAGE }
  else if op = 0 then
    let r := add32 (s.readNat a 4) (leNat src)
    { st := s.writeNat a 4 r.1, flags := r.2 }
  else if op = 1 then { st := s.writeNat a 4 (s.readNat a 4 + leNat src) }
  else if op = 2 then { st := s.writeNat a 8 (s.readNat a 8 + leNat src) }
  else if op = 5 then { st := s.writeBytes a src, old := s.readBytes a 8 }
  else match Acc.ofBytes (s.readBytes a 96) with
    | none => { st := s, status := stCOMPLEMENT_MISMATCH }
    | some d =>
      if op = 3 then match Acc.ofBytes src with
        | none => { st := s, status := stCOMPLEMENT_MISMATCH }
        | some c => { st := s.writeBytes a (d.add c).bytes, flags := flagIf (c.flags.testBit 0 || c.flags.testBit 3) fIV }
      else let r := cellTerm d (leNat src); { st := s.writeBytes a r.1.bytes, flags := r.2 }

/-- The elements of one packet, one after another from destination address `a` (R128). A refused SWAP element gives no old
value; a packet of them lies in one page, so either all are refused or none is. -/
def applyElements (s : State) (op a : Nat) (els : List Bytes) : Applied :=
  ((List.range els.length).zip els).foldl (fun acc e =>
    let r := applyElement acc.st op (a + e.1 * racDst op) e.2
    { st := r.st, status := worse acc.status r.status, flags := acc.flags ||| r.flags, old := acc.old ++ r.old }) { st := s }

/-! ### Voile (R305, R307) -/

/-- x with a subnormal flushed to a zero of its sign (R79), and the flag. -/
def flush32 (x : Nat) : Flagged Nat :=
  let r := Fp.fp32.read x
  (if r.2 = 0 then x else bits x 31 1 * 2 ^ 31, r.2)

def isFinite32 (c : Nat) : Bool := bits c 23 8 != 255

/-- The FP32 code of −x; a NaN keeps its code. -/
def neg32 (x : Nat) : Nat := if Fp.fp32.value x = .nan then x else setBits x 31 1 (1 - bits x 31 1)

/-- A group's mean m as FP16, its sign bits as 32 bytes, the residuals and the flags. -/
def voileGroup (xs : List Nat) : (Nat × Bytes × List Nat) × Nat :=
  let fl := xs.map flush32
  let vs := fl.map (·.1)
  let f0 := fl.foldl (fun a x => a ||| x.2) 0
  let signs := leBytes 32 (((List.range vs.length).zip vs).foldl (fun a x => a + bits x.2 31 1 * 2 ^ x.1) 0)
  if vs.all isFinite32 then
    let sum := vs.foldl (fun (a : Flagged Nat) x => let r := add32 a.1 (bits x 0 31); (r.1, a.2 ||| r.2)) (0, 0)
    let n := (Fp.fp32.round (.fin false vs.length 0)).1
    let q := op2 .fp32 .fp32 fdiv sum.1 n
    let m := convert .fp32 .fp16 q.1
    let fm := f0 ||| sum.2 ||| q.2 ||| m.2
    let d := (convert .fp16 .fp32 m.1).1
    if isFinite32 d then
      let rs := vs.map fun x => op2 .fp32 .fp32 fsub x (if x.testBit 31 then neg32 d else d)
      ((m.1, signs, rs.map (·.1)), rs.foldl (fun a r => a ||| r.2) fm)
    else ((m.1, signs, vs.map fun _ => 0), fm)
  else ((0x7E00, signs, vs.map fun _ => 0), f0 ||| fIV)

/-- A group on the wire.
DESIGN CHOICE: notes/assumptions/23.md. -/
def voileWire (m : Nat) (signs : Bytes) : Bytes := leBytes 2 m ++ signs

/-- The first `n` decoded values of a group, as FP32 codes. -/
def voileDecode (g : Bytes) (n : Nat) : List Nat :=
  let d := (convert .fp16 .fp32 (field g 0 2)).1
  (List.range n).map fun i => if (field g (2 + i / 8) 1).testBit (i % 8) then neg32 d else d

/-- The decoded values of a voile packet: whole groups of 34 bytes, the last holding `last` elements.
DESIGN CHOICE: notes/assumptions/23.md. -/
def voilePacket (b : Bytes) (last : Nat) : List Nat :=
  let gs := chunks 34 b
  ((List.range gs.length).zip gs).flatMap fun x => voileDecode x.2 (if x.1 + 1 = gs.length then last else 256)

/-! ### The compressed ring (R309 to R311) -/

/-- M of a block (R310, step 1), as a signed byte. -/
def ringMax (xs : List Nat) : Int :=
  if xs.any fun x => !isFinite32 x then 127
  else
    let es := (xs.map fun x => (Fp.fp32.read x).1).filter (!·.isZero)
    match es with
    | [] => -128
    | v :: r => r.foldl (fun a x => max a (floorLog2 x)) (floorLog2 v)

/-- The larger of two signed exponent bytes. -/
def ringMerge (a b : Byte) : Byte := if signed 8 a.toNat < signed 8 b.toNat then b else a

/-- Code c of a block (R310, step 3). -/
def ringCode (m : Int) (h : Nat) : Nat :=
  let c := m + h + 121
  if m = 127 then 0xFF else if m = -128 then 1 else if 240 < c then 0xFF else if c < 1 then 1 else c.toNat

/-- A block in hand: BF16 or INT8 with code c, RESCALED, and 64 element codes. -/
structure RingBlock where
  bf16 : Bool
  code : Nat
  rescaled : Bool
  els : List Nat

def RingBlock.bytes (k : RingBlock) : Bytes :=
  let c := if k.bf16 then 0xFF else k.code
  leBytes 1 c ++ leBytes 1 (255 - c) ++ leBytes 1 (b2n k.rescaled + 2 * b2n k.bf16) ++ leBytes 1 0 ++
    (k.els.map fun e => leBytes (if k.bf16 then 2 else 1) e).flatten

/-- Bytes of a block on the wire, by its BFLAGS. -/
def ringBlockLen (b : Bytes) : Nat := if (field b 2 1).testBit 1 then 132 else 68

/-- FP32 codes that a block decodes to; canonical NaNs where CODE_N or the BF16 bit disagrees. -/
def ringDecode (b : Bytes) : List Nat :=
  let c := field b 0 1
  let bf := (field b 2 1).testBit 1
  if field b 1 1 ≠ 255 - c ∨ (bf ≠ (c == 0xFF)) then List.replicate 64 Fp.fp32.nanCode
  else if bf then (List.range 64).map fun i => (convert .bf16 .fp32 (field b (4 + 2 * i) 2)).1
  else (List.range 64).map fun i =>
    let q := signed 8 (field b (4 + i) 1)
    (Fp.fp32.round (.fin (decide (q < 0)) q.natAbs ((c : Int) - 127))).1

/-- q of v at code c: v ÷ 2^(c − 127) to the nearest integer, ties to even. -/
def ringQ (c v : Nat) : Flagged Int := match Fp.fp32.value v with
  | .fin n m e =>
    let r := nearestInt n m (e - ((c : Int) - 127))
    (r.1, flagIf r.2 fNX)
  | _ => (0, 0)

/-- The least k from 0 to 3 that brings every |q| to 127 or below. -/
def ringRaise (c : Nat) (vs : List Nat) : Option Nat :=
  (List.range 4).find? fun k => vs.all fun v => decide ((ringQ (c + k) v).1.natAbs ≤ 127)

/-- A member's work on one block (R311, steps 1 to 5): the outgoing block, the residuals, whether this hop rescaled it or turned
it into BF16, and the flags. `inn` is the block that came in, none at distance 1, whose code is then `scale`. The inexactness of a q at code c
that steps 3 and 4 then replace counts as well.
DESIGN CHOICE: notes/assumptions/119.md. -/
def ringHop (inn : Option Bytes) (scale : Nat) (xs : List Nat) : RingBlock × List Nat × Bool × Bool × Nat :=
  let dec := match inn with
    | some b => ringDecode b
    | none => xs.map fun _ => 0
  let wasBf := match inn with
    | some b => (field b 2 1).testBit 1
    | none => scale == 0xFF
  let c := match inn with
    | some b => field b 0 1
    | none => scale
  let wasResc := match inn with
    | some b => (field b 2 1).testBit 0
    | none => false
  let sums := (dec.zip xs).map fun p => add32 p.1 p.2
  let vs := sums.map (·.1)
  let f0 := sums.foldl (fun a x => a ||| x.2) 0
  let k := if wasBf || vs.any (fun v => !isFinite32 v) then none else ringRaise c vs
  let tried := if wasBf then 0 else vs.foldl (fun a v => a ||| (ringQ c v).2) 0
  let residual (v d : Nat) : Flagged Nat := if isFinite32 v then op2 .fp32 .fp32 fsub v d else (0, 0)
  match k with
  | some k =>
    let qs := vs.map fun v => ringQ (c + k) v
    let fq := qs.foldl (fun a q => a ||| q.2) (if k = 0 then 0 else tried)
    let out : RingBlock := { bf16 := false, code := c + k, rescaled := wasResc || decide (0 < k), els := qs.map fun q => wrap 8 q.1 }
    let rs := (vs.zip (ringDecode out.bytes)).map fun p => residual p.1 p.2
    (out, rs.map (·.1), decide (0 < k), false, rs.foldl (fun a r => a ||| r.2) (f0 ||| fq))
  | none =>
    let bs := vs.map fun v => convert .fp32 .bf16 v
    let out : RingBlock := { bf16 := true, code := 0xFF, rescaled := wasResc, els := bs.map (·.1) }
    let rs := (vs.zip (bs.map fun x => (convert .bf16 .fp32 x.1).1)).map fun p => residual p.1 p.2
    (out, rs.map (·.1), false, !wasBf, (rs.foldl (fun a r => a ||| r.2) (f0 ||| tried)) ||| bs.foldl (fun a x => a ||| x.2) 0)

end Sys2Proof.Machine
end

