-- ==== Sys2Proof/Machine/Grad.lean ====
section
/-! DEFINITION. From gradient to parameter (14): buckets and their prefetch, the step gate, releases, the parameter spread, mirrors
and fingerprints. -/

namespace Sys2Proof.Machine

/-! ### Buckets (R301, R302) -/

def State.bucketRec (s : State) (b : Nat) : Option BucketRec := s.coll.bind (·.buckets[b]?)

def BucketRec.mirrored (r : BucketRec) : Bool := r.flags.testBit 0

/-- This module's role for bucket `b`: some false its primary, some true its mirror. -/
def State.role (s : State) (b : Nat) : Option Bool :=
  match s.bucketRec b with
  | none => none
  | some r => if r.owner = s.node then some false else if r.mirrored && r.mirror == s.node then some true else none

/-- Buckets that the module owns or mirrors, ascending. -/
def State.bucketsHere (s : State) : List Nat :=
  match s.coll with
  | some c => (List.range c.buckets.length).filter fun b => (s.role b).isSome
  | none => []

def State.bkt (s : State) (b : Nat) : Bkt := s.grad.buckets.get {} b
def State.setBkt (s : State) (b : Nat) (x : Bkt) : State := { s with grad := { s.grad with buckets := s.grad.buckets.set {} b x } }

/-- The state a bucket has, or would have were no resolution running. -/
def Bkt.eff (x : Bkt) : BktSt := if x.st = .held then x.back else x.st

/-- Moves a bucket to a state; in HELD the state is kept for the end of the resolution. -/
def Bkt.goto (x : Bkt) (t : BktSt) : Bkt := if x.st = .held then { x with back := t } else { x with st := t }

/-- Bytes of one buffer element. -/
def Collective.elemBytes (c : Collective) : Nat := if c.reduceFormat = 1 then 96 else 4

/-- Local address and length of a bucket's buffer here. -/
def State.bktBuf (s : State) (b : Nat) : Nat × Nat :=
  match s.coll, s.bucketRec b, s.region rkREDUCTION with
  | some c, some r, some g => (g.base + r.bufOff, r.elements * c.elemBytes)
  | _, _, _ => (0, 0)

/-- Domains of a bucket's buffer. -/
def State.bucketDomains (s : State) (b : Nat) : List Nat := let x := s.bktBuf b; s.rangeDomains x.1 x.2

/-- Clears a bucket's buffer; while its memory serves no access, the clearing waits there in the order of arrival (R251, R263). -/
def State.zeroBuffer (s : State) (b : Nat) : State :=
  let x := s.bktBuf b
  if (s.asleep (s.bucketDomains b)).isEmpty then s.zeroOutside x.1 x.2 else s.putOff (.task (.zero x.1 x.2) (s.bucketDomains b)) (s.bucketDomains b)

/-- The live COLLECTIVE values in force for `step` (R61): of the loads that name it or an earlier step, those of the latest load.
DEDUCED: notes/assumptions/128.md. -/
def Collective.liveFor (c : Collective) (step : Nat) : CollLive :=
  (c.live.find? fun l => decide (l.applyFrom ≤ step)).getD
    (c.live.getLastD { applyFrom := 0, gateMode := 0, threshold := 0, prefetchAt := 128, headroom := 2, drainTimeout := 250000 })

/-- The DRAIN_TIMEOUT of the newest load. -/
def State.drainTimeout (s : State) : Nat := match s.coll with
  | some c => match c.live with
    | l :: _ => l.drainTimeout
    | [] => 250000
  | none => 250000

/-- Drained (R351): STATE is OPEN and COUNT is 0. -/
def Bkt.drained (x : Bkt) : Bool := x.st == .opened && x.count == 0

/-- The bucket that a PERMUTE names, if any, is drained, and was so within its DRAIN_TIMEOUT (R351). -/
def State.drainedInTime (s : State) (d : Desc) : Bool :=
  Pm.bucket d.bytes == 0xFFFFFFFF || ((s.bkt (Pm.bucket d.bytes)).drained && (d.inTime || !s.overdue d.limit))

/-- The tick ends: the PERMUTEs whose buckets have drained in time are noted. -/
def State.leaveTick (s : State) : State :=
  { s with descs := s.descs.map fun d => if dType d.bytes = tyPERMUTE ∧ s.drainedInTime d = true then { d with inTime := true } else d }

/-! ### Prefetch (R323, R324) -/

def isSlow (w : Win) : Bool := match w with
  | .board _ => true
  | .far _ => true
  | _ => false

def isNear (w : Win) : Bool := match w with
  | .near _ => true
  | _ => false

/-- The record of bucket `b` in the table. -/
def State.pfRec (s : State) (b : Nat) : PfRec :=
  let r := s.readBytes (s.grad.pfBase + 32 * b) 32
  let src := field r 0 8
  let stage := field r 8 8
  let n := field r 16 4
  let ok := n % 64 == 0 && zeros r 21 11 && decide (field r 20 1 < 2) && isSlow (winOf src).1 && s.populated src n &&
    isNear (winOf stage).1 && s.populated stage n && !s.touchesRetired src n && !s.touchesRetired stage n
  { src := src, stage := stage, bytes := n, writeback := (field r 20 1).testBit 0, valid := ok }

/-- The record of the prefetch that runs. -/
def Bkt.runningPf (x : Bkt) : PfRec := if x.pfStale then x.stalePf else x.pf

/-- PREFETCH_START (R324): the record is read, once its memory serves accesses (R251, R263). One on a retired page is refused there, and the prefetch
fails (R265).
DEDUCED: notes/assumptions/138.md. -/
def State.startPrefetch (s : State) (b : Nat) : State :=
  let x := s.bkt b
  let ds := s.rangeDomains (s.grad.pfBase + 32 * b) 32
  if s.grad.pfBase = 0 ∨ x.pfStarted then s
  else if !(s.asleep ds).isEmpty then (s.setBkt b { x with pfDue := true }).putOff (.task (.table b) ds) ds
  else
    let r := s.pfRec b
    let y : Bkt := { x with pfStarted := true, pfDue := false, pf := r }
    if s.touchesRetired (s.grad.pfBase + 32 * b) 32 then s.setBkt b { y with pf := {}, pfFailed := true, stickyPf := true }
    else if r.src = 0 then s.setBkt b y
    else if !r.valid then s.setBkt b { y with pfFailed := true, stickyPf := true }
    else (s.wakeAll (s.rangeDomains r.src r.bytes ++ s.rangeDomains r.stage r.bytes)).setBkt b { y with pfBusy := true }

/-- Starts the prefetch of a primary's bucket once COUNT has reached its point. -/
def State.checkPrefetch (s : State) (b : Nat) : State :=
  match s.coll, s.bucketRec b, s.role b with
  | some c, some r, some false =>
    let x := s.bkt b
    if x.eff = .opened ∨ x.eff = .complete then
      if ceilDiv ((c.liveFor x.step).prefetchAt * r.expected) 256 ≤ x.count then s.startPrefetch b else s
    else s
  | _, _, _ => s

/-- A mirror's bucket leaves OPEN once the decision is here and the primary's forward has landed in full (R301). -/
def State.settleMirror (s : State) (b : Nat) : State :=
  let x := s.bkt b
  if x.mirrorDue && x.fwdDone then s.setBkt b ({ x with mirrorDue := false }.goto .decided) else s

/-- Reopens a bucket at `step` with COUNT 0; a running prefetch is then one of a past step. A mirror's bucket whose next decision has come already
goes on with that one (R301).
DEDUCED: notes/assumptions/41.md. -/
def State.reopen (s : State) (b step : Nat) (clearFault : Bool) : State :=
  let x := s.bkt b
  let y : Bkt :=
    { x with
      step := x.nextStep.getD step, count := 0, countN := 0xFFFFFFFF, fault := if clearFault then false else x.fault
      pfFailed := false, pfStarted := false, pfStale := x.pfBusy, stalePf := x.runningPf, fwdSent := false, fwdFailed := false
      pfDue := false, fwdDone := x.nextStep.isSome && decide ((s.bktBuf b).2 ≤ x.fwdNext), fwdBytes := x.fwdNext, fwdNext := 0, mirrorDue := x.nextStep.isSome
      nextStep := none }
  let s1 := s.setBkt b (y.goto .opened)
  if y.mirrorDue then (s1.settleMirror b).startPrefetch b else s1.checkPrefetch b

/-- One contribution of `n` for `step` at the reduction controller (R302). -/
def State.countBucket (s : State) (b n step : Nat) : State :=
  match s.bucketRec b, s.role b with
  | some r, some false =>
    let x0 := s.bkt b
    let dm : Bkt := { x0 with count := r.expected, countN := 0xFFFFFFFF - r.expected, fault := true, damaged := true }
    let x := if x0.countN = 0xFFFFFFFF - x0.count then x0 else dm.goto (if x0.eff = .opened then .complete else x0.eff)
    let wrong := x.step != step
    let tooMany := x.eff != .opened || decide (r.expected < x.count + n)
    if wrong || tooMany then s.setBkt b { x with fault := true, misstep := x.misstep || wrong, overcount := x.overcount || tooMany }
    else
      let c := x.count + n
      let y : Bkt := { x with count := c, countN := 0xFFFFFFFF - c }
      (s.setBkt b (y.goto (if c = r.expected then .complete else .opened))).checkPrefetch b
  | _, some true => s
  | _, _ => { s with grad := { s.grad with stray := min (s.grad.stray + 1) 0xFFFF } }

/-! ### COLL packets -/

/-- Sends a COLL packet whose answer no operation waits for; its transaction is outstanding until it comes.
DEDUCED: notes/assumptions/42.md. -/
def State.sendColl (s : State) (dst sub flags b12 b13 subject step : Nat) (data : Bytes) : State :=
  s.request .plain dst kCOLL sub s.epochNow (collHeader sub flags b12 b13 subject step) data 0 0 0

/-- Sends a COLL packet and notes its transaction.
DEDUCED: notes/assumptions/42.md. -/
def State.collRequest (s : State) (use : TxnUse) (dst sub flags b12 b13 subject step : Nat) (data : Bytes) (addr len off : Nat) : State :=
  s.request use dst kCOLL sub s.epochNow (collHeader sub flags b12 b13 subject step) data addr len off

/-- Subkinds of Tables 14.3 and 15.3 and R352, R354. -/
def skGATE_UP : Nat := 0x01
def skGATE_DOWN : Nat := 0x02
def skRING_MAX : Nat := 0x03
def skRING_SCALE : Nat := 0x04
def skRING_DATA : Nat := 0x05
def skMIRROR_FWD : Nat := 0x06
def skFPRINT : Nat := 0x07
def skBCAST_DATA : Nat := 0x08
def skPARAM_READ : Nat := 0x09
def skPARAM_DATA : Nat := 0x0A
def skROOT_HOLD : Nat := 0x0B
def skROOT_DROP : Nat := 0x0C
def skSTAGE_DATA : Nat := 0x40
def skSTAGE_CREDIT : Nat := 0x41
def skPERMUTE_DATA : Nat := 0x42
def skRESHARD_UP : Nat := 0x43
def skRESHARD_DOWN : Nat := 0x44

/-- Fields of a COLL header. -/
def coSub (k : Packet) : Nat := field k.hdr 0 1
def coFlags (k : Packet) : Nat := field k.hdr 1 1
def coB12 (k : Packet) : Nat := field k.hdr 2 1
def coB13 (k : Packet) : Nat := field k.hdr 3 1
def coSubject (k : Packet) : Nat := field k.hdr 4 4
def coStep (k : Packet) : Nat := field k.hdr 8 8

/-! ### The tree (R315) -/

def Topology.modules (t : Topology) : Nat := t.size 0 * t.size 1 * t.size 2 * t.size 3

/-- The node of a rank. -/
def Topology.nodeOfRank (t : Topology) (r : Nat) : Nat :=
  let x := r % t.size 0
  let y := r / t.size 0 % t.size 1
  let z := r / (t.size 0 * t.size 1) % t.size 2
  let w := r / (t.size 0 * t.size 1 * t.size 2)
  x + 16 * y + 256 * z + 4096 * w

/-- Ranks of this module's children that exist. -/
def State.children (s : State) : List Nat :=
  let r := s.topo.rank s.node
  [2 * r + 1, 2 * r + 2].filter fun c => decide (c < s.topo.modules)

/-- Nodes of the children. -/
def State.childNodes (s : State) : List Nat := s.children.map s.topo.nodeOfRank

def State.parentNode (s : State) : Option Nat :=
  let r := s.topo.rank s.node
  if r = 0 then none else some (s.topo.nodeOfRank ((r - 1) / 2))

/-! ### The step gate (R313 to R317) -/

/-- The accepted GATE, held or not. -/
def State.gateDesc (s : State) : Option Desc := s.descs.find? fun d => dType d.bytes == tyGATE

/-- The GATE that waits for its decision. -/
def State.openGate (s : State) : Option Desc := s.descs.find? fun d => dType d.bytes == tyGATE && d.work == .gate

/-- Every owned bucket is COMPLETE for STEP or carries a fault (R314). -/
def State.gateReady (s : State) (step : Nat) : Bool :=
  s.bucketsHere.all fun b => s.role b != some false || (s.bkt b).fault || ((s.bkt b).eff == .complete && (s.bkt b).step == step)

/-- One element into the record. A NaN or an infinity sets NONFINITE (R314) and raises no flag of its own.
DEDUCED: notes/assumptions/133.md. -/
def gateElement (g : GateRec) (v : Option (Flagged Nat)) : GateRec :=
  match v with
  | none => { g with nonfinite := true }
  | some c =>
    if !isFinite32 c.1 then { g with nonfinite := true, flags := g.flags ||| c.2 }
    else
      let w := convert .fp32 .fp64 c.1
      let r := add64 g.sumsq.toNat (mul64 w.1 w.1).1
      { g with sumsq := BitVec.ofNat 64 r.1, flags := g.flags ||| c.2 ||| w.2 ||| r.2 }

/-- The module's own record (R314). An element on a retired page, whose read is refused (R266), makes the record non-finite.
DESIGN CHOICE: notes/assumptions/109.md. -/
def State.gateRecord (s : State) (step : Nat) : GateRec :=
  match s.coll with
  | none => { step := step }
  | some c =>
    (s.bucketsHere.filter fun b => s.role b == some false).foldl (fun g b =>
      let buf := s.bktBuf b
      let n := buf.2 / c.elemBytes
      let g1 := if (s.bkt b).fault then { g with nonfinite := true }
        else (List.range n).foldl (fun g i =>
          gateElement g (if s.touchesRetired (buf.1 + c.elemBytes * i) c.elemBytes then none
            else if c.reduceFormat = 1 then (Acc.ofBytes (s.readBytes (buf.1 + 96 * i) 96)).map Acc.readout
            else some (s.readNat (buf.1 + 4 * i) 4, 0))) g
      { g1 with count := g1.count + n }) { step := step }

/-- Adds a child's record (R315). -/
def GateRec.combine (g c : GateRec) : GateRec :=
  let r := add64 g.sumsq.toNat c.sumsq.toNat
  { g with sumsq := BitVec.ofNat 64 r.1, nonfinite := g.nonfinite || c.nonfinite, count := (g.count + c.count) % 2 ^ 64, flags := g.flags ||| r.2 }

/-- Table 14.6. -/
def GateRec.bytes (g : GateRec) : Bytes := leBytes 8 g.sumsq.toNat ++ leBytes 8 (b2n g.nonfinite) ++ leBytes 8 g.count

def GateRec.ofBytes (step : Nat) (b : Bytes) : GateRec :=
  { step := step, sumsq := BitVec.ofNat 64 (field b 0 8), nonfinite := field b 8 1 != 0, count := field b 16 8 }

/-- Table 14.8, with the live values `l` in force for the step's GATE. -/
def decide64 (c : Collective) (l : CollLive) (g : GateRec) : Decision :=
  let t := g.sumsq.toNat
  let norm := (sqrt64 t).1
  let total := c.buckets.foldl (fun a r => a + r.elements) 0
  let mk (d cause scale : Nat) : Decision :=
    { step := g.step, decision := d, cause := cause, scale := BitVec.ofNat 64 scale, norm := BitVec.ofNat 64 norm, sumsq := g.sumsq,
      count := g.count }
  if g.nonfinite then mk 2 1 0
  else if t = 0x7FF0000000000000 then mk 2 4 0
  else if g.count ≠ total then mk 2 3 0
  else if lt64 l.threshold.toNat norm then (if l.gateMode = 0 then mk 2 2 0 else mk 1 2 (div64 l.threshold.toNat norm).1)
  else mk 0 0 0x3FF0000000000000

/-- Table 14.7. -/
def Decision.bytes (d : Decision) : Bytes :=
  leBytes 8 d.step ++ leBytes 1 d.decision ++ leBytes 1 (255 - d.decision) ++ leBytes 1 d.cause ++ leBytes 1 0 ++
  leBytes 4 (convert .fp64 .fp32 d.scale.toNat).1 ++ leBytes 8 d.norm.toNat ++ leBytes 8 d.scale.toNat ++ leBytes 8 d.sumsq.toNat ++
  leBytes 8 d.count ++ leBytes 16 0

def Decision.ofBytes (b : Bytes) : Decision :=
  { step := field b 0 8, decision := field b 8 1, cause := field b 10 1, norm := BitVec.ofNat 64 (field b 16 8),
    scale := BitVec.ofNat 64 (field b 24 8), sumsq := BitVec.ofNat 64 (field b 32 8), count := field b 40 8 }

/-- Sends a primary's buffer to its mirror (R331), each packet's offset in its first 8 data bytes. What lies on a retired page is not read
(R266). -/
def State.sendForward (s : State) (b step mirror : Nat) : State :=
  let buf := s.bktBuf b
  let id := s.nextTxn
  ((cutsBy 2040 buf.1 buf.2).filter fun c => !s.touchesRetired (buf.1 + c.1) c.2).foldl (fun s c =>
    s.collRequest (.mirror b id) mirror skMIRROR_FWD 0 0 0 b step (leBytes 8 c.1 ++ s.readBytes (buf.1 + c.1) c.2) 0 c.2 c.1)
    (s.setBkt b { s.bkt b with fwdSent := true, fwdDone := false, fwdFailed := false, fwdId := id })

/-- The same, once the buffer's memory serves accesses (R251, R263). -/
def State.forwardBuffer (s : State) (b step mirror : Nat) : State :=
  if (s.asleep (s.bucketDomains b)).isEmpty then s.sendForward b step mirror
  else s.putOff (.task (.forward b step mirror) (s.bucketDomains b)) (s.bucketDomains b)

/-- Buckets whose forward this module has sent, or is to send. -/
def State.forwarded (s : State) : List Nat := s.bucketsHere.filter fun b => (s.bkt b).fwdSent || s.hif.waiting.any fun w => match w.req with
  | .task (.forward b' _ _) _ => b' == b
  | _ => false

/-- The correctable errors of `ces` that the forwards sent since `old` have met in their buffers (R360). -/
def State.forwardErrors (s old : State) (ces : List (Nat × Nat)) : State :=
  (s.forwarded.filter fun b => !old.forwarded.contains b).foldl (fun s b => s.corrections ces (s.bktBuf b).1 (s.bktBuf b).2) s

/-- A bucket on SKIP (R317).
DEDUCED: notes/assumptions/41.md. -/
def State.skipBucket (s : State) (b step : Nat) : State :=
  if s.role b = some false then (s.zeroBuffer b).reopen b (step + 1) true else s

/-- A bucket on APPLY or CLIP. A mirror's bucket that has not passed its BCAST of the step before stays as it is until then (Table 14.1).
DEDUCED: notes/assumptions/40.md. -/
def State.decideBucket (s : State) (b step : Nat) : State :=
  match s.bucketRec b, s.role b with
  | some r, some false =>
    let s1 := s.setBkt b ((s.bkt b).goto .decided)
    if r.mirrored then s1.forwardBuffer b step r.mirror else s1
  | some _, some true =>
    let x := s.bkt b
    if x.eff ≠ .opened ∨ x.mirrorDue then s.setBkt b { x with nextStep := some step }
    else ((s.setBkt b { x with step := step, mirrorDue := true }).settleMirror b).startPrefetch b
  | _, _ => s

/-- A bucket is still to be released into the list of `step`: it is decided for it, or, a mirror's, its forward or its BCAST of the step before is
still to come. -/
def State.awaits (s : State) (step b : Nat) : Bool :=
  let x := s.bkt b
  ((x.eff == .decided || x.mirrorDue) && x.step == step) || x.nextStep == some step

/-- The decision at this module (R316, R317): forwarded first, written through the movement port (R241), and applied to the buckets; the GATE is
owed its completion. -/
def State.applyDecision (s : State) (d : Desc) (x : Decision) : State :=
  let rec_ := x.bytes
  let s1 := s.childNodes.foldl (fun s n => s.sendColl n skGATE_DOWN 0 0 0 0 x.step rec_) s
  let n := dTarget d.bytes
  let s2 := s1.moverWrite d.id (storeBase n + Gt.decOff d.bytes) rec_
  let fl := match s.grad.gate.own with
    | some g => g.flags
    | none => 0
  let g := s2.grad
  let g' : Grad :=
    { g with
      lastDecision := x.decision, lastCause := x.cause, lastStep := x.step % 2 ^ 48, decision := some x
      gate := {}
      lists := { step := x.step, n := n, off := Gt.listOff d.bytes, counter := Gt.ready d.bytes } ::
        g.lists.filter fun l => l.step != x.step && s2.bucketsHere.any (s2.awaits l.step) }
  let s3 := { s2 with grad := g' }
  let s4 := s3.bucketsHere.foldl (fun s b => if x.decision = 2 then s.skipBucket b x.step else s.decideBucket b x.step) s3
  s4.setWork d.id (.done (if x.decision = 2 then stSTEP_SKIPPED else stOK) fl x.norm)

/-- Domains of the buffers that the record reads. -/
def State.buffersDomains (s : State) : List Nat := (s.bucketsHere.filter fun b => s.role b == some false).flatMap s.bucketDomains

/-- The correctable errors that the forming of the module's own record meets in the buffers (R314, R360). -/
def State.recordErrors (s : State) (ces : List (Nat × Nat)) : State :=
  (s.bucketsHere.filter fun b => s.role b == some false).foldl (fun s b => s.corrections ces (s.bktBuf b).1 (s.bktBuf b).2) s

/-- Combines the own and the children's records once all are there, and sends on or decides (R315, R316). -/
def State.tryCombine (s : State) : State :=
  let g := s.grad.gate
  match s.openGate, g.own with
  | some d, some own =>
    let need := s.children.length
    let have_ := (if 1 ≤ need then g.child0.toList else []) ++ (if 2 ≤ need then g.child1.toList else [])
    if g.sent || have_.length != need then s
    else
      let r := have_.foldl GateRec.combine own
      let s1 := { s with grad := { s.grad with gate := { g with own := some { own with flags := r.flags }, sent := true } } }
      match s.parentNode with
      | some p => s1.sendColl p skGATE_UP 0 0 0 0 r.step r.bytes
      | none => match s.coll with
        | some c => s1.applyDecision d (decide64 c (s.grad.gateLive.getD (c.liveFor r.step)) r)
        | none => s1
  | _, _ => s

/-! ### Release (R318) -/

/-- The bucket released next into a list: the lowest that still awaits it. -/
def State.nextOf (s : State) (l : ReadyList) : Option Nat := s.bucketsHere.find? (s.awaits l.step)

/-- Its conditions: prefetch ended, not HELD, and the forward landed or sent. -/
def State.releasable (s : State) (b : Nat) : Bool :=
  let x := s.bkt b
  let mirrored := match s.bucketRec b with
    | some r => r.mirrored
    | none => false
  !x.pfBusy && !x.pfDue && x.st == .decided && (if s.role b = some true then x.fwdDone else !mirrored || x.fwdSent)

/-- The release that is due: the next of the oldest list whose next bucket may be released. The lists of two steps do not wait for each other. -/
def State.nextRelease (s : State) : Option (ReadyList × Nat) :=
  (s.grad.lists.reverse.filterMap fun l => (s.nextOf l).map fun b => (l, b)).find? fun e => (s.bkt e.2).step == e.1.step && s.releasable e.2

/-- Writes the ready-list entry, with the errors that it meets in the word around it (R360), and advances READY_COUNTER. No port of Table 11.2 is the
reduction controller's: its write loses no contest.
DESIGN CHOICE: notes/assumptions/125.md. -/
def State.release (s : State) (l : ReadyList) (b : Nat) (ces : List (Nat × Nat)) : State :=
  let x := s.bkt b
  let e := b % 2 ^ 14 + b2n (s.role b == some true) * 2 ^ 30 + b2n x.pfFailed * 2 ^ 31
  let a := l.off + 4 * l.released
  let s1 := (s.writeCorrections ces (storeBase l.n + a) 4).writeStore l.n a (leBytes 4 e)
  let s2 := { s1 with grad := { s1.grad with
    lists := s1.grad.lists.map fun y => if y = l then { l with released := l.released + 1 } else y } }.setBkt b { x with st := .released }
  s2.addCounter l.n l.counter 1

/-! ### Fingerprints and resolution (R332, R333) -/

/-- rotl by 17 in 64 bits. -/
def rotl17 (x : Nat) : Nat := (x * 2 ^ 17) % 2 ^ 64 + x / 2 ^ 47

/-- The fingerprint of a run of bytes. -/
def fingerprint (b : Bytes) : Word :=
  BitVec.ofNat 64 ((chunks 8 b).foldl (fun f w => rotl17 (f ^^^ leNat w) * 0x9E3779B97F4A7C15 % 2 ^ 64) 0)

def State.fp (s : State) (b : Nat) : FpState := s.grad.fps.get {} b
def State.setFp (s : State) (b : Nat) (x : FpState) : State := { s with grad := { s.grad with fps := s.grad.fps.set {} b x } }

/-- The other holder of a mirrored bucket. -/
def State.peerOf (s : State) (b : Nat) : Option Nat := match s.bucketRec b, s.role b with
  | some r, some false => if r.mirrored then some r.mirror else none
  | some r, some true => some r.owner
  | _, _ => none

/-- SUBFLAGS of FPRINT: the running fingerprint, the recomputed one, 'your shard is overwritten', 'mine now matches'. -/
def fpRUN : Nat := 1
def fpAGAIN : Nat := 2
def fpOVERWROTE : Nat := 4
def fpMATCH : Nat := 8

def State.sendFp (s : State) (b flags : Nat) (run again : Word) : State :=
  match s.peerOf b with
  | some p => s.sendColl p skFPRINT flags 0 0 b (s.bkt b).step
      (leBytes 8 run.toNat ++ leBytes 8 again.toNat ++ leBytes 8 (s.fp b).src ++ leBytes 4 (s.fp b).bytes)
  | none => s

/-- A bucket leaves HELD. -/
def State.unhold (s : State) (b : Nat) : State :=
  let x := s.bkt b
  if x.st = .held then
    let s1 := s.setBkt b { x with st := x.back }
    { s1 with grad := { s1.grad with fps := s1.grad.fps.erase b } }
  else s

/-- Domains of the shard that a bucket's fingerprints concern. -/
def State.shardDomains (s : State) (b : Nat) : List Nat := let f := s.fp b; s.rangeDomains f.src f.bytes

/-- Sends this module's shard over the peer's, but for what lies on a retired page here (R265). -/
def State.sendShard (s : State) (b p : Nat) : State :=
  let f := s.fp b
  let a := f.peerSrc % 2 ^ 48
  ((cuts a f.bytes).filter fun c => !s.touchesRetired (f.src + c.1) c.2).foldl (fun s c =>
    s.request (.overwrite b) p kWRITE 0 s.epochNow (opHeader (a + c.1) c.2 0 0 0 0) (s.readBytes (f.src + c.1) c.2) (p * 2 ^ 48 + a) c.2 c.1) s

/-- Writes this module's shard over the peer's, once its memory serves accesses (R251, R263). -/
def State.overwritePeer (s : State) (b : Nat) : State :=
  match s.peerOf b with
  | some p =>
    if (s.asleep (s.shardDomains b)).isEmpty then s.sendShard b p else s.putOff (.task (.overwrite b) (s.shardDomains b)) (s.shardDomains b)
  | none => s

/-- The fingerprint of the shard as it is read again, a free value where a part lies on a retired page, whose read is refused (R265).
DESIGN CHOICE: notes/assumptions/126.md. -/
def State.readAgain (s : State) (b : Nat) : Word :=
  let f := s.fp b
  if s.touchesRetired f.src f.bytes then Config.freeWord s.draws else fingerprint (s.readBytes f.src f.bytes)

/-- Both sides' recomputed fingerprints are known: the outcome (R333, steps 2 to 4).
DESIGN CHOICE: notes/assumptions/91.md. -/
def State.resolve (s : State) (b : Nat) : State :=
  let f := s.fp b
  match f.own, f.peer, f.ownAgain, f.peerAgain with
  | some o, some p, some o', some p' =>
    let mine := o' != o
    let theirs := p' != p
    if mine && theirs then
      s.logFault { kind := fkDIVERGED, subject := s.node, unit := 0, location := b } 2 0xFFFF (o.toNat % 2 ^ 32 + p.toNat % 2 ^ 32 * 2 ^ 32)
    else if theirs || (!mine && s.role b == some false) then s.overwritePeer b
    else s
  | _, _, _, _ => s

/-- The BCASTs of a bucket whose fingerprints are compared. -/
def State.bcastOf (s : State) (b : Nat) : List Desc :=
  s.descs.filter fun d => dType d.bytes == tyBCAST && Bc.bucket d.bytes == b && (match d.work with
    | .bcast _ => true
    | _ => false)

/-- Ends a BCAST once no acknowledgement is owed and the comparison of a mirrored bucket is made. An equal comparison and the end
of a resolution take the own fingerprint off `fps`. -/
def State.endBcast (s : State) (d : Desc) : State :=
  match d.work with
  | .bcast st =>
    let k := Bc.bucket d.bytes
    let owed := s.txns.any fun t => t.use == .desc d.id
    let waits := k != 0xFFFFFFFF && (s.peerOf k).isSome && (s.fp k).own.isSome && (s.bkt k).st != .held
    if owed || waits then s else s.setWork d.id (.done st 0 0)
  | _ => s

/-- Tries to end the BCASTs of bucket `b`. -/
def State.endBcasts (s : State) (b : Nat) : State := (s.bcastOf b).foldl (fun s d => s.endBcast d) s

/-- Compares the running fingerprints once both are known (R333). -/
def State.compareFp (s : State) (b : Nat) : State :=
  let f := s.fp b
  match f.own, f.peer with
  | some o, some p =>
    if f.ownAgain.isSome then s
    else if o = p then
      let s1 := { s with grad := { s.grad with fps := s.grad.fps.erase b } }
      s1.endBcasts b
    else
      let x := s.bkt b
      let s1 := s.setBkt b (if x.st = .held then x else { x with back := x.st, st := .held })
      let again := s1.readAgain b
      let s2 := ({ s1 with draws := s1.draws + 1 }.setFp b { f with ownAgain := some again }).sendFp b fpAGAIN o again
      let s3 := (s2.bcastOf b).foldl (fun s d => s.setWork d.id (.bcast (match d.work with
        | .bcast st => if st = stOK then stDIVERGED else st
        | _ => stDIVERGED))) s2
      (s3.endBcasts b).resolve b
  | _, _ => s

/-! ### The parameter spread (R326 to R328) -/

/-- The neighbour of `node` on axis `a`, in the positive (0) or negative (1) direction. -/
def Topology.step (t : Topology) (node a dir : Nat) : Nat :=
  let n := t.size a
  let c := coord node a
  setCoord node a (if dir = 0 then (c + 1) % n else (c + n - 1) % n)

/-- The next hop from `node` toward `dst`: axis and direction, none at the destination. -/
def Topology.hop (t : Topology) (node dst : Nat) : Option (Nat × Nat) :=
  match (List.range 4).find? fun a => coord node a != coord dst a with
  | none => none
  | some a =>
    let n := t.size a
    let f := (coord dst a + n - coord node a) % n
    some (a, if f ≤ n - f then 0 else 1)

/-- The port of a module that faces a direction of an axis. -/
def Topology.portFor (t : Topology) (a dir : Nat) : Option Nat := (t.pairOf a).map fun k => 2 * k + dir

/-- The L-tile of the port by which a packet for `node` leaves, none for this module (R284). -/
def State.linkDomains (s : State) (node : Nat) : List Nat := match s.topo.hop s.node node with
  | some (a, dir) => (s.topo.portFor a dir).toList.map (32 + ·)
  | none => []

/-- The streams that start a spread on axis `a`: direction and distance. -/
def Topology.startsOn (t : Topology) (a : Nat) : List (Nat × Nat × Nat) :=
  let n := t.size a
  [(a, 0, ceilDiv (n - 1) 2), (a, 1, (n - 1) / 2)].filter fun x => decide (0 < x.2.2)

/-- Streams of the issuer, and those of a receiver reached on axis `a`, direction `dir`, with `dist` still to cover. -/
def Topology.issuerStreams (t : Topology) (axes : Nat) : List (Nat × Nat × Nat) :=
  ((List.range 4).filter fun a => axes.testBit a).flatMap t.startsOn

def Topology.relayStreams (t : Topology) (axes a dir dist : Nat) : List (Nat × Nat × Nat) :=
  (if 1 < dist then [(a, dir, dist - 1)] else []) ++ ((List.range 4).filter fun c => axes.testBit c && decide (a < c)).flatMap t.startsOn

/-- Data of one BCAST_DATA packet: DST, BYTES of the whole BCAST, offset, and the piece.
PRESUMED: notes/assumptions/36.md. -/
def bcastData (dst total off : Nat) (piece : Bytes) : Bytes := leBytes 8 dst ++ leBytes 4 total ++ leBytes 4 off ++ piece

/-- The stream byte: axis, direction, distance. -/
def streamByte (x : Nat × Nat × Nat) : Nat := x.1 + 4 * x.2.1 + 8 * x.2.2

/-- Sends the issuer's streams: one transaction each, acknowledged once. -/
def State.sendStream (s : State) (id : Nat) (b : Bytes) (epoch : Nat) (data : Bytes) (x : Nat × Nat × Nat) : State :=
  let n := s.nextTxn
  let dst := s.topo.step s.node x.1 x.2.1
  let t : Txn := { txn := n, use := .desc id, kind := kCOLL, sub := skBCAST_DATA, dst := dst, sent := s.tick, addr := 0, len := 0, off := 0 }
  let h := collHeader skBCAST_DATA 0 (Bc.axes b) (streamByte x) (Bc.bucket b) (Bc.step b)
  let s1 := { s with nextTxn := (n + 1) % 2 ^ 32, txns := s.txns ++ [t] }
  (cutsBy 2032 (Bc.dst b) data.length).foldl (fun s c =>
    s.send (s.packet dst kCOLL epoch n h (bcastData (Bc.dst b % 2 ^ 48) data.length c.1 (slice data c.1 c.2)))) s1

def State.setParamStep (s : State) (b step : Nat) : State := { s with grad := { s.grad with paramStep := s.grad.paramStep.set 0 b step } }

/-- A BCAST may run: a mirrored primary's forward has been acknowledged (R331). -/
def State.bcastMayRun (s : State) (b : Bytes) : Bool :=
  match s.bucketRec (Bc.bucket b), s.role (Bc.bucket b) with
  | some r, some false => Bc.bucket b == 0xFFFFFFFF || !r.mirrored || (s.bkt (Bc.bucket b)).fwdDone
  | _, _ => true

/-- BUCKET is named and the bucket is not RELEASED for STEP here, or the mirror names receivers (R327). -/
def State.bcastBucketOk (s : State) (b : Bytes) : Bool :=
  let k := Bc.bucket b
  k == 0xFFFFFFFF ||
    (match s.role k with
      | some m => (s.bkt k).eff == .released && (s.bkt k).step == Bc.step b && (!m || Bc.axes b == 0)
      | none => false)

/-- Starts the write-back of R325. -/
def State.startWriteBack (s : State) (b : Nat) : State :=
  let x := s.bkt b
  let r := x.pf
  if x.pfStarted && !x.pfFailed && r.writeback && r.src != 0 then
    (s.wakeAll (s.rangeDomains r.src r.bytes ++ s.rangeDomains r.stage r.bytes)).setBkt b { x with wbBusy := true, wb := r }
  else s

/-- Runs a BCAST (R327, R328, R332). A mirror's buffer that takes in the forward of the next step already is not cleared.
DESIGN CHOICE: notes/assumptions/108.md. -/
def State.runBcast (s : State) (d : Desc) : State :=
  let b := d.bytes
  let k := Bc.bucket b
  if !s.bcastBucketOk b then s.setWork d.id (.done stBAD_DESCRIPTOR 0 0)
  else if s.touchesRetired (Bc.src b) (Bc.bytes b) then s.setWork d.id (.done stRETIRED_PAGE 0 0)
  else
    let s1 := if k = 0xFFFFFFFF then s
      else
        let buf := s.bktBuf k
        let s0 := if 0 < (s.bkt k).fwdNext then s else s.zeroOutside buf.1 buf.2
        ((s0.startWriteBack k).reopen k (Bc.step b + 1) false).setParamStep k (Bc.step b)
    let data := s1.readBytes (Bc.src b) (Bc.bytes b)
    let s2 := (s1.setWork d.id (.bcast stOK))
    let s3 := (s2.topo.issuerStreams (Bc.axes b)).foldl (fun s x => s.sendStream d.id b d.epoch data x) s2
    let s4 := if k ≠ 0xFFFFFFFF ∧ (s3.peerOf k).isSome then
        let f := fingerprint data
        let x := s3.fp k
        ((s3.setFp k { x with own := some f, src := Bc.src b, bytes := Bc.bytes b }).sendFp k fpRUN f 0).compareFp k
      else s3
    match s4.desc? d.id with
    | some e => s4.endBcast e
    | none => s4

end Sys2Proof.Machine
end

