-- ==== Sys2Proof/Machine/Movers.lean ====
section
/-! DEFINITION. The data movers of a cluster (06, 08, 14, 15): issuer checks and the running of COPY, RACC, GATHER, DROP, BCAST,
PERMUTE, GATE and SIGNAL. -/

namespace Sys2Proof.Machine

/-! ### Ranges (R24, R26, R28, R164) -/

/-- Local starts of the rows of a range. -/
def rowStarts (a stride rows : Nat) : List Nat := (List.range rows).map fun r => a + r * stride

/-- Every row obeys R28 on this module; a source may lie in the Calico table. -/
def State.rowsOk (s : State) (a stride rows len : Nat) (calico : Bool) : Bool :=
  (rowStarts a stride rows).all fun x => s.populated x len || (calico && inCalico x len)

def State.rowsRetired (s : State) (a stride rows len : Nat) : Bool := (rowStarts a stride rows).any fun x => s.touchesRetired x len

/-- Every row of a range lies in a local address space, which ends at 2^48 (R24); one that the destination writes lies outside control space
(R164). -/
def rowsInSpace (a stride rows len : Nat) (written : Bool) : Bool := (rowStarts a stride rows).all fun x =>
  decide (x + len ≤ 2 ^ 48) && !(written && ((winOf x).1 == .control || (winOf (x + len - 1)).1 == .control))

/-- The global ranges of a copy: R26 and R28 for what lies here and for what the address map shows, no overlap on one module, then retired
pages here (R164).
DEDUCED: notes/assumptions/28.md, notes/assumptions/49.md. -/
def State.copyRanges (s : State) (src sst dst dst_ rows len : Nat) : Nat :=
  let sHere := s.isSelf (gaNode src)
  let dHere := s.isSelf (gaNode dst)
  let same := s.nodeAs (gaNode src) == s.nodeAs (gaNode dst)
  let hit := (rowStarts (gaLocal src) sst rows).any fun x => (rowStarts (gaLocal dst) dst_ rows).any fun y => overlap x len y len
  if !(s.nodeOk (gaNode src) && s.nodeOk (gaNode dst)) then stBAD_DESCRIPTOR
  else if !(rowsInSpace (gaLocal src) sst rows len false && rowsInSpace (gaLocal dst) dst_ rows len true) then stBAD_DESCRIPTOR
  else if sHere && !s.rowsOk (gaLocal src) sst rows len true then stBAD_DESCRIPTOR
  else if dHere && !s.rowsOk (gaLocal dst) dst_ rows len false then stBAD_DESCRIPTOR
  else if same && hit then stBAD_DESCRIPTOR
  else if sHere && s.rowsRetired (gaLocal src) sst rows len then stRETIRED_PAGE
  else if dHere && s.rowsRetired (gaLocal dst) dst_ rows len then stRETIRED_PAGE
  else stOK

/-- The last check of every type: the executing cluster is present (R160). -/
def State.unitLast (s : State) (n st : Nat) : Nat := if st ≠ stOK then st else if s.clusterPresent n then stOK else stUNSUPPORTED

/-! ### Issuer checks -/

/-- Table 8.4 and R164. -/
def State.copyCheck (s : State) (n : Nat) (b : Bytes) : Nat :=
  let fields := Cp.src b % 8 == 0 && Cp.dst b % 8 == 0 && decide (8 ≤ Cp.bytes b ∧ Cp.bytes b ≤ 2 ^ 30) && Cp.bytes b % 8 == 0 &&
    decide (1 ≤ Cp.rows b ∧ Cp.rows b ≤ 65536) && Cp.srcStride b % 8 == 0 && Cp.dstStride b % 8 == 0 &&
    (Cp.rows b == 1 || decide (Cp.bytes b ≤ Cp.dstStride b)) && zeros b 0x38 8
  s.unitLast n (if !fields then stBAD_DESCRIPTOR
    else s.copyRanges (Cp.src b) (Cp.srcStride b) (Cp.dst b) (Cp.dstStride b) (Cp.rows b) (Cp.bytes b))

/-- The axis that carries cut 1, if any. -/
def Topology.cutAxis (t : Topology) (cut : Nat) : Option Nat := t.cutOfAxis.findIdx? (· == cut)

/-- Distance of this module from the owner on the compressed ring, none off the ring (R308). -/
def State.ringDist (s : State) (owner : Nat) : Option Nat :=
  match s.topo.cutAxis 1 with
  | none => none
  | some a =>
    let n := s.topo.size a
    if (List.range 4).all fun c => c == a || coord s.node c == coord owner c then some ((coord s.node a + n - coord owner a) % n) else none

/-- Alignment of SRC (and RET) and of DST (Table 6.6). -/
def racAlign (op : Nat) : Nat × Nat := if op = 2 ∨ op = 5 then (8, 8) else if op = 3 then (16, 16) else if op = 4 then (4, 16) else (4, 4)

/-- Table 14.2. -/
def State.racBucketOk (s : State) (b : Bytes) : Bool :=
  match s.coll, s.bucketRec (Rc.bucket b) with
  | some c, some r =>
    let toOwner := gaNode (Rc.dst b) == r.owner || (gaNode (Rc.dst b) == 0xFFFF && r.owner == s.node)
    let opOk := if c.reduceFormat = 0 then Rc.op b == 0 else (Rc.op b == 3 || Rc.op b == 4) && (r.compress != 1 || Rc.op b == 4)
    let ring := r.compress != 2 || ((s.ringDist r.owner).isSome && Rc.count b == r.elements)
    toOwner && opOk && ring
  | _, _ => false

/-- An RACC destination lies in a cluster store, a link buffer or the near tier (R127, step 3). -/
def racWindow (a : Nat) : Bool := match (winOf a).1 with
  | .near _ => true
  | .store _ => true
  | .link _ => true
  | _ => false

/-- R127 and R303. That a range lies in one window of the address map is seen here; the destination sees whether that window is populated so far
(step 6).
DESIGN CHOICE: notes/assumptions/101.md. -/
def State.raccCheck (s : State) (n : Nat) (b : Bytes) : Nat :=
  let op := Rc.op b
  let al := racAlign op
  let srcLen := Rc.count b * racSrc op
  let swap := op == 5
  let fields := decide (op ≤ 5) && decide (1 ≤ Rc.count b ∧ Rc.count b ≤ 16777216) && zeros b 0x25 3 && zeros b 0x2C 4 && zeros b 0x38 8 &&
    Rc.src b % al.1 == 0 && Rc.dst b % al.2 == 0 && (if swap then Rc.ret b % 8 == 0 else Rc.ret b == 0) && s.nodeOk (gaNode (Rc.dst b))
  let dst := gaLocal (Rc.dst b)
  s.unitLast n (
    if !fields then stBAD_DESCRIPTOR
    else if Rc.bucket b != 0xFFFFFFFF && !s.racBucketOk b then stBAD_DESCRIPTOR
    else if !racWindow dst then stUNSUPPORTED
    else if !(s.inOneWindow (Rc.src b) srcLen && (!swap || s.inOneWindow (Rc.ret b) srcLen)) then stBAD_DESCRIPTOR
    else if s.touchesRetired (Rc.src b) srcLen || (swap && s.touchesRetired (Rc.ret b) srcLen) then stRETIRED_PAGE
    else if s.isSelf (gaNode (Rc.dst b)) && !s.inOneWindow dst (Rc.count b * racDst op) then stBAD_DESCRIPTOR
    else if (winOf dst).1 != (winOf (dst + Rc.count b * racDst op - 1)).1 then stBAD_DESCRIPTOR
    else stOK)

/-- GATHER descriptors of KIND 1 that have not completed. -/
def State.rootGathers (s : State) : Nat :=
  (s.descs.filter fun d => dType d.bytes == tyGATHER && Ga.kind d.bytes == 1 && (match d.work with
    | .done _ _ _ => false
    | _ => true)).length

/-- GATHER (R320, R321, R329). -/
def State.gatherCheck (s : State) (n : Nat) (b : Bytes) : Nat :=
  let kind := Ga.kind b
  let len := Ga.bytes b
  let paramOk := Ga.node b == 0 && Ga.src b % 8 == 0 && Ga.dst b % 8 == 0 && decide (Ga.dst b < 2 ^ 48) &&
    decide (8 ≤ len ∧ len ≤ 2 ^ 30) && len % 8 == 0 && Ga.fill b == 0
  let rootOk := Ga.src b == 0 && Ga.dst b % 32 == 0 && decide (Ga.dst b + 32 ≤ storeSize) && len == 0 && Ga.fill b == 0 &&
    Ga.needStep b == 0 && Ga.deadline b == 0 && decide (Ga.object b < 4096) && s.nodeOk (Ga.node b)
  s.unitLast n (
    if kind > 1 || !zeros b 0x11 1 then stBAD_DESCRIPTOR
    else if kind = 0 then
      (if !paramOk then stBAD_DESCRIPTOR else s.copyRanges (Ga.src b) 0 (0xFFFF * 2 ^ 48 + Ga.dst b) 0 1 len)
    else if !rootOk then stBAD_DESCRIPTOR
    else if s.isSelf (Ga.node b) && (s.factorRec (Ga.object b)).isNone then stBAD_DESCRIPTOR
    else if 1024 ≤ s.grad.roots.length + s.rootGathers then stBAD_DESCRIPTOR
    else stOK)

/-- The hold that a handle names. -/
def State.rootOf (s : State) (h : Nat) : Option (Nat × Nat × Nat × Nat) := s.grad.roots.find? (·.1 == h)

/-- DROP (R320, R322, R330). -/
def State.dropCheck (s : State) (n : Nat) (b : Bytes) : Nat :=
  let kind := Ga.kind b
  let len := Ga.bytes b
  let common := Ga.src b == 0 && Ga.needStep b == 0 && Ga.deadline b == 0
  let paramOk := common && Ga.node b == 0 && Ga.object b == 0 && Ga.dst b % 8 == 0 && decide (8 ≤ len ∧ len ≤ 2 ^ 30) && len % 8 == 0
  let rootOk := common && Ga.dst b == 0 && len == 0 && Ga.fill b == 0 && s.nodeOk (Ga.node b) && (s.rootOf (Ga.object b)).isSome
  s.unitLast n (
    if kind > 1 || !zeros b 0x11 1 then stBAD_DESCRIPTOR
    else if kind = 1 then (if rootOk then stOK else stBAD_DESCRIPTOR)
    else if !paramOk || !s.populated (Ga.dst b) len then stBAD_DESCRIPTOR
    else if s.touchesRetired (Ga.dst b) len then stRETIRED_PAGE
    else stOK)

/-- BCAST (R326, R327). -/
def State.bcastCheck (s : State) (n : Nat) (b : Bytes) : Nat :=
  let len := Bc.bytes b
  let fields := Bc.src b % 8 == 0 && decide (Bc.dst b < 2 ^ 48) && decide (8 ≤ len ∧ len ≤ 2 ^ 30) && len % 8 == 0 &&
    decide (Bc.axes b < 16) && zeros b 0x29 7 && zeros b 0x38 8 && (Bc.bucket b != 0xFFFFFFFF || Bc.step b == 0)
  s.unitLast n (
    if !fields || !s.bcastBucketOk b || !s.populated (Bc.src b) len then stBAD_DESCRIPTOR
    else if s.touchesRetired (Bc.src b) len then stRETIRED_PAGE
    else stOK)

def pmFinal (b : Bytes) : Bool := (Pm.ctrl b).testBit 0

/-- PERMUTE (Table 15.6). -/
def State.permuteCheck (s : State) (n : Nat) (b : Bytes) : Nat :=
  let len := Pm.bytes b
  let fields := Pm.src b % 8 == 0 && Pm.dst b % 8 == 0 && decide (len ≤ 2 ^ 30) && len % 8 == 0 && (len != 0 || pmFinal b) &&
    decide (Pm.ctrl b < 2) && zeros b 0x29 7 && zeros b 0x34 12 && decide (Pm.src b < 2 ^ 48) && s.nodeOk (gaNode (Pm.dst b))
  s.unitLast n (
    if !fields then stBAD_DESCRIPTOR
    else if s.dmk.pendingImage.isNone || Pm.epoch b != s.epochPending then stEPOCH_STALE
    else if Pm.bucket b != 0xFFFFFFFF && (s.role (Pm.bucket b)).isNone then stBAD_DESCRIPTOR
    else if pmFinal b && s.descs.any (fun d => dType d.bytes == tyPERMUTE && pmFinal d.bytes) then stBAD_DESCRIPTOR
    else if len = 0 then stOK
    else s.copyRanges (0xFFFF * 2 ^ 48 + Pm.src b) 0 (Pm.dst b) 0 1 len)

/-- GATE (R313). -/
def State.gateCheck (s : State) (n : Nat) (b : Bytes) : Nat :=
  let collOk := match s.coll with
    | some c => !c.buckets.isEmpty
    | none => false
  let ok := Gt.step b == s.grad.openStep && collOk && s.gateDesc.isNone && Gt.decOff b % 64 == 0 && decide (Gt.decOff b + 64 ≤ storeSize) &&
    Gt.listOff b % 8 == 0 && decide (Gt.listOff b + 4 * s.bucketsHere.length ≤ storeSize) && decide (Gt.ready b < 64) && zeros b 0x21 31
  s.unitLast n (if ok then stOK else stBAD_DESCRIPTOR)

/-- FENCE (R165). -/
def fenceCheck (iss : Issuer) (b : Bytes) : Nat :=
  let scopeOk := match iss with
    | .core _ => Fe.scope b == 0
    | .host _ => decide (Fe.scope b ≤ 1)
  if scopeOk && zeros b 0x11 47 then stOK else stBAD_DESCRIPTOR

/-- SIGNAL (R166); for a remote NODE the last check is made there. -/
def State.signalCheck (s : State) (b : Bytes) : Nat :=
  if !(decide (Sg.counter b < 64) && s.nodeOk (Sg.node b) && zeros b 0x1A 38) then stBAD_DESCRIPTOR
  else if s.isSelf (Sg.node b) && !s.clusterPresent (dTarget b) then stUNSUPPORTED
  else stOK

/-! ### Running -/

/-! ### Packets to another module, and what they bring back (R28, R127, R164) -/

/-- Module, kind and subkind of a descriptor's data packets. -/
def laterKind (b : Bytes) : Nat × Nat × Nat :=
  if dType b = tyCOPY then (gaNode (Cp.dst b), kWRITE, 0)
  else if dType b = tyPERMUTE then (gaNode (Pm.dst b), kCOLL, skPERMUTE_DATA)
  else (gaNode (Rc.dst b), kRACC, 0)

/-- Sends one of them. -/
def State.sendElements (d : Desc) (s : State) (x : Later) : State :=
  let k := laterKind d.bytes
  s.request (.desc d.id) k.1 k.2.1 k.2.2 d.epoch x.hdr x.data x.addr x.len x.off

/-- Sends those that have waited. -/
def State.sendLater (s : State) (d : Desc) : State :=
  d.later.foldl (State.sendElements d) (s.updDesc d.id fun e => { e with later := [] })

/-- The destination is asked whether a range of it passes: the range is read, and what it holds is dropped. -/
def State.askDest (d : Desc) (s : State) (r : Nat × Nat) : State :=
  s.request (.desc d.id) (gaNode r.1) kREAD_REQ 0 d.epoch (opHeader (gaLocal r.1) r.2 0 0 0 0) [] 0 r.2 0

/-- Sends packets after the destination has passed every range, so that a range which it refuses moves no data; a lone packet is its own
question. The phase that follows.
DESIGN CHOICE: notes/assumptions/101.md. -/
def State.sendChecked (s : State) (d : Desc) (ps : List Later) : State × Nat :=
  if ps.length < 2 then (ps.foldl (State.sendElements d) s, 0)
  else (ps.foldl (fun s x => s.askDest d (x.addr, x.len)) (s.updDesc d.id fun e => { e with later := ps }), 3)

/-- Writes of `b` to a global range, a packet each. -/
def writePackets (ga : Nat) (b : Bytes) : List Later := (cuts (gaLocal ga) b.length).map fun c =>
  { hdr := opHeader (gaLocal ga + c.1) c.2 0 0 0 0, data := slice b c.1 c.2, addr := ga + c.1, len := c.2, off := c.1 }

/-- A mover's write, of which the words on a retired page are refused (R265). -/
def State.moverWriteOk (s : State) (id a : Nat) (b : Bytes) : State × Nat :=
  if !s.touchesRetired a b.length then (s.moverWrite id a b, stOK)
  else ((chunks 8 b).foldl (fun x c => (if x.1.touchesRetired x.2 c.length then x.1 else x.1.moverWrite id x.2 c, x.2 + c.length)) (s, a) |>.1, stRETIRED_PAGE)

/-- Data that came for a descriptor go to their places on this module: the bytes of a COPY or GATHER, and a SWAP's old values; a refused write
loses them (R127, R265). -/
def State.placeGot (s : State) (d : Desc) : State × Nat :=
  d.got.foldl (fun x e => let y := x.1.moverWriteOk d.id (gaLocal e.1) e.2; (y.1, worse x.2 y.2)) (s.updDesc d.id fun e => { e with got := [] }, stOK)

/-- Domains and tier units of those places. -/
def State.gotDomains (s : State) (d : Desc) : List Nat := d.got.flatMap fun e => s.rangeDomains (gaLocal e.1) e.2.length

/-- The descriptor still waits for a partner, or for a request of its own to this module's memory. -/
def State.outstandingFor (s : State) (id : Nat) : Bool := (s.txns.any fun t => t.use == .desc id) || s.hif.waiting.any fun w => match w.req with
  | .task (.piece i _ _) _ => i == id
  | _ => false

/-- Sends the BUCKET packet of an RACC (R304). -/
def State.sendBucket (s : State) (d : Desc) (count : Nat) : State :=
  let b := d.bytes
  s.request (.desc d.id) (gaNode (Rc.dst b)) kBUCKET 0 d.epoch
    (leBytes 4 (Rc.bucket b) ++ leBytes 2 count ++ leBytes 1 (Rc.op b) ++ leBytes 1 0 ++ leBytes 8 d.step) [] 0 0 0

/-- A descriptor's data have moved: an RACC that names a bucket counts at it, and the completion is owed; a FINAL goes on to its switch. -/
def State.endRemote (s : State) (d : Desc) (phase st fl : Nat) (r : Word) : State :=
  let counts := dType d.bytes == tyRACC && Rc.bucket d.bytes != 0xFFFFFFFF && st == stOK && !d.dropped
  if counts && phase == 0 then (s.sendBucket d 1).setWork d.id (.remote 1 st fl r)
  else if counts && phase == 4 then (s.countBucket (Rc.bucket d.bytes) 1 d.step).setWork d.id (.done st fl r)
  else if dType d.bytes == tyPERMUTE && pmFinal d.bytes then s.setWork d.id (.final (if st = stOK ∧ d.dropped then stBANK_CONFLICT else st))
  else s.setWork d.id (.done st fl r)

/-- What was read for a COPY moves on: to its places here, or to a third module. A read that failed moves nothing. -/
def State.moveGot (s : State) (d : Desc) (phase st fl : Nat) (r : Word) : State :=
  if phase = 2 ∧ st ≠ stOK then (s.updDesc d.id fun e => { e with got := [] }).endRemote d 0 st fl r
  else if phase = 2 ∧ !s.isSelf (gaNode (Cp.dst d.bytes)) then
    let x := (s.updDesc d.id fun e => { e with got := [] }).sendChecked d (d.got.flatMap fun e => writePackets e.1 e.2)
    x.1.setWork d.id (.remote x.2 st fl r)
  else if !(s.asleep (s.gotDomains d)).isEmpty then s.putOff (.place d.id (s.gotDomains d)) (s.gotDomains d)
  else let x := s.placeGot d; x.1.setWork d.id (.remote (if phase = 2 then 0 else phase) (worse st x.2) fl r)

/-- The destination's word on a range: an RACC stops only for a range that does not pass (R127), every other type for any failure. -/
def passesOn (b : Bytes) (st : Nat) : Bool := st == stOK || (dType b == tyRACC && st == stRETIRED_PAGE)

/-- One step of a descriptor with nothing outstanding: what it has still to send or to place, then its end. -/
def State.remoteStep (s : State) (id : Nat) : State :=
  match s.desc? id with
  | none => s
  | some d => match d.work with
    | .remote phase st fl r =>
      if s.outstandingFor id || !d.retry.isEmpty then s
      else if phase = 3 then
        (if passesOn d.bytes st then (s.sendLater d).setWork id (.remote 0 st fl r)
         else (s.updDesc id fun e => { e with later := [] }).endRemote { d with later := [] } 1 st fl r)
      else if phase = 5 then
        -- the destination has passed the range: the RACC may thin or compress, and runs
        (if passesOn d.bytes st then (s.updDesc id fun e => { e with asked := true, ces := [] }).setWork id .queued else s.endRemote d 1 st fl r)
      else if !d.later.isEmpty && st != stBAD_DESCRIPTOR then s.sendLater d
      else if !d.got.isEmpty then s.moveGot d phase st fl r
      else s.endRemote d phase st fl r
    | _ => s

/-- Carries it as far as it goes: a step that leaves something to place or to send is followed by another. -/
def State.finishRemote (s : State) (id : Nat) : State := ((s.remoteStep id).remoteStep id).remoteStep id

/-- After a descriptor's own part: its completion is owed, or it waits for its transactions or its contested words. -/
def State.settle (s : State) (d : Desc) (status flags : Nat) (result : Word := 0) (phase : Nat := 0) : State :=
  (s.setWork d.id (.remote phase status flags result)).finishRemote d.id

/-- One row from this module to a place on it. -/
def State.moveRow (s : State) (d : Desc) (src dst len : Nat) : State :=
  (s.moverWrite d.id (gaLocal dst) (s.readSrc (gaLocal src) len)).afterRead (gaLocal src) len

/-- COPY (R164). A range of another module is checked there, before any data move (R28). -/
def State.runCopy (s : State) (d : Desc) : State :=
  let b := d.bytes
  let st := s.copyRanges (Cp.src b) (Cp.srcStride b) (Cp.dst b) (Cp.dstStride b) (Cp.rows b) (Cp.bytes b)
  let rows := (List.range (Cp.rows b)).map fun r => (Cp.src b + r * Cp.srcStride b, Cp.dst b + r * Cp.dstStride b)
  let n := Cp.bytes b
  if st ≠ stOK then s.setWork d.id (.done st 0 0)
  else if s.isSelf (gaNode (Cp.src b)) then
    if s.isSelf (gaNode (Cp.dst b)) then (rows.foldl (fun s r => s.moveRow d r.1 r.2 n) s).settle d stOK 0
    else
      let x := s.sendChecked d (rows.flatMap fun r => writePackets r.2 (s.readSrc (gaLocal r.1) n))
      (rows.foldl (fun s r => s.afterRead (gaLocal r.1) n) x.1).settle d stOK 0 0 x.2
  else (rows.foldl (fun s r => s.sendReads (.desc d.id) d.epoch r.1 r.2 n) s).settle d stOK 0 0 2

/-- Elements per packet (R281), for elements of `w` bytes cut at the 2 KiB boundaries of the destination, or by count alone for
cells and terms. Each entry: first element and count. -/
def racCuts (op dst count : Nat) : List (Nat × Nat) :=
  if op = 3 then runsOf 21 count
  else if op = 4 then runsOf 512 count
  else let w := racDst op; (cuts dst (count * w)).map fun c => (c.1 / w, c.2 / w)

/-- Runs of consecutive numbers of a rising list: the first number and the length of each. -/
def runsIn (l : List Nat) : List (Nat × Nat) :=
  l.foldr (fun i acc => match acc with
    | (j, n) :: r => if j = i + 1 then (i, n + 1) :: r else (i, 1) :: acc
    | [] => [(i, 1)]) []

/-- Source element `i` of an RACC may be read: it touches no retired page (R127, R265).
DESIGN CHOICE: notes/assumptions/94.md. -/
def State.racServed (s : State) (b : Bytes) (i : Nat) : Bool := let w := racSrc (Rc.op b); !s.touchesRetired (Rc.src b + i * w) w

/-- Elements `i0` to `i0 + n − 1` of an RACC whose source reads are served, as runs.
DESIGN CHOICE: notes/assumptions/94.md. -/
def State.racRuns (s : State) (b : Bytes) (i0 n : Nat) : List (Nat × Nat) :=
  runsIn (((List.range n).map (i0 + ·)).filter (s.racServed b))

/-- Of the packets of an RACC, the last goes first, so that a range which its destination refuses has no element added (R127); the others wait for
its answer. Where the last element is not sent, the destination is asked about its place alone. The phase that follows.
DESIGN CHOICE: notes/assumptions/101.md. -/
def State.sendLast (s : State) (d : Desc) (ps : List Later) : State × Nat :=
  let b := d.bytes
  let w := racDst (Rc.op b)
  let i := Rc.count b - 1
  if !s.racServed b i then ((s.updDesc d.id fun e => { e with later := ps }).askDest d (Rc.dst b + i * w, w), 3)
  else match ps.getLast? with
    | some x => ((s.sendElements d x).updDesc d.id fun e => { e with later := ps.dropLast }, 0)
    | none => (s, 0)

/-- The packets of an RACC; an element whose source read is refused is in none of them (R127). -/
def State.raccPackets (s : State) (b : Bytes) : List Later :=
  let op := Rc.op b
  let dst := gaLocal (Rc.dst b)
  ((racCuts op dst (Rc.count b)).flatMap fun c => s.racRuns b c.1 c.2).map fun c =>
    let data := s.readBytes (Rc.src b + c.1 * racSrc op) (c.2 * racSrc op)
    { hdr := opHeader (dst + c.1 * racDst op) data.length op 0 0 0, data := data, addr := Rc.ret b + c.1 * 8, len := c.2 * racSrc op, off := c.1 }

/-- Sends the RACC packets. -/
def State.sendRacc (s : State) (d : Desc) : State × Nat := s.sendLast d (s.raccPackets d.bytes)

/-- Whole groups go two to a packet; a short one ends its packet. Each entry: first element, encoded bytes and the elements of
the last group.
DESIGN CHOICE: notes/assumptions/23.md, notes/assumptions/94.md. -/
def voilePackets : List (Nat × Bytes × Nat) → List (Nat × Bytes × Nat)
  | (i, w, n) :: (j, w', n') :: r =>
    if n = 256 ∧ j = i + 256 then (i, w ++ w', n') :: voilePackets r else (i, w, n) :: voilePackets ((j, w', n') :: r)
  | l => l

/-- A run of source elements thinned in place (R305): what travels joins the list, and the flags. The residuals go back through the
movement port (R241). -/
def State.thinRun (id : Nat) (b : Bytes) (acc : State × List (Nat × Bytes × Nat) × Nat) (g : Nat × Nat) : State × List (Nat × Bytes × Nat) × Nat :=
  let v := voileGroup ((List.range g.2).map fun i => acc.1.readNat (Rc.src b + 4 * (g.1 + i)) 4)
  let t := acc.1.moverWrite id (Rc.src b + 4 * g.1) (v.1.2.2.flatMap (leBytes 4))
  (t, acc.2.1 ++ [(g.1, voileWire v.1.1 v.1.2.1, g.2)], acc.2.2 ||| v.2)

/-- The decoded elements of an encoded group, applied here. -/
def applyGroup (op dst : Nat) (acc : Applied) (g : Nat × Bytes × Nat) : Applied :=
  let q := applyElements acc.st op (dst + g.1 * racDst op) ((voileDecode g.2.1 g.2.2).map (leBytes 4))
  { st := q.st, status := worse acc.status q.status, flags := acc.flags ||| q.flags }

/-- Voile: sources thinned group by group, residuals written back, and what travels (R305, R307). Elements whose source read is
refused are left out of their group, which then travels as shorter ones (R127).
DESIGN CHOICE: notes/assumptions/94.md. -/
def State.runVoile (s : State) (d : Desc) : State :=
  let b := d.bytes
  let op := Rc.op b
  let dst := gaLocal (Rc.dst b)
  let here := s.isSelf (gaNode (Rc.dst b))
  let runs := (runsOf 256 (Rc.count b)).flatMap fun g => s.racRuns b g.1 g.2
  let st0 := if (runs.map (·.2)).sum < Rc.count b then stRETIRED_PAGE else stOK
  let r := runs.foldl (State.thinRun d.id b) (s, [], 0)
  let gs := r.2.1
  if here && s.epochCheck kRACC d.epoch != .accept then r.1.setWork d.id (.done stEPOCH_STALE r.2.2 0)
  else if here then
    let a := gs.foldl (applyGroup op dst) { st := r.1, status := st0 }
    a.st.settle d a.status (r.2.2 ||| a.flags) 0 4
  else
    let s1 := r.1.sendLast d ((voilePackets gs).map fun c =>
      let h := opHeader (dst + c.1 * racDst op) c.2.1.length (op + 0x80) 0 0 0
      -- the element count of a short last group takes the place of the reserved bytes 0x1E (DESIGN CHOICE: notes/assumptions/23.md)
      { hdr := h.take 14 ++ leBytes 2 (if c.2.2 = 256 then 0 else c.2.2), data := c.2.1, addr := 0, len := 0, off := c.1 })
    s1.1.settle d st0 r.2.2 0 s1.2

/-- Source element `i` of a ring RACC, +0 in place of one whose read is refused (R127).
DESIGN CHOICE: notes/assumptions/94.md. -/
def State.ringSource (s : State) (b : Bytes) (i : Nat) : Nat := if s.racServed b i then s.readNat (Rc.src b + 4 * i) 4 else 0

/-- M bytes of a member's own part (R310). -/
def State.ringMaxes (s : State) (b : Bytes) : Bytes :=
  (List.range (ceilDiv (Rc.count b) 64)).map fun k =>
    let xs := (List.range (min 64 (Rc.count b - 64 * k))).map fun i => s.ringSource b (64 * k + i)
    BitVec.ofNat 8 (wrap 8 (ringMax xs))

def State.pass (s : State) (b : Nat) : RingPass := s.grad.passes.get {} b
def State.setPass (s : State) (b : Nat) (x : RingPass) : State := { s with grad := { s.grad with passes := s.grad.passes.set {} b x } }

/-- The next and the previous module of the ring in the positive direction. -/
def State.ringNext (s : State) : Nat := match s.topo.cutAxis 1 with
  | some a => s.topo.step s.node a 0
  | none => s.node

/-- The running ring RACC of bucket `b` at this member. -/
def State.ringDesc (s : State) (b : Nat) : Option Desc := s.descs.find? fun d => dType d.bytes == tyRACC && Rc.bucket d.bytes == b &&
  (match d.work with
    | .ring _ _ _ _ _ _ => true
    | _ => false)

/-- Sends M or code bytes on, 2,048 to a packet. -/
def State.sendBytes (s : State) (dst sub b step : Nat) (data : Bytes) : State :=
  (chunks 2048 data).foldl (fun s c => s.sendColl dst sub 0 0 0 b step c) s

/-- One block of the pass at a member (R311). An element whose read is refused adds +0 and takes no residual (R127).
DESIGN CHOICE: notes/assumptions/94.md. -/
def State.ringBlock (s : State) (d : Desc) (dist i : Nat) (inn : Option Bytes) (scale : Nat) : State :=
  let b := d.bytes
  match s.work? d.id with
  | some (.ring blocks resc bf fl st bk) =>
    let n := min 64 (Rc.count b - 64 * i)
    let xs := (List.range 64).map fun j => if j < n then s.ringSource b (64 * i + j) else 0
    let lost := (List.range n).any fun j => !s.racServed b (64 * i + j)
    let h := ringHop inn scale xs
    let (out, res, isR, isB, f) := h
    let s1 := (s.racRuns b (64 * i) n).foldl (fun s r =>
      s.moverWrite d.id (Rc.src b + 4 * r.1) (((res.drop (r.1 - 64 * i)).take r.2).flatMap (leBytes 4))) s
    let g := s1.grad
    let s2 := { s1 with grad := { g with rescales := min (g.rescales + b2n isR) 0xFFFF, bf16Blocks := min (g.bf16Blocks + b2n isB) 0xFFFF } }
    let s3 := s2.collRequest (.desc d.id) s2.ringNext skRING_DATA 0 0 0 (Rc.bucket b) d.step out.bytes 0 0 i
    s3.setWork d.id (.ring (blocks + 1) (resc + b2n isR) (bf + b2n isB) (fl ||| f)
      (if lost then worse st stRETIRED_PAGE else st) bk)
  | _ => let _ := dist; s

/-- Carries a pass as far as what has arrived allows: M bytes on, then blocks. -/
def State.ringAdvance (s : State) (bk : Nat) : State :=
  match s.ringDesc bk, s.bucketRec bk with
  | some d, some r =>
    match s.ringDist r.owner with
    | none => s
    | some dist =>
      let nb := ceilDiv (Rc.count d.bytes) 64
      let p := s.pass bk
      let own := s.ringMaxes d.bytes
      let s1 :=
        if p.maxSent then s
        else if dist = 1 then (s.sendBytes s.ringNext skRING_MAX bk d.step own).setPass bk { p with maxSent := true }
        else if p.maxIn.length = nb then
          (s.sendBytes s.ringNext skRING_MAX bk d.step ((p.maxIn.zip own).map fun x => ringMerge x.1 x.2)).setPass bk { p with maxSent := true }
        else s
      let p1 := s1.pass bk
      if !p1.maxSent then s1
      else if dist = 1 then
        if p1.scale.length = nb ∧ p1.taken < nb then
          ((List.range nb).foldl (fun s i => s.ringBlock d dist i none (field p1.scale i 1)) s1).setPass bk { p1 with taken := nb }
        else s1
      else go d dist bk nb nb s1
  | _, _ => s
where
  /-- Takes whole blocks off `waiting`. -/
  go (d : Desc) (dist bk nb : Nat) : Nat → State → State
    | 0, s => s
    | k + 1, s =>
      let p := s.pass bk
      let len := ringBlockLen p.waiting
      if p.taken < nb ∧ 4 ≤ p.waiting.length ∧ len ≤ p.waiting.length then
        let s1 := s.ringBlock d dist p.taken (some (p.waiting.take len)) 0
        go d dist bk nb k (s1.setPass bk { s1.pass bk with taken := p.taken + 1, waiting := p.waiting.drop len })
      else s

/-- The ranges of an RACC on this module are populated still: a cluster can become absent at the wake that the RACC waits for (R18, R28). -/
def State.racRangesOk (s : State) (b : Bytes) : Bool :=
  let n := Rc.count b * racSrc (Rc.op b)
  s.inOneWindow (Rc.src b) n && (Rc.op b != 5 || s.inOneWindow (Rc.ret b) n) &&
    (!s.isSelf (gaNode (Rc.dst b)) || s.inOneWindow (gaLocal (Rc.dst b)) (Rc.count b * racDst (Rc.op b)))

/-- The destination is asked about the place of an RACC's last element, and with it about its whole range, before a source is thinned or a pass
joined (R127, step 6).
DESIGN CHOICE: notes/assumptions/101.md. -/
def State.askFirst (s : State) (d : Desc) : State :=
  let w := racDst (Rc.op d.bytes)
  (s.askDest d (Rc.dst d.bytes + (Rc.count d.bytes - 1) * w, w)).setWork d.id (.remote 5 stOK 0 0)

/-- RACC (R127 to R131). One whose destination is here meets the epoch check as it is applied (R129), and its elements are read and applied one
after another, also where its ranges overlap.
DESIGN CHOICE: notes/assumptions/127.md. -/
def State.runRacc (s : State) (d : Desc) : State :=
  let b := d.bytes
  let op := Rc.op b
  let here := s.isSelf (gaNode (Rc.dst b))
  let compress := if Rc.bucket b = 0xFFFFFFFF then 0 else match s.bucketRec (Rc.bucket b) with
    | some r => r.compress
    | none => 0
  if !s.racRangesOk b then s.setWork d.id (.done stBAD_DESCRIPTOR 0 0)
  else if compress ≠ 0 ∧ ¬here ∧ d.asked = false then s.askFirst d
  else if compress = 2 ∧ ¬here then (s.setWork d.id (.ring 0 0 0 0 stOK false)).ringAdvance (Rc.bucket b)
  else if compress = 1 then s.runVoile d
  else
    let w := racSrc op
    let idx := (List.range (Rc.count b)).filter (s.racServed b)
    let st0 := if idx.length < Rc.count b then stRETIRED_PAGE else stOK
    if here && s.epochCheck kRACC d.epoch != .accept then s.setWork d.id (.done stEPOCH_STALE 0 0)
    else if here then
      let dst := gaLocal (Rc.dst b)
      let a := idx.foldl (fun (acc : Applied) i =>
        let r := applyElement acc.st op (dst + i * racDst op) (acc.st.readBytes (Rc.src b + i * w) w)
        let q := if op = 5 ∧ r.status = stOK then r.st.moverWriteOk d.id (Rc.ret b + i * 8) r.old else (r.st, stOK)
        { st := q.1, status := worse acc.status (worse r.status q.2), flags := acc.flags ||| r.flags }) { st := s, status := st0 }
      a.st.settle d a.status a.flags 0 4
    else let x := s.sendRacc d; x.1.settle d st0 0 0 x.2

/-- A request of a GATHER to this module: it waits while its memory serves no access, and is refused where a part is not populated, or lies on a
retired page, by then (R28, R251, R265). -/
def State.gatherHere (s : State) (d : Desc) (st : Nat) (retry : List (Nat × Nat × Nat)) (off len : Nat) : State :=
  let a := gaLocal (Ga.src d.bytes) + off
  let b := Ga.dst d.bytes + off
  let ds := s.rangeDomains a len ++ s.rangeDomains b len
  if !(s.asleep ds).isEmpty then s.putOff (.task (.piece d.id off len) ds) ds
  else if !((s.populated a len || inCalico a len) && s.populated b len) then s.setWork d.id (.gather (worse st stBAD_DESCRIPTOR) retry)
  else if s.touchesRetired a len || s.touchesRetired b len then s.setWork d.id (.gather (worse st stRETIRED_PAGE) retry)
  else (s.moverWrite d.id b (s.readSrc a len)).afterRead a len

/-- One request of a GATHER PARAM: served here, or sent as PARAM_READ (R329). -/
def State.gatherPiece (s : State) (d : Desc) (off len : Nat) : State :=
  let b := d.bytes
  let src := Ga.src b
  if s.isSelf (gaNode src) then
    match s.work? d.id with
    | some (.gather st retry) =>
      if s.grad.paramStep.get 0 (Ga.object b) < Ga.needStep b then s.setWork d.id (.gather st (retry ++ [(off, len, s.tick + 25)]))
      else s.gatherHere d st retry off len
    | _ => s
  else s.request (.desc d.id) (gaNode src) kCOLL skPARAM_READ d.epoch
    (collHeader skPARAM_READ 0 0 0 (Ga.object b) (Ga.needStep b)) (leBytes 8 (gaLocal src + off) ++ leBytes 4 len) (Ga.dst b + off) len off

/-- A GATHER PARAM with nothing outstanding places what has come, and is owed its completion; one that failed moves nothing. -/
def State.gatherEnd (s : State) (id : Nat) : State :=
  match s.work? id with
  | some (.gather st []) => match s.desc? id with
    | some d =>
      let ds := s.gotDomains d
      if s.outstandingFor id then s
      else if d.got.isEmpty || st != stOK then s.setWork id (.done st 0 0)
      else if !(s.asleep ds).isEmpty then s.putOff (.place id ds) ds
      else let x := s.placeGot d; x.1.setWork id (.done x.2 0 0)
    | none => s
  | _ => s

/-- Adds a hold on the active slot of factor `f` for `node`: the slot held, none when no root is published (R321, R322). -/
def State.takeHold (s : State) (f handle node : Nat) : State × Option Nat :=
  let a := s.fhActive f
  if a = 0xFF then (s, none)
  else
    let x := s.factor f
    (s.setFactor f { x with holds := x.holds ++ [(handle, node, a)] }, some a)

/-- Releases a hold. -/
def State.dropHold (s : State) (f handle node : Nat) : State :=
  let x := s.factor f
  s.setFactor f { x with holds := x.holds.filter fun h => !(h.1 == handle && h.2.1 == node) }

/-- SLOT_ADDR, SEQ, SIG and NO_ROOT of a hold's answer (25 bytes). -/
def State.rootAnswer (s : State) (f : Nat) (slot : Option Nat) : Bytes :=
  match slot with
  | some k => leBytes 8 (s.node * 2 ^ 48 + s.slotBase f k) ++ s.readBytes (s.slotHeader f k + 0x20) 8 ++ s.readBytes (s.slotHeader f k) 8 ++ leBytes 1 0
  | none => leBytes 8 0 ++ leBytes 8 (Config.freeWord s.draws).toNat ++ leBytes 8 (Config.freeWord (s.draws + 1)).toNat ++ leBytes 1 1

/-- Writes the root record (Table 14.10) and notes the hold. -/
def State.rootRecord (s : State) (d : Desc) (node f handle : Nat) (ans : Bytes) : State :=
  let none_ := field ans 24 1 == 1
  let h := if none_ then leBytes 4 (Config.freeWord (s.draws + 2)).toNat else leBytes 4 handle
  let n := dTarget d.bytes
  let slot := if field ans 0 8 % 2 ^ 48 = s.slotBase f 1 then 1 else 0
  let s1 := s.moverWrite d.id (storeBase n + Ga.dst d.bytes) (ans.take 24 ++ h ++ leBytes 4 (b2n none_))
  let s2 := { s1 with draws := s1.draws + 3 }
  if none_ then s2 else { s2 with grad := { s2.grad with roots := s2.grad.roots ++ [(handle, node, f, slot)] } }

def State.runGather (s : State) (d : Desc) : State :=
  let b := d.bytes
  if Ga.kind b = 1 then
    let f := Ga.object b % 4096
    let h := s.grad.nextHandle
    let s0 := { s with grad := { s.grad with nextHandle := (h + 1) % 2 ^ 32 } }
    if s.isSelf (Ga.node b) then
      if (s.factorRec f).isNone then s.setWork d.id (.done stBAD_DESCRIPTOR 0 0)
      else if s.controlRetired f then s.setWork d.id (.done stRETIRED_PAGE 0 0)
      else
        let t := s0.takeHold f h s0.node
        (t.1.rootRecord d s0.node f h (t.1.rootAnswer f t.2)).setWork d.id (.done stOK 0 0)
    else (s0.request (.desc d.id) (Ga.node b) kCOLL skROOT_HOLD d.epoch (collHeader skROOT_HOLD 0 0 0 f 0) (leBytes 4 h) 0 0 h).settle d stOK 0
  else
    let len := Ga.bytes b
    let st := s.copyRanges (Ga.src b) 0 (0xFFFF * 2 ^ 48 + Ga.dst b) 0 1 len
    if st ≠ stOK then s.setWork d.id (.done st 0 0)
    else ((cuts (Ga.src b) len).foldl (fun s c => s.gatherPiece d c.1 c.2) (s.setWork d.id (.gather stOK []))).gatherEnd d.id

def State.runDrop (s : State) (d : Desc) : State :=
  let b := d.bytes
  if Ga.kind b = 1 then
    match s.rootOf (Ga.object b) with
    | none => s.setWork d.id (.done stBAD_DESCRIPTOR 0 0)
    | some (h, node, f, _) =>
      let s1 := { s with grad := { s.grad with roots := s.grad.roots.filter (·.1 != h) } }
      if s.isSelf node then (s1.dropHold f h s.node).setWork d.id (.done stOK 0 0)
      else (s1.request (.desc d.id) node kCOLL skROOT_DROP d.epoch (collHeader skROOT_DROP 0 0 0 f 0) (leBytes 4 h) 0 0 0).settle d stOK 0
  else if !s.populated (Ga.dst b) (Ga.bytes b) then s.setWork d.id (.done stBAD_DESCRIPTOR 0 0)
  else if s.touchesRetired (Ga.dst b) (Ga.bytes b) then s.setWork d.id (.done stRETIRED_PAGE 0 0)
  else
    (s.moverWrite d.id (Ga.dst b) (List.replicate (Ga.bytes b / 4) (leBytes 4 (Ga.fill b))).flatten).setWork d.id (.done stOK 0 0)

/-- PERMUTE data: local, or PERMUTE_DATA packets whose bytes 0x18 to 0x1F hold the DST address (R352), and bytes 0x12 and 0x13 the length.
PRESUMED: notes/assumptions/36.md. -/
def State.runPermute (s : State) (d : Desc) : State :=
  let b := d.bytes
  let len := Pm.bytes b
  let st := if len = 0 then stOK else s.copyRanges (0xFFFF * 2 ^ 48 + Pm.src b) 0 (Pm.dst b) 0 1 len
  let x := if st ≠ stOK then (s, 0)
    else if s.isSelf (gaNode (Pm.dst b)) then (s.moverWrite d.id (gaLocal (Pm.dst b)) (s.readSrc (Pm.src b) len), 0)
    else s.sendChecked d ((cuts (gaLocal (Pm.dst b)) len).map fun c =>
      { hdr := collHeader skPERMUTE_DATA 0 (c.2 % 256) (c.2 / 256) 0 (Pm.dst b + c.1), data := s.readSrc (Pm.src b + c.1) c.2
        addr := Pm.dst b + c.1, len := c.2, off := c.1 })
  (x.1.afterRead (Pm.src b) len).settle d st 0 0 x.2

/-- Opens the gate (R313) under the live values now in force for its step (R61); the module's record is formed later (R314). -/
def State.runGate (s : State) (d : Desc) : State :=
  let step := Gt.step d.bytes
  { s with grad := { s.grad with gateStarted := some step, gateLive := s.coll.map fun c : Collective => c.liveFor step } }.setWork d.id .gate

/-- SIGNAL (R166). -/
def State.runSignal (s : State) (d : Desc) : State :=
  let b := d.bytes
  if s.isSelf (Sg.node b) then
    (s.addCounter (dTarget b) (Sg.counter b) (BitVec.ofNat 32 (Sg.value b))).setWork d.id (.done stOK 0 0)
  else
    (s.request (.desc d.id) (Sg.node b) kSIGNAL 0 d.epoch (opHeader (dTarget b * 64 + Sg.counter b) 4 0 0 0 0) (leBytes 4 (Sg.value b)) 0 0 0).settle d stOK 0

end Sys2Proof.Machine
end

