-- ==== Sys2Proof/Machine/Serge.lean ====
section
/-! DEFINITION. Solving (10): the arithmetic of a Serge engine, the phases of a SOLVE, its result and its publication. -/

namespace Sys2Proof.Machine

/-! ### Engine arithmetic (R219) -/

/-- Beside the numeric flags, work on an engine raises UNDERRUN as bit 5. -/
def fUNDERRUN : Nat := 32

/-- One FX128 panel: exact products truncated toward zero to multiples of 2^(E − 118), summed without loss, rounded once. -/
def fx128 (xy : List (Nat × Nat)) : Flagged Nat :=
  let ps := xy.map fun e =>
    let a := Fp.fp64.read e.1
    let b := Fp.fp64.read e.2
    let p := fmul a.1 b.1
    (p.1, a.2 ||| b.2 ||| p.2)
  let fl := ps.foldl (fun a p => a ||| p.2) 0
  let infs := ps.filterMap fun p => match p.1 with
    | .inf n => some n
    | _ => none
  if ps.any (fun p => p.1 == .nan) || (infs.contains true && infs.contains false) then (Fp.fp64.nanCode, fl ||| fIV)
  else match infs with
    | n :: _ => ((Fp.fp64.round (.inf n)).1, fl)
    | [] =>
      let nz := (ps.map (·.1)).filter fun v => !v.isZero
      match nz with
      | [] => (0, fl)
      | v :: r =>
        let q := r.foldl (fun a w => max a (floorLog2 w)) (floorLog2 v) - 118
        let t := nz.foldl (fun (acc : Int × Bool) w => match w with
          | .fin n m e =>
            let k := (q - e).toNat
            let x := if q ≤ e then m * 2 ^ (e - q).toNat else m / 2 ^ k
            let lost := decide (e < q) && m % 2 ^ k != 0
            (acc.1 + (if n then -(x : Int) else x), acc.2 || lost)
          | _ => acc) (0, false)
        let o := Fp.fp64.round (.fin (decide (t.1 < 0)) t.1.natAbs q)
        (o.1, fl ||| o.2 ||| flagIf t.2 fUNDERRUN)

/-- A dot product: panels of 64 terms, their results added in FP64 in order. -/
def dot (xs ys : List Nat) : Flagged Nat :=
  let xy := xs.zip ys
  match (runsOf 64 xy.length).map fun c => fx128 ((xy.drop c.1).take c.2) with
  | [] => (0, 0)
  | p :: r => r.foldl (fun acc q => let s := add64 acc.1 q.1; (s.1, acc.2 ||| q.2 ||| s.2)) p

/-! ### Matrices, row by row -/

def matAt (xs : List Word) (n i j : Nat) : Nat := (xs.getD (i * n + j) 0).toNat
def matRow (xs : List Word) (n i : Nat) : List Nat := (List.range n).map (matAt xs n i)
def matCol (xs : List Word) (n j : Nat) : List Nat := (List.range n).map fun i => matAt xs n i j

/-- The matrix with entry f i j, and the flags of forming it. -/
def matOf (n : Nat) (f : Nat → Nat → Flagged Nat) : Flagged (List Word) :=
  let es := (List.range (n * n)).map fun e => f (e / n) (e % n)
  (es.map fun e => BitVec.ofNat 64 e.1, es.foldl (fun a e => a ||| e.2) 0)

/-- A product on the engine. -/
def matMul (n : Nat) (x y : List Word) : Flagged (List Word) := matOf n fun i j => dot (matRow x n i) (matCol y n j)

/-- One chunk (lo, len) of an element of an offloaded product, added to what the chunks before it left: an FP32 MATMUL with PASSES=3 (R217). -/
def offChunk (interval : Nat) (ab : Nat → Nat × Nat) (acc : Option Nat) (c : Nat × Nat) : Option Nat × Nat :=
  (runsOf interval c.2).foldl (fun (acc : Option Nat × Nat) v =>
    let p := partialFp .fp32 5 3 ab (c.1 + v.1) v.2
    match acc.1 with
    | none => (some p.1, acc.2 ||| p.2)
    | some c => let t := add32 c p.1; (some t.1, acc.2 ||| p.2 ||| t.2)) ((acc, 0) : Option Nat × Nat)

/-- Entry (i, j) of an offloaded product: FP32 operands, PASSES=3, chunks of 2,048, the first stored and the rest added (R217). The value,
the flags of rounding and widening, and those of each chunk's MATMUL. -/
def offParts (interval : Nat) (xs ys : List Nat) : Nat × Nat × List Nat :=
  let cx := xs.map fun v => convert .fp64 .fp32 v
  let cy := ys.map fun v => convert .fp64 .fp32 v
  let fl := (cx ++ cy).foldl (fun a v => a ||| v.2) 0
  let ab := fun k => ((cx.getD k (0, 0)).1, (cy.getD k (0, 0)).1)
  let r := (runsOf 2048 xs.length).foldl (fun (acc : Option Nat × List Nat) c =>
    let t := offChunk interval ab acc.1 c
    (t.1, acc.2 ++ [t.2])) ((none, []) : Option Nat × List Nat)
  let w := convert .fp32 .fp64 (r.1.getD 0)
  (w.1, fl ||| w.2, r.2)

def offEntry (interval : Nat) (xs ys : List Nat) : Flagged Nat :=
  let r := offParts interval xs ys
  (r.1, r.2.2.foldl (· ||| ·) r.2.1)

/-- The tiles of an offloaded product, each with its MATMULs chunk by chunk: K, and the flags that each raises. -/
def offTiles (interval n : Nat) (x y : List Word) : List (List (Nat × Nat)) :=
  (List.range (n / 32 * (n / 32))).map fun t =>
    let parts := (List.range 1024).map fun e =>
      (offParts interval (matRow x n (32 * (t / (n / 32)) + e / 32)) (matCol y n (32 * (t % (n / 32)) + e % 32))).2.2
    let chunks := runsOf 2048 n
    ((List.range chunks.length).zip chunks).map fun c => (c.2.2, parts.foldl (fun a p => a ||| p.getD c.1 0) 0)

/-- A product of R216: on the engine, or offloaded with the interval of the cluster's MATMULs. -/
def newtonMul (off : Option Nat) (n : Nat) (x y : List Word) : Flagged (List Word) :=
  match off with
  | none => matMul n x y
  | some v => matOf n fun i j => offEntry v (matRow x n i) (matCol y n j)

/-- power(Y, p) by repeated squaring. -/
def matPower (off : Option Nat) (n p : Nat) (y : List Word) : Flagged (List Word) :=
  (List.range (Nat.log2 p)).foldl (fun acc _ => let r := newtonMul off n acc.1 acc.1; (r.1, acc.2 ||| r.2)) (y, 0)

/-- The operands of those products. -/
def powerPairs (off : Option Nat) (n p : Nat) (y : List Word) : List (List Word × List Word) :=
  ((List.range (Nat.log2 p)).foldl (fun (acc : List Word × List (List Word × List Word)) _ =>
    ((newtonMul off n acc.1 acc.1).1, acc.2 ++ [(acc.1, acc.1)])) (y, [])).2

/-- x^(−1/p) for p = 2^k and a positive value, a sticky bit behind the guard bits; +∞ gives +0. -/
def invRoot (k : Nat) (v : FVal) : FVal :=
  match v with
  | .fin _ m e =>
    let p : Nat := 2 ^ k
    let r := (e % (p : Int)).toNat
    let m' := m * 2 ^ r
    let g := guardBits + bitLen m'
    let y := (List.range k).foldl (fun a _ => isqrt a) (2 ^ (p * g) / m')
    let st := if y ^ p * m' = 2 ^ (p * g) then 0 else 1
    .fin false (2 * y + st) (-((e - (r : Int)) / (p : Int)) - (g : Int) - 1)
  | .inf false => fzero
  | _ => .nan

/-- x^(−1/p) of a value, correctly rounded in FP64; a zero gives +∞ with OV (Table 4.3). -/
def invRootOf (p : Nat) (v : FVal) : Flagged Nat := if v.isZero then (0x7FF0000000000000, fOV) else Fp.fp64.round (invRoot (Nat.log2 p) v)

/-- x^(−1/p) of an FP64 code. -/
def invRoot64 (p x : Nat) : Flagged Nat := invRootOf p (Fp.fp64.read x).1

/-- A positive finite FP64 code that is not flushed to zero. -/
def positive64 (x : Nat) : Bool := match (Fp.fp64.read x).1 with
  | .fin n m _ => !n && m != 0
  | _ => false

/-- An FP64 code at or below zero; a NaN is not. -/
def atMostZero64 (x : Nat) : Bool := match (Fp.fp64.read x).1 with
  | .nan => false
  | v => !flt fzero v

def finite64 (x : Nat) : Bool := bits x 52 11 != 2047

/-! ### Residual (R221, R222) -/

/-- FP64 codes of 1 and −1. -/
def neg64 (x : Nat) : Nat := x ^^^ 2 ^ 63

/-- Probe vector number k. -/
def probe (n k : Nat) : List Nat := (List.range n).map fun i =>
  if ((i + 1) * (2 * k + 1) * 0x9E3779B97F4A7C15 % 2 ^ 64).testBit 63 then neg64 one64 else one64

/-- A matrix-vector product. -/
def matVec (n : Nat) (x : List Word) (v : List Nat) : Flagged (List Nat) :=
  let es := (List.range n).map fun i => dot (matRow x n i) v
  (es.map (·.1), es.foldl (fun a e => a ||| e.2) 0)

/-- An integer as an FP64 code. -/
def ofNat64 (n : Nat) : Nat := (Fp.fp64.round (.fin false n 0)).1

/-- The residual of an iterate. -/
def residual (n p : Nat) (a x : List Word) : Flagged Nat :=
  let e (k : Nat) : Flagged Nat :=
    let v := probe n k
    let y0 := matVec n a v
    let y := (List.range p).foldl (fun (acc : Flagged (List Nat)) _ => let r := matVec n x acc.1; (r.1, acc.2 ||| r.2)) y0
    let d := (y.1.zip v).map fun t => sub64 t.1 t.2
    let ds := d.map (·.1)
    let q := dot ds ds
    let r := sqrt64 q.1
    (r.1, d.foldl (fun a t => a ||| t.2) (y.2 ||| q.2 ||| r.2))
  let es := (List.range 8).map e
  let sum := match es with
    | [] => ((0, 0) : Flagged Nat)
    | h :: t => t.foldl (fun (acc x : Flagged Nat) => let s := add64 acc.1 x.1; (s.1, acc.2 ||| x.2 ||| s.2)) h
  let root := sqrt64 (ofNat64 (64 * n))
  let r := div64 sum.1 root.1
  (r.1, sum.2 ||| root.2 ||| r.2)

/-- +Inf, the residual of an iterate that has not been measured. -/
def inf64 : Nat := 0x7FF0000000000000

/-- A residual as R222 compares it. -/
def Cand.rho (c : Cand) : Nat := match c.residual with
  | some r => if finite64 r.toNat then r.toNat else inf64
  | none => inf64

/-- The best candidate: the earliest with the lowest residual. -/
def bestCand (cs : List Cand) : Option Cand :=
  cs.foldl (fun acc c => match acc with
    | none => some c
    | some b => if lt64 c.rho b.rho then some c else some b) none

/-! ### Effective fields and checks (R209, R210, R223) -/

def soMethod (b : Bytes) (r : FactorRec) : Nat := if So.method b = 0xFF then r.method else So.method b
def soP (b : Bytes) (r : FactorRec) : Nat := if So.p b = 0 then r.p else So.p b
/-- The damping, flushed under R79 (R209). -/
def soEps (b : Bytes) (r : FactorRec) : Flagged Nat :=
  let e := if (So.ctrl b).testBit 1 then So.epsilon b else r.epsilon.toNat
  if bits e 52 11 = 0 then (bits e 63 1 * 2 ^ 63, flagIf (bits e 0 52 != 0) fFZ) else (e, 0)
def soWarm (b : Bytes) : Bool := (So.ctrl b).testBit 0

/-- The structure signature of R223. -/
def signature (n p eps : Nat) : Nat :=
  let damp := if bits eps 0 63 = 0 then 0x8000 else wrap 16 ((bits eps 52 11 : Int) - 1023)
  n + p * 2 ^ 32 + 6 * 2 ^ 40 + damp * 2 ^ 48

/-- A finite code of `w` bits with `mb` mantissa bits whose value is at least 0. -/
def nonNegative (f : Fp) (c : Nat) : Bool := match f.value c with
  | .fin n m _ => !n || m == 0
  | _ => false

/-- Table 10.6. -/
def State.solveCheck (s : State) (b : Bytes) : Nat :=
  let eps := (So.ctrl b).testBit 1
  let fields := zeros b 0x34 12 && (decide (So.engine b < 4) || So.engine b == 0xFF) && (decide (So.method b ≤ 2) || So.method b == 0xFF) &&
    [0, 1, 2, 4, 8].contains (So.p b) && decide (So.ctrl b < 4) && decide (So.maxIter b ≤ 64) &&
    (decide (So.group b < 64) || So.group b == 0xFF) && nonNegative .fp32 (So.tol b) &&
    (if eps then nonNegative .fp64 (So.epsilon b) else So.epsilon b == 0) && So.offBuf b % 65536 == 0 &&
    (So.group b != 0xFF || So.offBuf b == 0)
  if !fields then stBAD_DESCRIPTOR
  else match s.factorRec (So.factor b) with
    | none => stBAD_DESCRIPTOR
    | some r =>
      let m := soMethod b r
      if m = 2 ∧ soP b r ≠ 1 then stBAD_DESCRIPTOR
      else if m ≠ 1 ∧ ¬(So.group b = 0xFF ∧ So.maxIter b = 0 ∧ So.offBuf b = 0) then stBAD_DESCRIPTOR
      else if So.group b ≠ 0xFF ∧ ¬(So.group b < s.groups.length ∧ So.offBuf b + 0x100000 ≤ storeSize) then stBAD_DESCRIPTOR
      else if So.engine b = 0xFF then
        (if (List.range 4).any s.enginePresent then stOK else stUNSUPPORTED)
      else if s.enginePresent (So.engine b) then stOK else stUNSUPPORTED

/-- A record's schedule in force for `step` (R65). -/
def State.schedule (s : State) (f step : Nat) : Option Schedule :=
  match s.sergeSec with
  | none => none
  | some x => match x.live.find? fun l => decide (l.1 ≤ step) with
    | some l => l.2[f]?
    | none => match x.live.getLast? with
      | some l => l.2[f]?
      | none => none

/-- Factor `f` is scheduled for a refresh in `step` (R65).
DEDUCED: notes/assumptions/85.md. -/
def State.scheduled (s : State) (f step : Nat) : Bool := match s.schedule f step with
  | some c => decide (0 < c.period) && step % c.period == c.phase
  | none => false

/-- SOLVEs in the queue of an engine (Table 10.11). -/
def State.engineQueue (s : State) (e : Nat) : List Desc := s.descs.filter fun d => d.place == .engine e && d.work == .queued

/-- The engine of a SOLVE with ENGINE 0xFF at acceptance (R211).
DEDUCED: notes/assumptions/52.md. -/
def State.anyEngine (s : State) : Nat :=
  match s.enginesOn.filter fun e => !s.envOff (40 + e) with
  | [] => 0
  | e :: r => r.foldl (fun a x => if (s.engineQueue x).length < (s.engineQueue a).length then x else a) e

/-- The deadline tick of a SOLVE accepted now. Where its DEADLINE is 0, the schedule in force for OPEN_STEP gives the ticks (R65).
DEDUCED: notes/assumptions/132.md. -/
def State.solveLimit (s : State) (b : Bytes) : Nat :=
  let d := if So.deadline b ≠ 0 then So.deadline b else match s.schedule (So.factor b) s.grad.openStep with
    | some c => c.deadline
    | none => 0
  s.tick + d

/-! ### Engines -/

def State.eng (s : State) (e : Nat) : Engine := s.engines.get {} e
def State.setEng (s : State) (e : Nat) (x : Engine) : State := { s with engines := s.engines.set {} e x }

/-- Domains that a SOLVE needs beside its engine's: those of the SERGE region. -/
def State.sergeDomains (s : State) : List Nat := match s.region rkSERGE with
  | some r => s.rangeDomains r.base r.size
  | none => []

/-- RESULT (Table 10.9). -/
def solveResult (res32 iters best : Nat) (warmRefused published underrun clamped : Bool) (cause : Nat) : Word :=
  BitVec.ofNat 64 (res32 + iters * 2 ^ 32 + best * 2 ^ 40 + b2n warmRefused * 2 ^ 48 + b2n published * 2 ^ 49 + b2n underrun * 2 ^ 50 +
    b2n clamped * 2 ^ 51 + cause * 2 ^ 52)

/-- RESULT of a descriptor that ends without having computed anything: in a SOLVE's no residual was measured (Table 10.9). -/
def emptyResult (b : Bytes) : Word := if dType b = tySOLVE then solveResult 0x7F800000 0 0 false false false false 0 else 0

/-- R228. -/
def solveStatus (cause : Nat) (late warmRefused : Bool) : Nat :=
  if cause ≠ 0 then stABORTED else if late then stDEADLINE else if warmRefused then stWARM_REJECTED else stOK

/-- UNDERRUN of work just done, whose flags are `flags`, reaches SRG_STATUS. -/
def State.noteUnderrun (s : State) (e flags : Nat) : State :=
  let x := s.eng e
  s.setEng e { x with underrun := x.underrun || flags.testBit 5 }

/-- The SOLVE that an engine runs ends: BUSY falls, the engine is free and the completion is owed. -/
def State.endSolve (s : State) (e : Nat) (v : Solve) (status : Nat) (result : Word) : State :=
  let s2 := s.setEng e { s.eng e with run := none }
  (s2.setHeader v.factor (s2.fhActive v.factor) false).setWork v.id (.done status (v.flags % 32) result)

/-- Entry (i, j) of the decayed copy, i ≤ j (Table 10.7, Read). -/
def State.readFactor (s : State) (f : Nat) (r : FactorRec) (step i j : Nat) : Flagged Nat :=
  let base := s.blockBase f (i / 64) (j / 64)
  let last := s.readNat base 8
  let β := betaOf r
  let d : Flagged Nat := if step < last then (one64, 0) else let w := pow64 β.1 (step - last); (w.1, β.2 ||| w.2)
  let x := mul64 d.1 (s.blockEntry base (64 * (i % 64) + j % 64))
  (x.1, d.2 ||| x.2)

/-- The copy A in the scratch area of engine `e`, row by row, where the area can hold it (R203, R213).
DEDUCED: notes/assumptions/39.md. -/
def State.writeScratch (s : State) (e : Nat) (a : List Word) : State :=
  if 8 * a.length ≤ scratchSize s.factorRecs e then s.writeBytes (s.scratchBase e) (a.map fun w => leBytes 8 w.toNat).flatten else s

/-- Memory of the SERGE region that the Read of a SOLVE on engine `e` reaches lies on a retired page (R266): the control area, the blocks, the
published root that it may start from, the scratch area. -/
def State.readRetired (s : State) (e f n : Nat) (warm : Bool) : Bool :=
  s.touchesRetired (s.factorBase f) controlSize || s.touchesRetired (s.blocksBase f) (blocksSize n) ||
    (warm && decide (s.fhActive f ≤ 1) && s.touchesRetired (s.slotBase f (s.fhActive f)) (slotSize n)) ||
    (decide (8 * n * n ≤ scratchSize s.factorRecs e) && s.touchesRetired (s.scratchBase e) (8 * n * n))

/-- A = F + εI (R213). -/
def State.copyFactor (s : State) (f : Nat) (r : FactorRec) (step eps : Nat) : Flagged (List Word) :=
  matOf r.dim fun i j =>
    let x := if i ≤ j then s.readFactor f r step i j else s.readFactor f r step j i
    if i = j then let t := add64 x.1 eps; (t.1, x.2 ||| t.2) else x

/-- The published root, when R224 accepts it, widened to FP64. -/
def State.warmRoot (s : State) (f n : Nat) (sig : Nat) : Option (Flagged (List Word)) :=
  let a := s.fhActive f
  let h := s.slotHeader f a
  if a = 0xFF then none
  else if s.readNat (h + 8) 8 ≠ 2 ^ 64 - 1 - s.readNat h 8 ∨ s.readNat h 8 ≠ sig then none
  else some (matOf n fun i j => convert .fp32 .fp64 (s.readNat (s.slotBase f a + 4 * (i * n + j)) 4))

/-- c of the cold start (R225), none when tr(A) ÷ n is not positive and finite. -/
def coldStart (n p : Nat) (a : List Word) : Option Nat × Nat :=
  let t := dot ((List.range n).map fun i => matAt a n i i) (List.replicate n one64)
  let q := div64 t.1 (ofNat64 n)
  if positive64 q.1 then let c := invRoot64 p q.1; (some c.1, t.2 ||| q.2 ||| c.2) else (none, t.2 ||| q.2)

/-- Offload interval of a SOLVE, none without GROUP. -/
def soOff (b : Bytes) (nu : Numerics) : Option Nat := if So.group b = 0xFF then none else some (resolveMat 5 0 3 0xFF nu).interval

/-- The SOLVE at the head of an engine's queue. -/
def State.headSolve (s : State) (e : Nat) : Option Desc := (s.engineQueue e).head?

/-- An earlier SOLVE of the same factor has not ended (R212). -/
def State.factorBusy (s : State) (d : Desc) : Bool :=
  s.descs.any fun x => dType x.bytes == tySOLVE && So.factor x.bytes == So.factor d.bytes && decide (x.id < d.id) &&
    (x.work == .queued || x.work == .solve)

/-- Read and the choice of a start iterate (R213, R214, R224, R225), none of whose accesses meets a retired page. -/
def State.startSolve (s : State) (e : Nat) (d : Desc) (r : FactorRec) : State :=
  let b := d.bytes
  let f := So.factor b
  let n := r.dim
  let p := soP b r
  let ε := soEps b r
  let eps := ε.1
  let sig := signature n p eps
  let s0 := s.setHeader f (s.fhActive f) true
  let folded := s0.foldBefore f d.id ((s0.factor f).ring.length + 1)
  let a0 := folded.1.copyFactor f r (So.step b) eps
  let a : Flagged (List Word) := (a0.1, ε.2 ||| folded.2 ||| a0.2)
  let s1 := folded.1.writeScratch e a.1
  let v : Solve :=
    { id := d.id, factor := f, phase := .start, n := n, p := p, method := soMethod b r
      maxIter := if So.maxIter b = 0 then 32 else So.maxIter b, tol := BitVec.ofNat 32 (So.tol b), group := So.group b
      eps := BitVec.ofNat 64 eps, sig := BitVec.ofNat 64 sig, step := So.step b, deadline := d.limit, a := a.1, m := [], cands := []
      iters := 0, warm := false, warmRefused := false, underrun := false, clamped := false, cause := 0, flags := a.2, late := false }
  let none32 := 0x7F800000
  if a.1.any fun w => !finite64 w.toNat then s1.endSolve e v stABORTED (solveResult none32 0 0 false false (v.flags.testBit 5) false 3)
  else
    let warm := if soWarm b then s1.warmRoot f n sig else none
    let refused := soWarm b && warm.isNone
    match warm with
    | some x =>
      let v1 := { v with warm := true, cands := [⟨0, none, x.1⟩], flags := v.flags ||| x.2 }
      (s1.setEng e { s1.eng e with run := some v1 }).setWork d.id .solve
    | none =>
      let c := coldStart n p a.1
      let fl := v.flags ||| c.2
      let s1 := s1.noteUnderrun e c.2
      match c.1 with
      | none => s1.endSolve e { v with flags := fl } stABORTED (solveResult none32 0 0 refused false (fl.testBit 5) false 1)
      | some k =>
        let x := matOf n fun i j => if i = j then (k, 0) else (0, 0)
        let v1 := { v with warmRefused := refused, cands := [⟨0, none, x.1⟩], flags := fl }
        (s1.setEng e { s1.eng e with run := some v1 }).setWork d.id .solve

/-- The residual of X0 is known (R226), and the method begins. -/
def startMeasured (v : Solve) : Solve :=
  match v.cands with
  | c :: _ =>
    let ρ := residual v.n v.p v.a c.x
    { v with phase := .compute, cands := [{ c with residual := some (BitVec.ofNat 64 ρ.1) }], flags := v.flags ||| ρ.2 }
  | [] => v

/-- The flag of reading a subnormal TOL (R79). -/
def tolFlags (tol : BitVec 32) : Nat := (Fp.fp32.read tol.toNat).2

/-- ρ ≤ TOL, for a TOL above 0.
DEDUCED: notes/assumptions/52.md. -/
def withinTol (ρ : Nat) (tol : BitVec 32) : Bool :=
  let t := (Fp.fp32.read tol.toNat).1
  !t.isZero && finite64 ρ && !flt t (Fp.fp64.read ρ).1

/-- ρ is not finite, or exceeds 1,024 × the lowest residual so far. -/
def diverging (ρ best : Nat) : Bool :=
  !finite64 ρ || (finite64 best && flt (fmul (.fin false 1024 0) (Fp.fp64.read best).1).1 (Fp.fp64.read ρ).1)

/-- The last iterate. -/
def Solve.lastX (v : Solve) : List Word := match v.cands.getLast? with
  | some c => c.x
  | none => []

/-- T of a Newton iteration. -/
def newtonT (v : Solve) : Flagged (List Word) := matOf v.n fun i j =>
  let u := sub64 (if i = j then ofNat64 (v.p + 1) else 0) (matAt v.m v.n i j)
  let w := div64 u.1 (ofNat64 v.p)
  (w.1, u.2 ||| w.2)

/-- M = power(X0, p) × A, formed before the first iteration and within its unit of work (R216).
DESIGN CHOICE: notes/assumptions/113.md. -/
def formM (v : Solve) (off : Option Nat) : Solve :=
  if v.iters = 0 then
    let w := matPower off v.n v.p v.lastX
    let r := newtonMul off v.n w.1 v.a
    { v with m := r.1, flags := v.flags ||| w.2 ||| r.2 }
  else v

/-- The operands of the products that a unit of a Newton SOLVE's work makes (R216). -/
def newtonPairs (v0 : Solve) (off : Option Nat) : List (List Word × List Word) :=
  let v := formM v0 off
  let t := (newtonT v).1
  let m := if v.iters = 0 then powerPairs off v.n v.p v.lastX ++ [((matPower off v.n v.p v.lastX).1, v.a)] else []
  m ++ (v.lastX, t) :: powerPairs off v.n v.p t ++ [((matPower off v.n v.p t).1, v.m)]

/-- One Newton iteration and its residual (R216). -/
def newtonStep (v0 : Solve) (off : Option Nat) : Solve :=
  let v := formM v0 off
  let n := v.n
  let x := v.lastX
  let t := newtonT v
  let x1 := newtonMul off n x t.1
  let tp := matPower off n v.p t.1
  let m1 := newtonMul off n tp.1 v.m
  let ρ := residual n v.p v.a x1.1
  let k := v.iters + 1
  let best := match bestCand v.cands with
    | some c => c.rho
    | none => inf64
  let stop := withinTol ρ.1 v.tol
  let div_ := !stop && diverging ρ.1 best
  { v with
    m := m1.1, iters := k, cands := v.cands ++ [⟨k, some (BitVec.ofNat 64 ρ.1), x1.1⟩]
    flags := v.flags ||| t.2 ||| x1.2 ||| tp.2 ||| m1.2 ||| ρ.2 ||| tolFlags v.tol, cause := if div_ then 2 else v.cause
    phase := if stop || div_ || decide (v.maxIter ≤ k) then .choose else .compute }

/-- The eigenvalue floor λ_max × 2^−52, an FP64 operation of the engine, flushed as any other (R79, R219).
DEDUCED: notes/assumptions/124.md. -/
def eigenFloor (mx : Nat) : Flagged Nat := Fp.fp64.round (fmul (Fp.fp64.read mx).1 (.fin false 1 (-52))).1

/-- An eigenvalue as stage 4 takes it: raised to the floor where it lies below. -/
def raised (lo : FVal) (l : Nat) : FVal := let v := (Fp.fp64.read l).1; if flt v lo then lo else v

/-- The factorisation of METHOD 0 (R215): eigenvalues and Q are free values; clamping and stage 4 follow the rule.
DEDUCED: notes/assumptions/16.md. -/
def eigenSolve (v : Solve) : Solve :=
  let n := v.n
  let r := Config.eigen n v.a
  let ls := r.1.map (·.toNat)
  let mx := match ls with
    | [] => 0
    | h :: t => t.foldl (fun a x => if lt64 a x then x else a) h
  let fl := v.flags ||| Config.factorFlags n v.a % 32 ||| flagIf (Config.factorUnderrun n v.a) fUNDERRUN
  if atMostZero64 mx then { v with phase := .choose, cause := 1, flags := fl }
  else
    let floor := eigenFloor mx
    let lo := (Fp.fp64.read floor.1).1
    let μ := ls.map fun l => invRootOf v.p (raised lo l)
    let q := r.2
    let qd := matOf n fun i j => mul64 (matAt q n i j) (μ.getD j (0, 0)).1
    let x := matOf n fun i j => dot (matRow qd.1 n i) (matRow q n j)
    let ρ := residual n v.p v.a x.1
    { v with
      phase := .choose, iters := 1, clamped := ls.any (fun l => flt (Fp.fp64.read l).1 lo)
      cands := v.cands ++ [⟨1, some (BitVec.ofNat 64 ρ.1), x.1⟩]
      flags := μ.foldl (fun a m => a ||| m.2) (fl ||| floor.2 ||| qd.2 ||| x.2 ||| ρ.2) }

/-- The columns of L so far, as FP64 codes: column j from the ones before it; none at a pivot argument ≤ 0 (R218). -/
def cholColumn (n : Nat) (a : List Word) (cols : List (List Nat)) (j : Nat) : Option (List Nat) × Nat :=
  let rowOf (i : Nat) : List Nat := cols.map fun c => c.getD i 0
  let pj := dot (rowOf j) (rowOf j)
  let arg := sub64 (matAt a n j j) pj.1
  if atMostZero64 arg.1 then (none, pj.2 ||| arg.2)
  else
    let l := sqrt64 arg.1
    let below := (List.range n).map fun i =>
      if i < j then ((0, 0) : Flagged Nat)
      else if i = j then (l.1, l.2)
      else
        let s := dot (rowOf i) (rowOf j)
        let d := sub64 (matAt a n i j) s.1
        let q := div64 d.1 l.1
        (q.1, s.2 ||| d.2 ||| q.2)
    (some (below.map (·.1)), below.foldl (fun x y => x ||| y.2) (pj.2 ||| arg.2))

/-- L column by column. -/
def cholesky (n : Nat) (a : List Word) : Option (List (List Nat)) × Nat :=
  (List.range n).foldl (fun (acc : Option (List (List Nat)) × Nat) j => match acc.1 with
    | none => acc
    | some cols =>
      let c := cholColumn n a cols j
      (c.1.map fun x => cols ++ [x], acc.2 ||| c.2)) (some [], 0)

/-- The factorisation of METHOD 2 (R218): L by the rule, L⁻¹ a free value, L⁻ᵀ L⁻¹ by the dot products of R219.
DEDUCED: notes/assumptions/16.md. -/
def cholSolve (v : Solve) : Solve :=
  let n := v.n
  let c := cholesky n v.a
  match c.1 with
  | none => { v with phase := .choose, cause := 1, flags := v.flags ||| c.2 }
  | some cols =>
    let l := (matOf n fun i j => ((cols.getD j []).getD i 0, 0)).1
    let inv := Config.cholInverse n l
    let x := matOf n fun i j => dot (matCol inv n i) (matCol inv n j)
    let ρ := residual n v.p v.a x.1
    { v with
      phase := .choose, iters := 1, cands := v.cands ++ [⟨1, some (BitVec.ofNat 64 ρ.1), x.1⟩]
      flags := v.flags ||| c.2 ||| x.2 ||| ρ.2 ||| Config.factorFlags n l % 32 ||| flagIf (Config.factorUnderrun n l) fUNDERRUN }

/-! ### Publication (R230, R231) -/

/-- The slot that a publication writes: the one that is not ACTIVE, and slot 0 where neither is.
DESIGN CHOICE: notes/assumptions/114.md. -/
def freeSlot (active : Nat) : Nat := if active = 0 then 1 else 0

/-- R230's exceptions aside, the result is published. -/
def publishes (v : Solve) (c : Cand) (active : Nat) : Bool := c.iter != 0 || (!v.warm && active == 0xFF)

/-- Writes the root of candidate `c` into slot `k`, its header, and the factor header that makes it ACTIVE. -/
def State.writeRoot (s : State) (v : Solve) (c : Cand) (k status : Nat) : State × Nat :=
  let f := v.factor
  let cs := c.x.map fun w => convert .fp64 .fp32 w.toNat
  let fl := cs.foldl (fun a x => a ||| x.2) v.flags
  let seq := s.fhSeq f + 1
  let res := match c.residual with
    | some r => r.toNat
    | none => inf64
  let s1 := s.writeBytes (s.slotBase f k) (cs.map fun x => leBytes 4 x.1).flatten
  let h := leBytes 8 v.sig.toNat ++ leBytes 8 (2 ^ 64 - 1 - v.sig.toNat) ++ leBytes 8 res ++ leBytes 8 v.step ++ leBytes 8 seq ++
    leBytes 1 v.method ++ leBytes 1 v.iters ++ leBytes 1 status ++ leBytes 1 (fl % 32) ++ leBytes 20 0
  let s2 := s1.writeBytes (s.slotHeader f k) h
  ((s2.setHeader f k false).writeNat (s.factorBase f + 0x10) 8 seq, fl)

/-- Choose and Writeback of the SOLVE on engine `e`; it waits while the slot is held. A slot on a retired page refuses the writeback (R266). -/
def State.publishSolve (s : State) (e : Nat) (v0 : Solve) : State :=
  let v : Solve := match (bestCand v0.cands).bind (·.residual) with
    | some r => { v0 with flags := v0.flags ||| (convert .fp64 .fp32 r.toNat).2 }
    | none => v0
  let status := solveStatus v.cause v.late v.warmRefused
  match bestCand v.cands with
  | none => s.endSolve e v status (solveResult 0x7F800000 v.iters 0 v.warmRefused false (v.flags.testBit 5) v.clamped v.cause)
  | some c =>
    let active := s.fhActive v.factor
    let k := freeSlot active
    let res32 := match c.residual with
      | some r => (convert .fp64 .fp32 r.toNat).1
      | none => 0x7F800000
    let result (p : Bool) : Word := solveResult res32 v.iters c.iter v.warmRefused p (v.flags.testBit 5) v.clamped v.cause
    if !publishes v c active then s.endSolve e v status (result false)
    else if (s.factor v.factor).holds.any (fun h => h.2.2 == k) then
      s.setEng e { s.eng e with run := some { v0 with phase := .writeback } }
    else if s.touchesRetired (s.slotBase v.factor k) (slotSize v.n) || s.touchesRetired (s.factorBase v.factor) controlSize then
      s.endSolve e v stRETIRED_PAGE (result false)
    else
      let w := s.writeRoot v c k status
      w.1.endSolve e { v with flags := w.2 } status (result true)

/-- A SOLVE's counts at its completion (Tables 10.11, 10.12); the registers of an engine that is off, or that wakes from off, read their reset
values.
DEDUCED: notes/assumptions/52.md. -/
def State.countSolve (s : State) (e status : Nat) (result : Word) : State :=
  let x := s.eng e
  let up (c : Bool) (n : Nat) : Nat := if c then min (n + 1) 0xFFFF else n
  if (s.dom (40 + e)).lost then s
  else s.setEng e
    { x with
      done := (x.done + 1) % 2 ^ 24, ok := up (status == stOK) x.ok, deadlines := up (status == stDEADLINE) x.deadlines
      warmRejects := up (result.toNat.testBit 48) x.warmRejects, aborts := up (status == stABORTED) x.aborts }

/-! ### Offloaded products (R217) -/

/-- The 1 MiB that an engine stages in one OFF_BUF: free values. -/
def stagedBytes (draw : Nat) : Bytes := (List.range 0x100000).map (Config.stagedByte draw)

/-- The present clusters of a SOLVE's GROUP. -/
def State.offloadClusters (s : State) (g : Nat) : List Nat := match s.groups[g]? with
  | none => []
  | some r => (List.range 512).filter fun n => r.clusters.testBit n && s.clusterPresent n

/-- Domains of the clusters that take the offloaded products. -/
def State.offloadDomains (s : State) (b : Bytes) : List Nat :=
  match s.groups[So.group b]? with
  | none => []
  | some g => (List.range 32).filter fun h => (List.range 16).any fun i => g.clusters.testBit (16 * h + i) && s.clusterPresent (16 * h + i)

/-- An engine has fewer than its 256 transactions in flight (Table 1.5). -/
def State.engineRoom (s : State) (e : Nat) : Bool := decide ((s.offloads.filter fun o => o.engine == e).length < 256)

/-- Clusters of group `g` that are on and whose array queues have room: those that may take the next MATMUL of the tile in hand, of which
cluster `at_` has taken the first, if any has. -/
def State.tileRoom (s : State) (g : Nat) (at_ : Option Nat) : List Nat :=
  (s.offloadClusters g).filter fun n => s.domOn (n / 16) && decide (s.queuedAt (.array n) < 8) && (at_.isNone || at_ == some n)

/-- A MATMUL of SOLVE `v` goes to the array of cluster `n`, with its operands staged in OFF_BUF; what is staged and the tag are free values.
DEDUCED: notes/assumptions/51.md. DESIGN CHOICE: notes/assumptions/125.md. -/
def State.sendTile (s : State) (e : Nat) (v : Solve) (d : Desc) (interval n : Nat) (m : Nat × Nat) : State :=
  { (s.writeStore n (So.offBuf d.bytes) (stagedBytes s.draws)) with
    draws := s.draws + 2
    offloads := s.offloads ++ [{ engine := e, solve := v.id, n := n, seq := s.nextId, interval := interval, k := m.1, flags := m.2
                                 tag := (Config.freeWord (s.draws + 1)).toNat % 65536 }] }

/-- The tiles of engine `e`'s products that are still to be sent, and the cluster that takes the tile in hand. -/
def State.setProducts (s : State) (e : Nat) (ps : List (List (List (Nat × Nat)))) (at_ : Option Nat) : State :=
  s.setEng e { s.eng e with products := ps, tileAt := at_ }

/-- Sends MATMULs while the engine and a queue have room, which cluster takes a tile being free; a product begins once the one before has ended.
DEDUCED: notes/assumptions/51.md. -/
def State.sendTilesGo (e : Nat) (v : Solve) (d : Desc) (interval : Nat) : (fuel : Nat) → State → State
  | 0, s => s
  | k + 1, s => match (s.eng e).products with
    | ((m :: ms) :: ts) :: ps =>
      if !s.engineRoom e then s
      else match s.tileRoom v.group (s.eng e).tileAt with
        | [] => s.wakeAll (s.asleep (s.offloadDomains d.bytes))
        | c :: r =>
          let n := (c :: r).getD ((Config.freeWord s.draws).toNat % (r.length + 1)) c
          State.sendTilesGo e v d interval k
            ((({ s with draws := s.draws + 1 } : State).sendTile e v d interval n m).setProducts e ((ms :: ts) :: ps) (some n))
    | ([] :: ts) :: ps => State.sendTilesGo e v d interval k (s.setProducts e (ts :: ps) none)
    | [] :: ps => if s.offloads.any (fun o => o.engine == e && o.solve == v.id) then s else State.sendTilesGo e v d interval k (s.setProducts e ps none)
    | [] => s

/-- Steps that the sending of products can take. -/
def productSteps (ps : List (List (List (Nat × Nat)))) : Nat := (ps.map fun p => (p.map fun t => t.length + 1).sum + 1).sum + 1

/-- Engine `e` sends what it can of its products. -/
def State.sendTiles (s : State) (e : Nat) : State := match (s.eng e).run with
  | some v => match s.desc? v.id with
    | some d => match soOff d.bytes d.num with
      | some iv => State.sendTilesGo e v d iv (productSteps (s.eng e).products) s
      | none => s
    | none => s
  | none => s

/-- Every engine does. -/
def State.sendAllTiles (s : State) : State := (List.range 4).foldl (fun s e => s.sendTiles e) s

/-- The interval of a SOLVE's offloaded products. -/
def State.offOf (s : State) (v : Solve) : Option Nat := match s.desc? v.id with
  | some d => soOff d.bytes d.num
  | none => none

/-- The unit of work that the SOLVE on engine `e` begins offloads its products (R216, R217). -/
def State.beginUnit (s : State) (e : Nat) : State := match (s.eng e).run with
  | some v => match s.offOf v with
    | some k =>
      if v.method = 1 ∧ v.phase = .compute then
        (s.setProducts e ((newtonPairs v (some k)).map fun p => offTiles k v.n p.1 p.2) none).sendTiles e
      else s
    | none => s
  | none => s

/-- An offloaded MATMUL ends its writeback: it counts at its array (R115), its flags are its SOLVE's (R231), and its engine goes on. -/
def State.offWritebackEnd (s : State) (n : Nat) (o : Offload) (busy : Nat) : State :=
  let x := s.cluster n
  let s1 := ({ s with offloads := s.offloads.eraseP fun y => y.n == n && y.inWriteback }.setCluster n
    { x with arrFlags := o.flags, arrDone := (x.arrDone + 1) % 2 ^ 24 }).countArray n 0 busy
  match (s1.eng o.engine).run with
  | some v => if v.id = o.solve then (s1.setEng o.engine { s1.eng o.engine with run := some { v with flags := v.flags ||| o.flags } }).sendTiles o.engine else s1
  | none => s1

/-- The numeric flags that a descriptor has raised so far (R95). -/
def State.flagsSoFar (s : State) (d : Desc) : Nat :=
  let gate := if dType d.bytes = tyGATE then (match s.grad.gate.own with
    | some g => g.flags
    | none => 0) else 0
  match d.work with
  | .mat _ fl _ _ => fl
  | .emit _ _ _ fl => fl
  | .remote _ _ fl _ => fl
  | .ring _ _ _ fl _ _ => fl
  | .held _ fl => fl ||| gate
  | .gate => gate
  | .solve => (((List.range 4).filterMap fun e => (s.eng e).run).find? (·.id == d.id)).elim 0 fun v => v.flags % 32
  | .done _ fl _ => fl
  | _ => 0

end Sys2Proof.Machine
end

