-- ==== Sys2Proof/Machine/Functions.lean ====
section
/-! DEFINITION. The function operations EXP, LOG, TANH, SIGMOID and GELU (R144): their true results, to far more places than FP32
holds, and the FP32 value that a slice forms within two units in the last place of one. -/

namespace Sys2Proof.Machine

/-! ### True results, in fixed point -/

/-- Fraction bits of the fixed-point forms. -/
def fixBits : Nat := 256

/-- ln 2: the sum of 1 ÷ (k × 2^k). -/
def fixLn2 : Nat := (List.range fixBits).foldl (fun a k => a + 2 ^ fixBits / ((k + 1) * 2 ^ (k + 1))) 0

/-- A finite value in fixed point. -/
def toFix : FVal → Int
  | .fin n m e =>
    let q := e + fixBits
    let x : Nat := if 0 ≤ q then m * 2 ^ q.toNat else m / 2 ^ (-q).toNat
    if n then -x else x
  | _ => 0

/-- e^z, from z = k ln 2 + r and the series in r; beyond ±1,000 every result is far outside FP32. -/
def trueExp (z : FVal) : FVal :=
  let lim : Int := 1000 * 2 ^ fixBits
  let c := max (-lim) (min lim (toFix z))
  let r := (c % fixLn2).toNat
  let s := (List.range 64).foldl (fun (a : Nat × Nat) n => (a.1 * r / 2 ^ fixBits / (n + 1), a.2 + a.1)) (2 ^ fixBits, 0)
  .fin false s.2 (c / fixLn2 - fixBits)

/-- ln (m × 2^e), from twice the series of artanh. -/
def trueLog (m : Nat) (e : Int) : FVal :=
  let l := bitLen m - 1
  let a := m * 2 ^ (fixBits - l)
  let t := (a - 2 ^ fixBits) * 2 ^ fixBits / (a + 2 ^ fixBits)
  let s := (List.range 96).foldl (fun (p : Nat × Nat) k => (p.1 * t / 2 ^ fixBits * t / 2 ^ fixBits, p.2 + p.1 / (2 * k + 1))) (t, 0)
  let v : Int := (e + l) * fixLn2 + 2 * s.2
  .fin (decide (v < 0)) v.natAbs (-fixBits)

/-- 1 ÷ (1 + e^−z). -/
def trueSigmoid (z : FVal) : FVal := let p := trueExp z; (fdiv p (fadd (.fin false 1 0) p).1).1

/-- tanh z. -/
def trueTanh (z : FVal) : FVal :=
  let p := trueExp (fmul (.fin false 2 0) z).1
  if z.isZero then z else (fdiv (fsub p (.fin false 1 0)).1 (fadd p (.fin false 1 0)).1).1

/-- 0.5x(1 + tanh u), which is x times the sigmoid of 2u; u has the decimal constants of Table 7.3. -/
def trueGelu (x : FVal) : FVal :=
  let cubic := ffma (fmul x x).1 (.fin false 44715 0) (.fin false 1000000 0)
  let u2 := fdiv (fmul (fmul x cubic.1).1 (.fin false (2 * 7978846) 0)).1 (.fin false (10 ^ 13) 0)
  (fmul x (trueSigmoid u2.1)).1

/-- The true result of a function operation on a finite input that Table 7.5 does not list. -/
def trueFunction (op : Nat) (x : FVal) : FVal :=
  match op, x with
  | 0x13, x => trueExp x
  | 0x14, .fin _ m e => trueLog m e
  | 0x15, x => trueTanh x
  | 0x16, x => trueSigmoid x
  | _, x => trueGelu x

/-! ### The FP32 value formed (R144) -/

/-- The value with `k` units in the last place added to the FP32 value nearest to `t`, where that is one of FP32's precision and lies within
two units of `t`; else the nearest. -/
def withinTwo (t : FVal) (k : Int) : FVal :=
  match t with
  | .fin neg m e =>
    let q := floorLog2 t - 23
    let n0 := (nearestInt false m (e - q)).1
    let n := n0 + k
    let near := match (fsub (.fin false n.natAbs q) (.fin false m e)).1 with
      | d => !flt (.fin false 2 q) d && !flt d (.fin true 2 q)
    if near && decide (0 ≤ n) && (decide (n ≤ 2 ^ 24) || n % 2 == 0) then .fin neg n.natAbs q else .fin neg n0.natAbs q
  | v => v

/-- EXP, LOG, TANH, SIGMOID and GELU: the FP32 value and the flags of forming it. The special inputs are those of Table 7.5; a true
result of zero is itself; on every other input the value lies within two units in the last place of the true result, which one
of those being free (DEDUCED: notes/assumptions/15.md). -/
def vFunction (op : Nat) (x : FVal) : Flagged FVal :=
  let one : FVal := .fin false 1 0
  match x with
  | .nan => (.nan, fIV)
  | .inf n =>
    if op = 0x13 then (if n then (fzero, 0) else (.inf false, 0))
    else if op = 0x14 then (if n then (.nan, fIV) else (.inf false, 0))
    else if op = 0x15 then (if n then (.fin true 1 0, 0) else (one, 0))
    else if op = 0x16 then (if n then (fzero, 0) else (one, 0))
    else (if n then (.fin true 0 0, 0) else (.inf false, 0))
  | .fin n m _ =>
    if op = 0x14 ∧ m = 0 then (.inf true, fOV)
    else if op = 0x14 ∧ n then (.nan, fIV)
    else
      let t := trueFunction op x
      if t.isZero then (t, 0)
      else
        let v := withinTwo t (Config.vecFunction op (BitVec.ofNat 64 (Fp.fp64.round x).1)).toInt
        let r := Fp.fp32.round v
        -- of the inputs left, only a zero has a true result that is a binary fraction
        (Fp.fp32.value r.1, r.2 ||| flagIf (decide (m ≠ 0) || !(fsub v t).1.isZero) fNX)

end Sys2Proof.Machine
end

