-- ==== Sys2Proof/Machine/Vector.lean ====
section
/-! DEFINITION. The vector slice (07): checks, the walk, element operations, reductions, COMPRESS and EXPAND, lane generators and
the muslin stash. -/

namespace Sys2Proof.Machine

/-! ### Formats and operations (Tables 7.1 and 7.3) -/

/-- Element width of a format code: 0 FP16, 1 BF16, 2 E4M3, 3 E5M2, 4 INT8, 5 FP32, 6 INT32. -/
def vWidth (f : Nat) : Nat := if f < 2 then 2 else if f < 5 then 1 else 4

/-- F of Table 7.3. -/
def isF (f : Nat) : Bool := f == 0 || f == 1 || f == 5

def vFp (f : Nat) : Fp := match f with
  | 0 => .fp16
  | 1 => .bf16
  | 2 => .e4m3
  | 3 => .e5m2
  | _ => .fp32

/-- Kinds of vector descriptor: VECOP operations by code, COMPRESS and EXPAND. -/
def vIsCompress (b : Bytes) : Bool := dType b == tyCOMPRESS
def vIsExpand (b : Bytes) : Bool := dType b == tyEXPAND
def vIsVecop (b : Bytes) : Bool := dType b == tyVECOP

def vOpIs (b : Bytes) (lo hi : Nat) : Bool := vIsVecop b && decide (lo ≤ Ve.op b ∧ Ve.op b ≤ hi)

def vIsPut (b : Bytes) : Bool := vOpIs b 0x30 0x30
def vIsGet (b : Bytes) : Bool := vOpIs b 0x31 0x31
def vIsTake (b : Bytes) : Bool := vOpIs b 0x32 0x32
def vIsFree (b : Bytes) : Bool := vOpIs b 0x33 0x33
def vIsStash (b : Bytes) : Bool := vOpIs b 0x30 0x33
def vIsReduce (b : Bytes) : Bool := vOpIs b 0x20 0x23

/-- OP codes of Table 7.3. -/
def vOpKnown (op : Nat) : Bool :=
  decide (1 ≤ op ∧ op ≤ 0x0C) || decide (0x10 ≤ op ∧ op ≤ 0x17) || decide (0x20 ≤ op ∧ op ≤ 0x23) || decide (0x30 ≤ op ∧ op ≤ 0x33)

/-- X is read. -/
def vUsesX (b : Bytes) : Bool := !(vIsGet b || vIsTake b || vIsFree b)
/-- Y is read as elements. -/
def vUsesY (b : Bytes) : Bool := vOpIs b 0x01 0x04 || vOpIs b 0x06 0x07 || vOpIs b 0x0C 0x0C
/-- Y is a mask. -/
def vUsesMask (b : Bytes) : Bool := vIsCompress b || vIsExpand b || vOpIs b 0x0B 0x0B
def vUsesW (b : Bytes) : Bool := vOpIs b 0x04 0x04 || vOpIs b 0x0B 0x0B
/-- Z is written as elements. -/
def vUsesZ (b : Bytes) : Bool := !(vOpIs b 0x0C 0x0C || vIsPut b || vIsFree b)
/-- Z is a mask. -/
def vMaskZ (b : Bytes) : Bool := vOpIs b 0x0C 0x0C

/-- Format of Z. -/
def vZFmt (b : Bytes) : Nat := if vIsReduce b then 5 else Ve.outFmt b

/-- Bytes at AUX_OFF: the count of COMPRESS, the handle record of STASH_PUT. -/
def vAuxLen (b : Bytes) : Nat := if vIsCompress b then 4 else if vIsPut b then 8 else 0

/-! ### Checks at issue (Table 7.4, rows 1 to 5) -/

def vFormatsOk (b : Bytes) : Bool :=
  let i := Ve.inFmt b
  let o := Ve.outFmt b
  if vIsCompress b || vIsExpand b then decide (i ≤ 6) && i == o
  else
    let op := Ve.op b
    if op ≤ 0x07 ∨ (0x10 ≤ op ∧ op ≤ 0x17) then isF i && isF o
    else if op = 0x08 ∨ op = 0x09 then isF i && o == i
    else if op = 0x0A then decide (i ≤ 6) && decide (o ≤ 6)
    else if op = 0x0B then decide (i ≤ 6) && o == i
    else if op = 0x0C then isF i
    else if op ≤ 0x23 then isF i && o == 5
    else if op = 0x30 then i == 5 || i == 1
    else if op = 0x33 then true
    else o == 5 || o == 1

/-- Row 1 of Table 7.4. A STASH_PUT whose PARAM is above 2 names no format of R151, and an EXPAND whose PARAM is above 1 no fill:
row 1 ends both. DESIGN CHOICE: notes/assumptions/120.md. -/
def vRow1 (b : Bytes) : Bool :=
  let opOk := if vIsVecop b then vOpKnown (Ve.op b) else Ve.op b == 0
  let paramOk := if vIsPut b then decide (Ve.param b ≤ 2) else if vIsExpand b then decide (Ve.param b ≤ 1)
    else if vIsGet b || vIsTake b || vIsFree b then true else Ve.param b == 0
  zeros b 0x38 8 && opOk && decide (Ve.round b ≤ 2) && paramOk && (decide (0 < vAuxLen b) || Ve.aux b == 0)

def vRow3 (b : Bytes) : Bool :=
  let al (used : Bool) (off w : Nat) : Bool := !used || off % w == 0
  Ve.walk b % 16 == 0 && decide (Ve.walk b + 64 ≤ storeSize) &&
  al (vUsesX b) (Ve.xOff b) (vWidth (Ve.inFmt b)) && al (vUsesY b) (Ve.yOff b) (vWidth (Ve.inFmt b)) &&
  al (vUsesW b) (Ve.wOff b) (vWidth (Ve.inFmt b)) && al (vUsesZ b) (Ve.zOff b) (vWidth (vZFmt b)) &&
  (vAuxLen b == 0 || (Ve.aux b % 8 == 0 && decide (Ve.aux b + vAuxLen b ≤ storeSize)))

/-- The STASH region of a group, and its STASH_OVERFLOW region. -/
def State.stashRegion (s : State) (g kind : Nat) : Option Region := s.regions.find? fun r => r.kind == kind && r.group == g

/-- The checks made at the issuer, for target cluster `n`. -/
def vectorCheck (s : State) (n : Nat) (b : Bytes) : Nat :=
  if !vRow1 b then stBAD_DESCRIPTOR
  else if !vFormatsOk b then stBAD_DESCRIPTOR
  else if !vRow3 b then stBAD_DESCRIPTOR
  else if !s.clusterPresent n then stUNSUPPORTED
  else if vIsStash b && ((s.groupOf n).bind fun g => s.stashRegion g 1).isNone then stUNSUPPORTED
  else stOK

/-! ### The walk (R138, R139, Table 7.2) -/

/-- A walk record: lengths, then the strides of X, Y, W and Z in dimensions 1 to 3. -/
structure Walk where
  d0 : Nat
  d1 : Nat
  d2 : Nat
  d3 : Nat
  xs : Nat × Nat × Nat
  ys : Nat × Nat × Nat
  ws : Nat × Nat × Nat
  zs : Nat × Nat × Nat
  deriving DecidableEq, Repr

def Walk.ofBytes (b : Bytes) : Walk :=
  let f (i : Nat) := field b (4 * i) 4
  { d0 := f 0, d1 := f 1, d2 := f 2, d3 := f 3, xs := (f 4, f 5, f 6), ys := (f 7, f 8, f 9), ws := (f 10, f 11, f 12),
    zs := (f 13, f 14, f 15) }

def Walk.rows (w : Walk) : Nat := w.d1 * w.d2 * w.d3
def Walk.total (w : Walk) : Nat := w.d0 * w.rows

/-- Row number r as (i1, i2, i3), dimension 1 fastest. -/
def Walk.row (w : Walk) (r : Nat) : Nat × Nat × Nat := (r % w.d1, r / w.d1 % w.d2, r / w.d1 / w.d2)

/-- Offset of a row from an operand's base. -/
def rowOff (st i : Nat × Nat × Nat) : Nat := i.1 * st.1 + i.2.1 * st.2.1 + i.2.2 * st.2.2

/-- Bytes from the base to the end of the last element touched, for rows whose own extent is `len` bytes. -/
def Walk.extent (w : Walk) (st : Nat × Nat × Nat) (len : Nat) : Nat := rowOff st (w.d1 - 1, w.d2 - 1, w.d3 - 1) + len

def stridesOk (st : Nat × Nat × Nat) (w : Nat) : Bool := st.1 % w == 0 && st.2.1 % w == 0 && st.2.2 % w == 0

/-- The mask bit of element i0 of row i. -/
def maskBit (s : State) (n base : Nat) (st i : Nat × Nat × Nat) (i0 : Nat) : Bool :=
  (leNat (s.readStore n (base + rowOff st i + i0 / 8) 1)).testBit (i0 % 8)

/-- Ones in the mask, in walk order. -/
def maskOnes (s : State) (n : Nat) (b : Bytes) (w : Walk) : Nat :=
  (List.range w.rows).foldl (fun acc r => (List.range w.d0).foldl (fun a i => a + b2n (maskBit s n (Ve.yOff b) w.ys (w.row r) i)) acc) 0

/-- Rows 6 to 8 of Table 7.4. -/
def vStartCheck (s : State) (n : Nat) (b : Bytes) (w : Walk) : Nat :=
  let wi := vWidth (Ve.inFmt b)
  let wz := vWidth (vZFmt b)
  let within (used : Bool) (off ext : Nat) : Bool := !used || decide (off + ext ≤ storeSize)
  let dims := decide (1 ≤ w.d0) && decide (1 ≤ w.d1) && decide (1 ≤ w.d2) && decide (1 ≤ w.d3) && decide (w.total ≤ 2 ^ 28)
  let dense := vIsExpand b
  let strides := (!(vUsesX b) || stridesOk w.xs wi) && (!(vUsesY b) || stridesOk w.ys wi) &&
    (!(vUsesW b) || stridesOk w.ws wi) && (!(vUsesZ b) || vIsCompress b || stridesOk w.zs wz)
  -- the stream of EXPAND is touched as far as the number of 1 bits (R146)
  let x := if dense then maskOnes s n b w * wi else w.extent w.xs (w.d0 * wi)
  let z := if vIsCompress b then w.total * wz else if vIsReduce b then w.extent w.zs 4 else w.extent w.zs (w.d0 * wz)
  let bitsLen := (w.d0 - 1) / 8 + 1
  if !dims then stBAD_DESCRIPTOR
  else if !strides then stBAD_DESCRIPTOR
  else if !(within (vUsesMask b) (Ve.yOff b) (w.extent w.ys bitsLen) && within (vUsesX b && decide (0 < x)) (Ve.xOff b) x &&
      within (vUsesY b) (Ve.yOff b) (w.extent w.ys (w.d0 * wi)) && within (vUsesW b) (Ve.wOff b) (w.extent w.ws (w.d0 * wi)) &&
      within (vUsesZ b) (Ve.zOff b) z && within (vMaskZ b) (Ve.zOff b) (w.extent w.zs bitsLen)) then stBAD_DESCRIPTOR
  else stOK

/-! ### Lane generators (R148 to R150) -/

/-- One step of the Galois generator.
DEDUCED: notes/assumptions/11.md. -/
def laneNext (x : Nat) : Nat := if x % 2 = 1 then (x / 2) ^^^ 0xD800000000000000 else x / 2

/-- The state of the generator after `k` cycles. -/
def laneAfter : (k x : Nat) → Nat
  | 0, x => x
  | k + 1, x => laneAfter k (laneNext x)

/-- The state that a wake gives the lane of physical number `p` (R149).
DEDUCED: notes/assumptions/11.md. -/
def laneSeed (seed : Word) (p : Nat) : Nat :=
  let x := seed.toNat ^^^ ((p + 1) * 0x9E3779B97F4A7C15 % 2 ^ 64)
  if x = 0 then 1 else x

/-- The 16-bit draw of conversion `i` (0 to 3) of `lane` of logical cluster `n` in cycle `c` since its half's wake (R86).
DEDUCED: notes/assumptions/11.md. -/
def State.laneDraw (s : State) (n lane i c : Nat) : Nat :=
  let p := (s.physCluster n).getD 0
  bits (laneAfter c (laneSeed (s.laneSeeds.get 0 (n / 16)) (p * 64 + lane))) (16 * i) 16

/-- V and q of Table 7.8. -/
def vRate (b : Bytes) : Nat × Nat :=
  let i := Ve.inFmt b
  let o := Ve.outFmt b
  let wide := decide (5 ≤ i) || decide (5 ≤ o)
  if vIsCompress b || vIsExpand b then (256 / vWidth i, 1)
  else if vIsPut b then (if i = 5 then 64 else 128, 1)
  else if vIsGet b || vIsTake b then (if o = 5 then 64 else 128, 1)
  else if Ve.op b = 0x0A ∧ 2 ≤ o ∧ o ≤ 4 then (256, 1)
  else if vOpIs b 0x10 0x17 then (if wide then 64 else 128, 4)
  else if vIsReduce b then (64, 1)
  else if Ve.op b = 0x0C then (if i = 5 then 64 else 128, 1)
  else (if wide then 64 else 128, 1)

/-- L of R156. -/
def vLead (b : Bytes) : Nat := if vIsReduce b then 32 else 20

/-- Stochastic rounding is selected (ROUND, R57). -/
def vStochastic (d : Desc) : Bool := Ve.round d.bytes == 2 || (Ve.round d.bytes == 0 && d.num.rounding == 1)

/-- The draw that element `j` of vector `t` takes for its conversion, none under nearest even. `delays` holds the cycles added
before each vector's conversion cycle. -/
def vDraw (s : State) (d : Desc) (n cycle : Nat) (delays : List Nat) (t j : Nat) : Option Nat :=
  if vStochastic d then
    let (v, q) := vRate d.bytes
    let per := max 1 (v / 64)
    let c := cycle + vLead d.bytes + t * q + q - 1 + ((delays.take (t + 1)).foldl (· + ·) 0)
    some (s.laneDraw n (j / per) (j % per) c)
  else none

/-! ### Element operations (R142 to R144) -/

/-- CONV_SAT and OVF_INF for a conversion into format `o` (R87, R89).
DEDUCED: notes/assumptions/18.md. -/
def convSat (d : Desc) (o : Nat) : Bool := match o with
  | 0 => d.num.convSat.testBit 0
  | 1 => d.num.convSat.testBit 1
  | 2 => true
  | 3 => !dOvfInf d.bytes
  | _ => false

/-- The value of an element of format `f`. -/
def vRead (f c : Nat) : Flagged FVal :=
  if f = 4 then (ofInt 8 c, 0) else if f = 6 then (ofInt 32 c, 0) else (vFp f).read c

/-- A value converted or rounded into format `o`. Integer, FP32 and FP64 results are rounded to nearest even (R85). -/
def vWrite (o : Nat) (v : FVal) (draw : Option Nat) (sat : Bool) : Flagged Nat :=
  if o = 4 then toInt 8 v else if o = 6 then toInt 32 v
  else (vFp o).round v (if o = 5 then none else draw) sat

/-- One element of ADD to CMPGT's predecessors and of RCP to GELU: exact operation, then one rounding into OUT_FMT.
DEDUCED: notes/assumptions/18.md. -/
def vElement (d : Desc) (x y w : Nat) (draw : Option Nat) : Flagged Nat :=
  let b := d.bytes
  let i := Ve.inFmt b
  let o := Ve.outFmt b
  let op := Ve.op b
  let f := vFp i
  let fin (r : Flagged FVal) (fl : Nat) (sat : Bool) : Flagged Nat :=
    let z := vWrite o r.1 draw sat
    (z.1, fl ||| r.2 ||| z.2)
  let rx := vRead i x
  let two (g : FVal → FVal → Flagged FVal) : Flagged Nat := let ry := vRead i y; fin (g rx.1 ry.1) (rx.2 ||| ry.2) false
  match op with
  | 0x01 => two fadd
  | 0x02 => two fsub
  | 0x03 => two fmul
  | 0x04 => let ry := vRead i y; let rw := vRead i w; fin (ffma rx.1 ry.1 rw.1) (rx.2 ||| ry.2 ||| rw.2) false
  | 0x05 =>
    let a := Fp.fp32.read (Ve.imm0 b)
    let c := Fp.fp32.read (Ve.imm1 b)
    fin (ffma rx.1 a.1 c.1) (rx.2 ||| a.2 ||| c.2) false
  | 0x06 => two fmax
  | 0x07 => two fmin
  | 0x08 | 0x09 =>
    if rx.1 = .nan then (f.nanCode, fIV)
    else
      let mag := if rx.2 = 0 then bits x 0 (f.width - 1) else 0
      (f.sign (if op = 0x08 then false else !x.testBit (f.width - 1)) mag, rx.2)
  | 0x0A => fin (rx.1, 0) rx.2 (convSat d o)
  | 0x10 => fin (fdiv (.fin false 1 0) rx.1) rx.2 false
  | 0x11 => fin (fsqrt rx.1) rx.2 false
  | 0x12 => fin (frsqrt rx.1) rx.2 false
  | _ => fin (vFunction op rx.1) rx.2 false

/-! ### Row reductions (R147) -/

/-- combine of the reduction named by the operation code, on FP32 codes.
DEDUCED: notes/assumptions/18.md. -/
def vCombine (op a b : Nat) : Flagged Nat :=
  if op = 0x22 then op2 .fp32 .fp32 fmax a b else if op = 0x23 then op2 .fp32 .fp32 fmin a b else add32 a b

def vFirst (op x : Nat) : Flagged Nat := if op = 0x21 then op2 .fp32 .fp32 fmul x x else (x, 0)

def vStep (op a x : Nat) : Flagged Nat :=
  if op = 0x21 then
    let v := Fp.fp32.value x
    let r := ffma v v (Fp.fp32.value a)
    let o := Fp.fp32.round r.1
    (o.1, r.2 ||| o.2)
  else vCombine op a x

/-- One level of the tree: a[j] ← combine(a[2j], a[2j + 1]), an absent operand passing the other. -/
def vLevel (op : Nat) : List (Option Nat) → Flagged (List (Option Nat))
  | a :: b :: r =>
    let t := vLevel op r
    match a, b with
    | some x, some y => let c := vCombine op x y; (some c.1 :: t.1, c.2 ||| t.2)
    | some x, none => (some x :: t.1, t.2)
    | none, y => (y :: t.1, t.2)
  | [a] => ([a], 0)
  | [] => ([], 0)

/-- Reduces one row of FP32 codes in the order of R147. -/
def vReduce (op : Nat) (xs : List Nat) : Flagged Nat :=
  let lanes := ((List.range xs.length).zip xs).foldl (fun (acc : List (Option Nat) × Nat) p =>
    let l := p.1 % 64
    match acc.1.getD l none with
    | none => let r := vFirst op p.2; (acc.1.set l (some r.1), acc.2 ||| r.2)
    | some a => let r := vStep op a p.2; (acc.1.set l (some r.1), acc.2 ||| r.2)) (List.replicate 64 none, 0)
  let t := (List.range 6).foldl (fun (acc : List (Option Nat) × Nat) _ => let r := vLevel op acc.1; (r.1, acc.2 ||| r.2)) lanes
  ((t.1.headD none).getD 0, t.2)

/-! ### Whole descriptors -/

/-- Vectors in walk order (R139): row, first element, length. -/
def vVectors (b : Bytes) (w : Walk) : List (Nat × Nat × Nat) :=
  let v := (vRate b).1
  (List.range w.rows).flatMap fun r => (runsOf v w.d0).map fun c => (r, c.1, c.2)

def vLoad (s : State) (n off f : Nat) : Nat := leNat (s.readStore n off (vWidth f))

/-- The writes of one vector of an element operation: store offset, width and code, with the flags. -/
def vVector (s : State) (d : Desc) (n : Nat) (w : Walk) (cycle : Nat) (delays : List Nat) (t : Nat) (v : Nat × Nat × Nat) :
    List (Nat × Nat × Nat) × Nat :=
  let b := d.bytes
  let i := Ve.inFmt b
  let wi := vWidth i
  let wz := vWidth (Ve.outFmt b)
  let row := w.row v.1
  let els := (List.range v.2.2).map fun j =>
    let i0 := v.2.1 + j
    let x := vLoad s n (Ve.xOff b + i0 * wi + rowOff w.xs row) i
    let y := vLoad s n (Ve.yOff b + i0 * wi + rowOff w.ys row) i
    let ww := vLoad s n (Ve.wOff b + i0 * wi + rowOff w.ws row) i
    let z := Ve.zOff b + i0 * wz + rowOff w.zs row
    if Ve.op b = 0x0B then ((z, wz, if maskBit s n (Ve.yOff b) w.ys row i0 then x else ww), 0)
    else let r := vElement d x y ww (vDraw s d n cycle delays t j); ((z, wz, r.1), r.2)
  (els.map (·.1), els.foldl (fun a e => a ||| e.2) 0)

/-- CMPGT over one vector: mask bits of Z. -/
def vCmpVector (s : State) (d : Desc) (n : Nat) (w : Walk) (v : Nat × Nat × Nat) : List (Nat × Nat × Bool) × Nat :=
  let b := d.bytes
  let i := Ve.inFmt b
  let wi := vWidth i
  let row := w.row v.1
  let els := (List.range v.2.2).map fun j =>
    let i0 := v.2.1 + j
    let x := vRead i (vLoad s n (Ve.xOff b + i0 * wi + rowOff w.xs row) i)
    let y := vRead i (vLoad s n (Ve.yOff b + i0 * wi + rowOff w.ys row) i)
    ((Ve.zOff b + i0 / 8 + rowOff w.zs row, i0 % 8, flt y.1 x.1), x.2 ||| y.2)
  (els.map (·.1), els.foldl (fun a e => a ||| e.2) 0)

/-- Sets one bit of a store byte. -/
def putBit (s : State) (n : Nat) (p : Nat × Nat × Bool) : State :=
  s.writeStore n p.1 (leBytes 1 (setBits (leNat (s.readStore n p.1 1)) p.2.1 1 (b2n p.2.2)))

/-- Element operations, vector by vector: inputs of a vector are read after the outputs of the one before are written (R141). -/
def runElements (s : State) (d : Desc) (n : Nat) (w : Walk) (cycle : Nat) (delays : List Nat) : Flagged State :=
  let vs := vVectors d.bytes w
  ((List.range vs.length).zip vs).foldl (fun (acc : Flagged State) p =>
    if vMaskZ d.bytes then
      let r := vCmpVector acc.1 d n w p.2
      (r.1.foldl (fun s q => putBit s n q) acc.1, acc.2 ||| r.2)
    else
      let r := vVector acc.1 d n w cycle delays p.1 p.2
      (r.1.foldl (fun s q => s.writeStore n q.1 (leBytes q.2.1 q.2.2)) acc.1, acc.2 ||| r.2)) (s, 0)

/-- RSUM, RSUMSQ, RMAX and RMIN: one FP32 value a row. -/
def runReduce (s : State) (d : Desc) (n : Nat) (w : Walk) : Flagged State :=
  let b := d.bytes
  let i := Ve.inFmt b
  (List.range w.rows).foldl (fun (acc : Flagged State) r =>
    let row := w.row r
    let xs := (List.range w.d0).map fun i0 =>
      convert (vFp i) .fp32 (vLoad acc.1 n (Ve.xOff b + i0 * vWidth i + rowOff w.xs row) i)
    let red := vReduce (Ve.op b) (xs.map (·.1))
    (acc.1.writeStore n (Ve.zOff b + rowOff w.zs row) (leBytes 4 red.1), xs.foldl (fun a x => a ||| x.2) (acc.2 ||| red.2))) (s, 0)

/-- COMPRESS (R145): selected elements to a dense stream, then their count. -/
def runCompress (s : State) (b : Bytes) (n : Nat) (w : Walk) : State :=
  let wi := vWidth (Ve.inFmt b)
  let r := (vVectors b w).foldl (fun (acc : State × Nat) v =>
    let row := w.row v.1
    let got := ((List.range v.2.2).map (v.2.1 + ·)).filter (maskBit acc.1 n (Ve.yOff b) w.ys row)
    let codes := got.map fun i0 => acc.1.readStore n (Ve.xOff b + i0 * wi + rowOff w.xs row) wi
    (acc.1.writeStore n (Ve.zOff b + acc.2 * wi) codes.flatten, acc.2 + got.length)) (s, 0)
  r.1.writeStore n (Ve.aux b) (leBytes 4 r.2)

/-- EXPAND (R146): the stream back under the mask, with the fill where FILL is set. -/
def runExpand (s : State) (b : Bytes) (n : Nat) (w : Walk) : State :=
  let wi := vWidth (Ve.inFmt b)
  let fill := (Ve.param b).testBit 0
  ((vVectors b w).foldl (fun (acc : State × Nat) v =>
    let row := w.row v.1
    let sel := (List.range v.2.2).map fun j => maskBit acc.1 n (Ve.yOff b) w.ys row (v.2.1 + j)
    let ones := (sel.filter id).length
    let src := acc.1.readStore n (Ve.xOff b + acc.2 * wi) (ones * wi)
    let out := ((List.range v.2.2).zip sel).foldl (fun (a : State × Nat) p =>
      let off := Ve.zOff b + (v.2.1 + p.1) * wi + rowOff w.zs row
      if p.2 then (a.1.writeStore n off (slice src (a.2 * wi) wi), a.2 + 1)
      else if fill then (a.1.writeStore n off (leBytes wi (Ve.imm0 b)), a.2)
      else a) (acc.1, 0)
    (out.1, acc.2 + ones)) (s, 0)).1

/-! ### The muslin stash (R151 to R155) -/

/-- Blocks of 32 in a row. -/
def stashBlocks (w : Walk) : Nat := ceilDiv w.d0 32

/-- Bytes of one block's elements: BF16, MXFP8, MXFP4. -/
def stashBlockBytes (fmt : Nat) : Nat := if fmt = 0 then 64 else if fmt = 1 then 32 else 16

def stashScaleOff (fmt : Nat) (w : Walk) : Nat :=
  if fmt = 0 then 0 else roundUp (0x40 + w.rows * stashBlocks w * stashBlockBytes fmt) 64

/-- LENGTH of a record. -/
def stashLength (fmt : Nat) (w : Walk) : Nat :=
  if fmt = 0 then 0x40 + w.rows * stashBlocks w * 64 else roundUp (stashScaleOff fmt w + w.rows * stashBlocks w) 64

/-- Offset of the oldest record, the ring's tail. -/
def StashRing.tail (r : StashRing) : Nat := match r.recs with
  | [] => 0
  | x :: _ => x.off

/-- Where a record of `len` bytes goes in a ring of `size` bytes, if anywhere (R152): at the head, or at the base. -/
def StashRing.placeFor (r : StashRing) (size len : Nat) : Option Nat :=
  if r.recs.isEmpty then (if len ≤ size then some 0 else none)
  else if r.tail < r.head then
    (if len ≤ size - r.head then some r.head else if len ≤ r.tail then some 0 else none)
  else (if len ≤ r.tail - r.head then some r.head else none)

def StashRing.alloc (r : StashRing) (off len : Nat) : StashRing :=
  { recs := r.recs ++ [{ off := off, len := len, freed := false }], head := off + len }

/-- Frees a record; the tail passes freed records, and an empty ring returns to its base (R153). -/
def StashRing.free (r : StashRing) (off : Nat) : StashRing :=
  let rs := (r.recs.map fun x => if x.off = off then { x with freed := true } else x).dropWhile (·.freed)
  if rs.isEmpty then {} else { r with recs := rs }

def StashRing.liveAt (r : StashRing) (off : Nat) : Option StashRec := r.recs.find? fun x => x.off == off && !x.freed

def StashRing.live (r : StashRing) : Nat := (r.recs.filter (!·.freed)).length

/-- Bytes between tail and head, skipped spans included. -/
def StashRing.used (r : StashRing) (size : Nat) : Nat :=
  if r.recs.isEmpty then 0 else if r.tail < r.head then r.head - r.tail else size - r.tail + r.head

def State.stashOf (s : State) (g : Nat) : Stash := s.stash.get {} g
def State.setStash (s : State) (g : Nat) (x : Stash) : State := { s with stash := s.stash.set {} g x }

/-- The region and ring that a handle names, and the record's offset (R152). -/
def State.stashHandle (s : State) (g h : Nat) : Option (Region × StashRec × Bool) :=
  let ovf := h.testBit 31
  match s.stashRegion g (if ovf then 2 else 1) with
  | none => none
  | some r =>
    let ring := if ovf then (s.stashOf g).ovf else (s.stashOf g).near
    (ring.liveAt (bits h 0 31 * 64)).map fun x => (r, x, ovf)

/-- Where STASH_PUT would place a record: ring 1 STASH or 2 STASH_OVERFLOW, and the offset. -/
def State.stashPlace (s : State) (g len : Nat) : Option (Bool × Region × Nat) :=
  let st := s.stashOf g
  if 4096 ≤ st.near.live + st.ovf.live then none
  else
    let at1 := (s.stashRegion g 1).bind fun r => (st.near.placeFor r.size len).map fun o => (false, r, o)
    match at1 with
    | some x => some x
    | none => (s.stashRegion g 2).bind fun r => (st.ovf.placeFor r.size len).map fun o => (true, r, o)

/-- Encodes X block by block (R90, R151): element bytes, scale bytes and flags. `draw` gives element j of row r its draw. -/
def stashEncode (s : State) (d : Desc) (n : Nat) (w : Walk) (draw : Nat → Nat → Option Nat) : Bytes × Bytes × Nat :=
  let b := d.bytes
  let i := Ve.inFmt b
  let fmt := Ve.param b
  (List.range w.rows).foldl (fun acc r =>
    (List.range (stashBlocks w)).foldl (fun (acc : Bytes × Bytes × Nat) k =>
      let js := (List.range 32).map (32 * k + ·)
      let codes := js.map fun j => if j < w.d0 then vLoad s n (Ve.xOff b + j * vWidth i + rowOff w.xs (w.row r)) i else 0
      if fmt = 0 then
        let cs := (js.zip codes).map fun p => if i = 1 then (p.2, 0) else convert .fp32 .bf16 p.2 (draw r p.1) (convSat d 1)
        (acc.1 ++ (cs.map fun c => leBytes 2 c.1).flatten, acc.2.1, cs.foldl (fun a c => a ||| c.2) acc.2.2)
      else
        let m := mxEncode (vFp i) (if fmt = 1 then .e4m3 else .e2m1) codes (js.map (draw r))
        let els := if fmt = 1 then m.2.1.map (BitVec.ofNat 8 ·)
          else (List.range 16).map fun q => BitVec.ofNat 8 (m.2.1.getD (2 * q) 0 + 16 * m.2.1.getD (2 * q + 1) 0)
        (acc.1 ++ els, acc.2.1 ++ [BitVec.ofNat 8 m.1], acc.2.2 ||| m.2.2)) acc) ([], [], 0)

/-- The padding bytes of a record from offset `lo` up to `hi`, which the spec leaves open.
DESIGN CHOICE: notes/assumptions/134.md. -/
def stashPadding (lo hi : Nat) : Bytes := (List.range (hi - lo)).map fun i => Config.stashPad (lo + i)

/-- A whole record (Table 7.6), padded before the scale area and up to LENGTH. LENGTH and SCALE_OFF hold the low 32 bits of what reaches 4 GiB.
DEDUCED: notes/assumptions/102.md. -/
def stashRecord (d : Desc) (w : Walk) (els scales : Bytes) (flags : Nat) : Bytes :=
  let fmt := Ve.param d.bytes
  let len := stashLength fmt w
  let w0 := fmt + Ve.inFmt d.bytes * 2 ^ 8 + len % 2 ^ 32 * 2 ^ 32
  let hd := leBytes 8 w0 ++ leBytes 8 (2 ^ 64 - 1 - w0) ++ leBytes 4 w.d0 ++ leBytes 4 w.d1 ++ leBytes 4 w.d2 ++ leBytes 4 w.d3 ++
    leBytes 4 (stashScaleOff fmt w) ++ leBytes 1 flags ++ leBytes 27 0
  let body := hd ++ els
  let all := body ++ stashPadding body.length (stashScaleOff fmt w) ++ scales
  slice (all ++ stashPadding all.length len) 0 len

/-- The vector of row r, element j, counted over the descriptor, and the element's place in it. -/
def vIndex (b : Bytes) (w : Walk) (r j : Nat) : Nat × Nat :=
  let v := (vRate b).1
  (r * ceilDiv w.d0 v + j / v, j % v)

/-- Writes the bytes that lie outside retired pages (R129, R154). -/
def State.writeOutside (s : State) (a : Nat) (bs : Bytes) : State :=
  if !s.touchesRetired a bs.length then s.writeBytes a bs
  else (List.range bs.length).foldl (fun (t : State) i =>
    if s.touchesRetired (a + i) 1 then t else t.writeBytes (a + i) (slice bs i 1)) s

/-- STASH_PUT for group `g` (R151, R152). A record that meets a retired page keeps its place, holds its other bytes, and has no handle
record.
DEDUCED: notes/assumptions/102.md. -/
def runPut (s : State) (d : Desc) (n g : Nat) (w : Walk) (cycle : Nat) (delays : List Nat) : State × Nat × Nat :=
  let len := stashLength (Ve.param d.bytes) w
  match s.stashPlace g len with
  | none => (s.setStash g { s.stashOf g with full := true }, stABORTED, 0)
  | some (ovf, r, off) =>
    let e := stashEncode s d n w fun row j => let v := vIndex d.bytes w row j; vDraw s d n cycle delays v.1 v.2
    let st := s.stashOf g
    let st' := if ovf then { st with ovf := st.ovf.alloc off len, overflowed := true } else { st with near := st.near.alloc off len }
    let h := off / 64 + b2n ovf * 2 ^ 31
    let s1 := (s.setStash g st').writeOutside (r.base + off) (stashRecord d w e.1 e.2.1 e.2.2)
    if s.touchesRetired (r.base + off) len then (s1, stRETIRED_PAGE, e.2.2)
    else
      (s1.writeStore n (Ve.aux d.bytes) (leBytes 8 (h + len / 64 * 2 ^ 32)), stOK, e.2.2)

/-- Decodes element j of row r of a record whose bytes are `rec` (R91, R151); its scale is read at the SCALE_OFF that the record holds.
DEDUCED: notes/assumptions/102.md. -/
def stashDecode (rec : Bytes) (w : Walk) (o : Nat) (sat : Bool) (r j : Nat) : Flagged Nat :=
  let fmt := field rec 0 1
  let blk := r * stashBlocks w + j / 32
  let q := j % 32
  let base := 0x40 + blk * stashBlockBytes fmt
  if fmt = 0 then
    let c := field rec (base + 2 * q) 2
    if o = 1 then (c, 0) else convert .bf16 .fp32 c
  else
    let scale := field rec (field rec 0x20 4 + blk) 1
    let c := if fmt = 1 then field rec (base + q) 1 else bits (field rec (base + q / 2) 1) (4 * (q % 2)) 4
    mxDecode (if fmt = 1 then .e4m3 else .e2m1) (vFp o) scale c sat

/-- The bytes of a record that element j of row r is decoded from lie in no retired page; `a` is the record's address. -/
def State.elementHeld (s : State) (a : Nat) (rec : Bytes) (w : Walk) (r j : Nat) : Bool :=
  let fmt := field rec 0 1
  let blk := r * stashBlocks w + j / 32
  let q := j % 32
  let at_ := 0x40 + blk * stashBlockBytes fmt + (if fmt = 0 then 2 * q else if fmt = 1 then q else q / 2)
  !s.touchesRetired (a + at_) (if fmt = 0 then 2 else 1) && (fmt == 0 || !s.touchesRetired (a + field rec 0x20 4 + blk) 1)

/-- STASH_GET and STASH_TAKE (R151, R153); rows 9 to 11 of Table 7.4 come first. Elements held in a retired page are left out (R154), and
a TAKE that met one does not free its record; a header in a retired page cannot be read at all.
DEDUCED: notes/assumptions/102.md. -/
def runGet (s : State) (d : Desc) (n g : Nat) (w : Walk) : State × Nat × Nat :=
  let b := d.bytes
  let o := Ve.outFmt b
  match s.stashHandle g (Ve.param b) with
  | none => (s, stBAD_DESCRIPTOR, 0)
  | some (r, x, ovf) =>
    let a := r.base + x.off
    if s.touchesRetired a 64 then (s, stRETIRED_PAGE, 0)
    else
      let rec_ := s.readBytes (r.base + x.off) x.len
      let dims := [w.d0, w.d1, w.d2, w.d3]
      if field rec_ 8 8 ≠ 2 ^ 64 - 1 - field rec_ 0 8 then (s, stCOMPLEMENT_MISMATCH, 0)
      else if dims ≠ (List.range 4).map (fun i => field rec_ (0x10 + 4 * i) 4) then (s, stBAD_DESCRIPTOR, 0)
      else
        let out := (List.range w.rows).foldl (fun acc row =>
          (List.range w.d0).foldl (fun (acc : Flagged State) j =>
            let c := stashDecode rec_ w o (convSat d o) row j
            if !s.elementHeld a rec_ w row j then acc
            else (acc.1.writeStore n (Ve.zOff b + j * vWidth o + rowOff w.zs (w.row row)) (leBytes (vWidth o) c.1), acc.2 ||| c.2)) acc)
          ((s, 0) : Flagged State)
        let st := out.1.stashOf g
        let whole := !s.touchesRetired a x.len
        let freed := if vIsTake b && whole then out.1.setStash g
          (if ovf then { st with ovf := st.ovf.free x.off } else { st with near := st.near.free x.off }) else out.1
        (freed, if whole then stOK else stRETIRED_PAGE, out.2)

/-- STASH_FREE (R153): the record's memory is not touched. -/
def runFree (s : State) (d : Desc) (g : Nat) : State × Nat × Nat :=
  match s.stashHandle g (Ve.param d.bytes) with
  | none => (s, stBAD_DESCRIPTOR, 0)
  | some (_, x, ovf) =>
    let st := s.stashOf g
    (s.setStash g (if ovf then { st with ovf := st.ovf.free x.off } else { st with near := st.near.free x.off }), stOK, 0)

/-- Domain of the near-tier controller that holds the stash allocator of cluster `n`'s group (R152). -/
def State.allocatorDomain (s : State) (n : Nat) : List Nat :=
  match (s.groupOf n).bind fun g => s.stashRegion g 1 with
  | some r => s.rangeDomains r.base 1
  | none => []

/-- Domains of the stash memory that a stash descriptor reaches when it starts now; a STASH_FREE reaches none.
DEDUCED: notes/assumptions/48.md. -/
def State.stashDomains (s : State) (d : Desc) (n : Nat) (w : Walk) : List Nat :=
  match s.groupOf n with
  | none => []
  | some g =>
    if vIsPut d.bytes then match s.stashPlace g (stashLength (Ve.param d.bytes) w) with
      | some (_, r, off) => s.rangeDomains (r.base + off) (stashLength (Ve.param d.bytes) w)
      | none => []
    else if vIsGet d.bytes || vIsTake d.bytes then match s.stashHandle g (Ve.param d.bytes) with
      | some (r, x, _) => s.rangeDomains (r.base + x.off) x.len
      | none => []
    else []

/-- Runs a vector descriptor from its start on cluster `n` and leaves its completion owed. -/
def State.runVector (s : State) (d : Desc) (n cycle : Nat) (delays : List Nat) : State :=
  let b := d.bytes
  let w := Walk.ofBytes (s.readStore n (Ve.walk b) 64)
  let st := vStartCheck s n b w
  let g := (s.groupOf n).getD 0
  let fin (r : State × Nat × Nat) : State := r.1.setWork d.id (.done r.2.1 r.2.2 0)
  if st ≠ stOK then fin (s, st, 0)
  else if vIsCompress b then fin (runCompress s b n w, stOK, 0)
  else if vIsExpand b then fin (runExpand s b n w, stOK, 0)
  else if vIsPut b then fin (runPut s d n g w cycle delays)
  else if vIsFree b then fin (runFree s d g)
  else if vIsStash b then fin (runGet s d n g w)
  else if vIsReduce b then let r := runReduce s d n w; fin (r.1, stOK, r.2)
  else let r := runElements s d n w cycle delays; fin (r.1, stOK, r.2)

end Sys2Proof.Machine
end

