-- ==== Sys2Proof/Machine/Power.lean ====
section
/-! DEFINITION. Power domains and envelopes (17): what a descriptor needs, what keeps a domain on, what a domain loses when it goes
off, and the two phases of an envelope switch. -/

namespace Sys2Proof.Machine

/-! ### What a descriptor needs (R188) -/

/-- Domain of the unit that executes a descriptor: a core's FENCE and SIGNAL execute at that core. -/
def Desc.unitDomain (d : Desc) : List Nat := match d.place with
  | .array n => [n / 16]
  | .slice n => [n / 16]
  | .movers n => [n / 16]
  | .engine e => [40 + e]
  | .issuer => match d.iss with
    | .core k => [k / 256]
    | .host _ => []

/-- Domains of a global range's rows that lie on this module; for a range of another, that of the port by which it is reached. -/
def State.globalDomains (s : State) (ga stride rows len : Nat) : List Nat :=
  if s.isSelf (gaNode ga) then (rowStarts (gaLocal ga) stride rows).flatMap fun a => s.rangeDomains a len else s.linkDomains (gaNode ga)

/-- Domains that a stash operation needs: the stack of the allocator's controller (R152), the record that a handle names, and, for the
descriptor at the head of its slice's queue, whose walk record is settled, the place that its record would take.
DEDUCED: notes/assumptions/48.md. -/
def State.stashNeeds (s : State) (d : Desc) : List Nat := match d.place with
  | .slice n =>
    if vIsStash d.bytes then
      let head := (s.descs.find? fun x => x.place == .slice n && x.work == .queued).map (·.id) == some d.id
      s.allocatorDomain n ++ (if vIsPut d.bytes && !head then [] else s.stashDomains d n (Walk.ofBytes (s.readStore n (Ve.walk d.bytes) 64)))
    else []
  | _ => []

/-- Domains of the memory that a descriptor reads or writes. -/
def State.memoryNeeds (s : State) (d : Desc) : List Nat :=
  let b := d.bytes
  let t := dType b
  if t = tyCOPY then s.globalDomains (Cp.src b) (Cp.srcStride b) (Cp.rows b) (Cp.bytes b) ++
    s.globalDomains (Cp.dst b) (Cp.dstStride b) (Cp.rows b) (Cp.bytes b)
  else if t = tyRACC then
    let n := Rc.count b * racSrc (Rc.op b)
    s.rangeDomains (Rc.src b) n ++ (if Rc.op b = 5 then s.rangeDomains (Rc.ret b) n else []) ++
      s.globalDomains (Rc.dst b) 0 1 (Rc.count b * racDst (Rc.op b))
  else if t = tyGATHER then
    (if Ga.kind b = 1 then (if s.isSelf (Ga.node b) then s.sergeDomains else [])
     else s.globalDomains (Ga.src b) 0 1 (Ga.bytes b) ++ s.rangeDomains (Ga.dst b) (Ga.bytes b))
  else if t = tyDROP then (if Ga.kind b = 1 then [] else s.rangeDomains (Ga.dst b) (Ga.bytes b))
  else if t = tyBCAST then s.rangeDomains (Bc.src b) (Bc.bytes b) ++
    (if Bc.bucket b = 0xFFFFFFFF then [] else s.bucketDomains (Bc.bucket b)) ++
    (s.topo.issuerStreams (Bc.axes b)).flatMap fun x => (s.topo.portFor x.1 x.2.1).toList.map (32 + ·)
  else if t = tyPERMUTE then s.rangeDomains (Pm.src b) (Pm.bytes b) ++ s.globalDomains (Pm.dst b) 0 1 (Pm.bytes b)
  else if t = tySIGNAL then (if s.isSelf (Sg.node b) then [dTarget b / 16] else [])
  else if t = tySOLVE then s.sergeDomains ++ (if So.group b = 0xFF then [] else s.offloadDomains b)
  else if t = tyCURVGATHER then (if !cgEmit b then [] else if s.isSelf (Cg.dest b) then s.ringDomains (Cg.factor b) else s.linkDomains (Cg.dest b))
  else if t = tyVECOP then s.stashNeeds d
  else []

/-- Every domain that a descriptor needs. -/
def State.needs (s : State) (d : Desc) : List Nat := d.unitDomain ++ s.memoryNeeds d

/-! ### What keeps a domain on (Table 17.3) -/

/-- The stack that holds the REDUCTION region's BASE, while this module owns or mirrors a bucket (R301). -/
def State.reductionStack (s : State) : Option Nat :=
  if s.bucketsHere.isEmpty then none else (s.region rkREDUCTION).map fun r => r.base / 0x2000000000

/-- Domains of the memory that a prefetch or write-back moves (R324, R325). -/
def State.prefetchDomains (s : State) : List Nat :=
  s.bucketsHere.flatMap fun b =>
    let x := s.bkt b
    ((if x.pfBusy then [x.runningPf] else []) ++ (if x.wbBusy then [x.wb] else [])).flatMap fun r =>
      s.rangeDomains r.src r.bytes ++ s.rangeDomains r.stage r.bytes

/-- A stack holds a stash allocator with live records: the stack of the group's STASH BASE (R152). -/
def State.stashOn (s : State) (k : Nat) : Bool :=
  s.regions.any fun r => r.kind == rkSTASH && r.base / 0x2000000000 == k &&
    decide (0 < (s.stashOf r.group).near.live + (s.stashOf r.group).ovf.live)

/-- An accepted, uncompleted descriptor needs domain `d` (R190). -/
def State.neededBy (s : State) (d : Nat) : Bool := s.descs.any fun x => (s.needs x).contains d

/-- A stage queue held in link buffer `t` holds bytes. -/
def State.stageHeld (s : State) (t : Nat) : Bool :=
  ((List.range s.pipe.queues.length).zip s.pipe.queues).any fun q => q.2.lTile == t && decide (0 < (s.shard.queues.get {} q.1).heldBytes)

/-- A condition of Table 17.3 holds (KEPT_ON).
DEDUCED: notes/assumptions/86.md. -/
def State.keptOn (s : State) (d : Nat) : Bool :=
  s.neededBy d || s.dmk.clears.contains d || (s.hif.waiting.any fun w => (s.reqDomains w.req).contains d) ||
  (if d < 32 then (s.offloads.any fun o => o.n / 16 == d) || (List.range 16).any fun i => (List.range 16).any fun j =>
      let c := (s.cluster (16 * d + i)).cores.get {} j
      c.st == .run || c.st == .wait
   else if d < 40 then s.topo.axisOfPort (d - 32) != 0xFF || s.stageHeld (d - 32)
   else if d < 44 then (decide (d - 40 < s.env.engines) && s.enginePresent (d - 40)) || !(s.engineQueue (d - 40)).isEmpty ||
      (s.eng (d - 40)).run.isSome
   else if d = 44 then (List.range 4).any fun e => (s.dom (40 + e)).awaitPublish == swapAwaits
   else if d < 47 then s.up
   else if d < 50 then s.prefetchDomains.contains d
   else s.reductionStack == some (d - 50) || s.stashOn (d - 50) || s.prefetchDomains.contains d)

/-- A domain is idle (R385). -/
def State.domIdle (s : State) (d : Nat) : Bool := (s.dom d).st == .on && !s.keptOn d && !(s.dom d).wanted

/-- The idle timers of domains that have just served start again (R385).
DEDUCED: notes/assumptions/93.md. -/
def State.touch (s : State) (ds : List Nat) : State := (ds.filter (· < 58)).foldl (fun s d => s.setDom d { s.dom d with idleSince := s.tick }) s

/-! ### Transitions (R384) -/

/-- What a domain that has gone off has lost: its SRAM and registers read their reset values at its next wake (R384).
DEDUCED: notes/assumptions/47.md. -/
def State.loseDomain (s : State) (d : Nat) : State :=
  if d < 32 then { s with clusters := s.clusters.filter (fun e => e.1 / 16 != d), offloads := s.offloads.filter (fun o => o.n / 16 != d) }.clearSram (storeBase (16 * d)) (storeBase (16 * d + 16))
  else if d < 40 then { s with ports := s.ports.erase (d - 32) }.clearSram (linkBase (d - 32)) (linkBase (d - 31))
  else if d < 44 then { s with engines := s.engines.erase (d - 40) }.clearSram (workBase (d - 40)) (workBase (d - 39))
  else if d < 47 then s
  else if d < 50 then { s with recal := s.recal.filter fun e => !(decide (8 ≤ e.1) && (e.1 - 8) / 8 == d - 47) }
  else { s with recal := s.recal.erase (d - 50) }

/-- Begins the transition into retain or off. -/
def State.sleep (s : State) (d : Nat) (off : Bool) : State :=
  s.setDom d { s.dom d with st := if off then .toOff else .toRetain, force := if 2 ≤ (s.dom d).force then 0 else (s.dom d).force }

/-- Scrub units whose memory a domain's wake from off clears (R363). -/
def scrubUnitsOf (d : Nat) : List Nat :=
  if d < 32 then (List.range 16).map (16 * d + ·) else if d < 40 then [512 + (d - 32)] else if d < 44 then [520 + (d - 40)] else []

/-- A wake ends: the domain is on, the lane generators take SEED (R149), remap entries take effect (R246), and laps of cleared memory
start again. Words of `lost` are not remapped at a wake from retain.
DEDUCED: notes/assumptions/47.md. -/
def State.wakeEnds (s : State) (d : Nat) (lost : List (Nat × Nat × Nat)) : State :=
  let x := s.dom d
  let fromOff := x.st == .wakeOff
  let swapped := x.awaitPublish == swapAwaits
  let y := s.dom 44
  let s0 := if swapped then (s.setDom 44 { y with st := .off, wakes := min (y.wakes + 1) 0xFFFFFF }).calicoDirty else s
  -- what reached a half's registers while it was off is lost (R384)
  let s0 := if fromOff ∧ d < 32 then { s0 with clusters := s0.clusters.filter fun e => e.1 / 16 != d } else s0
  let s1 := s0.setDom d
    { x with
      st := .on, wakes := min (x.wakes + 1) 0xFFFFFF, idleSince := s.tick, wanted := false
      awaitPublish := if swapped then s.nextShown else x.awaitPublish }
  let s2 := if d < 32 then { s1.loadRemapsBut d (if fromOff then [] else lost) with laneSeeds := s1.laneSeeds.set 0 d s1.numerics.seed } else s1
  if fromOff then
      { s2 with
        engines := if decide (40 ≤ d) && decide (d < 44) then s2.engines.erase (d - 40) else s2.engines
        scrub := (scrubUnitsOf d).foldl (fun m u => m.set { lapStart := s.startedAt } u { (m.get { lapStart := s.startedAt } u : Scrub) with pos := 0, lapStart := s.tick, overdue := false }) s2.scrub }
    else s2

/-- FORCE 2 and 3 are carried out once their domain is idle (R386). -/
def State.settleForce (s : State) (d : Nat) : State :=
  let x := s.dom d
  if x.force = 2 ∧ s.domIdle d then s.sleep d false
  else if x.force = 3 ∧ s.domIdle d then s.sleep d true
  else if x.force = 3 ∧ x.st = .retain then s.sleep d true
  else if x.force = 2 ∧ (x.st = .retain ∨ x.st = .off) then s.setDom d { x with force := 0 }
  else if x.force = 3 ∧ x.st = .off then s.setDom d { x with force := 0 }
  else s

/-- An engine has no SOLVE queued or running. -/
def State.engineDrained (s : State) (e : Nat) : Bool := (s.engineQueue e).isEmpty && (s.eng e).run.isNone

/-- An engine that the envelope keeps off goes off, once it has finished its SOLVEs (R232). -/
def State.turnOff (s : State) (d : Nat) : State :=
  if s.envOff d && s.engineDrained (d - 40) && ((s.dom d).st == .on || (s.dom d).st == .retain) then s.sleep d true else s

/-- Tries every pending FORCE 2 or 3, and the engines that the envelope keeps off. -/
def State.settleForces (s : State) : State :=
  (List.range 4).foldl (fun s e => s.turnOff (40 + e)) ((s.domains.filter fun e => decide (2 ≤ e.2.force)).foldl (fun s e => s.settleForce e.1) s)

/-! ### Envelopes (Table 17.12, R390, R391) -/

/-- Cluster clock in MHz, lanes, near cap in GB/s, engines, FP32 adder rate in GB/s. -/
structure EnvSet where
  clock : Nat
  lanes : Nat
  nearCap : Nat
  engines : Nat
  adders : Nat

def envSet (code : Nat) : EnvSet :=
  match code with
  | 0 => ⟨1250, 8, 900, 1, 256⟩
  | 1 => ⟨1100, 16, 1200, 2, 256⟩
  | 2 => ⟨900, 16, 1200, 2, 512⟩
  | 3 => ⟨800, 16, 1200, 4, 256⟩
  | _ => ⟨600, 4, 300, 1, 256⟩

/-- ENV_LOW is forced by sag (R382) or by temperature (R439). -/
def State.lowForced (s : State) : Bool := s.lowSag || s.lowTherm

/-- The envelope that should be in force. -/
def State.wantedEnv (s : State) : Nat := if s.lowForced then 4 else s.env.recorded

/-- Lanes that this end allows (LANES_OK, R271). -/
def State.lanesOk (s : State) : Nat := if s.env.phase = .falls then min s.env.lanes (envSet s.env.target).lanes else s.env.lanes

/-- Puts a lane action in line for the port's next control flit (R277). -/
def State.queueAction (s : State) (p : Nat) (a : Action) : State := let x := s.port p; s.setPort p { x with actions := x.actions ++ [a] }

/-- An end that has lowered its LANES_OK below W sends WIDTH (R297).
DEDUCED: notes/assumptions/60.md. -/
def State.announceWidth (s : State) (p : Nat) : State :=
  let x := s.port p
  let w := min x.active s.lanesOk
  if (x.st = 3 ∨ x.st = 4) ∧ w < x.width then s.queueAction p { code := 4, arg0 := w, arg1 := 0 } else s

/-- The falls of a switch toward `t`: caps and adder rates at once, the engines that `t` turns off are allowed no more. -/
def State.beginFalls (s : State) (t : Nat) (since : Nat) : State :=
  let e := s.env
  let x := envSet t
  let s1 := { s with env := { e with
      phase := .falls, target := t, restart := false, startedAt := since, nearCap := min e.nearCap x.nearCap
      adders := min e.adders x.adders, engines := min e.engines x.engines } }
  ((List.range 8).foldl State.announceWidth s1).settleForces

/-- Starts a switch when another envelope should be in force; a running one starts again when its phase ends, also when the newest target is again
its own (R391). -/
def State.checkEnv (s : State) : State :=
  let e := s.env
  let t := s.wantedEnv
  match e.phase with
  | .steady => if t = e.inForce then s else s.beginFalls t s.tick
  | _ => if t = e.target then s else { s with env := { e with restart := true } }

/-- Records a requested envelope (R66). -/
def State.recordEnv (s : State) (code : Nat) : State := { s with env := { s.env with recorded := code } }.checkEnv

/-- Every engine that the envelope turns off has finished its SOLVEs. One that was kept off before can finish none (R190). -/
def State.sergeDrained (s : State) : Bool :=
  (List.range 4).all fun e => decide (e < s.env.engines) || (s.dom (40 + e)).st == .off || s.engineDrained e

/-- Every engine that the envelope turns off is off, and every port that exchanges flits has narrowed to the lanes that it allows (R390).
DEDUCED: notes/assumptions/58.md. -/
def State.fallsDone (s : State) : Bool :=
  ((List.range 4).all fun e => decide (e < s.env.engines) || (s.dom (40 + e)).st == .off) &&
    (List.range 8).all fun p => (s.port p).st < 3 || decide ((s.port p).width ≤ s.lanesOk)

/-- SERGE_DRAIN (Table 17.8). -/
def State.sergeDrain (s : State) : Bool := s.env.phase == .falls && !s.sergeDrained

/-- Descriptors that wait for domain `d` now wait for its wake (R191).
DEDUCED: notes/assumptions/27.md. -/
def State.noteWake (s : State) (d : Nat) : State :=
  if s.domOn d then s
  else { s with descs := s.descs.map fun x => if x.work == .queued && (s.needs x).contains d then { x with woke := true } else x }

/-- Every setting lowered and the engines no longer allowed off: the rises, or the falls toward a newer target. The lanes that the target allows
may widen from here on.
DEDUCED: notes/assumptions/58.md. -/
def State.endFalls (s : State) : State :=
  let e := s.env
  let x := envSet e.target
  let s2 := { s with env := { e with clock := min e.clock x.clock, lanes := min e.lanes x.lanes } }
  if e.restart then s2.beginFalls s2.wantedEnv e.startedAt
  else
    let s3 := { s2 with env := { s2.env with phase := .rises, lanes := x.lanes, nearCap := x.nearCap, adders := x.adders, engines := x.engines } }
    ((List.range x.engines).filter s3.enginePresent).foldl (fun s k => (s.noteWake (40 + k)).wake (40 + k)) s3

/-- The target's settings all hold.
DEDUCED: notes/assumptions/58.md. -/
def State.endRises (s : State) : State :=
  let e := s.env
  let x := envSet e.target
  let e1 : Env := { e with clock := x.clock, lanes := x.lanes }
  if e.restart then { s with env := e1 }.beginFalls s.wantedEnv e.startedAt
  else { s with env := { e1 with
      phase := .steady, inForce := e.target, lastSwitch := min (s.tick - e.startedAt) 0xFFFFFFFF, switches := min (e.switches + 1) 0xFFFF } }

end Sys2Proof.Machine
end

