-- ==== Sys2Proof/Machine/Links.lean ====
section
/-! DEFINITION. Gauze ports (13): lanes and spares, training, flits and packets, routing, and the time exchange. -/

namespace Sys2Proof.Machine

/-! ### Port states (Table 13.8) -/

def pUNUSED : Nat := 0
def pDOWN : Nat := 1
def pTRAINING : Nat := 2
def pUP : Nat := 3
def pHELD : Nat := 4
def pMISMATCH : Nat := 5

/-- The port exchanges flits: UP or HELD. -/
def Port.alive (x : Port) : Bool := x.st == pUP || x.st == pHELD

/-- The module has port `p` in use (R55). -/
def State.portUsed (s : State) (p : Nat) : Bool := s.topo.axisOfPort p != 0xFF

/-! ### Lanes (R294 to R297) -/

def Port.lane (x : Port) (i : Nat) : Lane := x.lanes.get {} i
def Port.setLane (x : Port) (i : Nat) (l : Lane) : Port := { x with lanes := x.lanes.put i l }

/-- Physical lanes in state `st`, ascending. -/
def Port.lanesIn (x : Port) (st : Nat) : List Nat := (List.range 18).filter fun i => (x.lane i).st == st

/-- The physical lane that carries logical lane `l`. -/
def Port.carrier (x : Port) (l : Nat) : Option Nat := (List.range 18).find? fun i =>
  let v := x.lane i
  (v.st == 0 || v.st == 2) && v.logical == l

/-- Healthy lanes that carry no logical lane: the lowest two are free spares, the others idle (R296).
DEDUCED: notes/assumptions/45.md. -/
def Port.respare (x : Port) : Port :=
  let free := (List.range 18).filter fun i => (x.lane i).st != 3 && (x.lane i).logical == 0x1F
  ((List.range free.length).zip free).foldl (fun x e => x.setLane e.2 { x.lane e.2 with st := if e.1 < 2 then 1 else 2 }) x

/-- All 18 lanes after adaptation, before any failure: logical lane i on physical lane i, two spares. What their receivers have shown stays
(R299). -/
def Port.allLanes (x : Port) : Port :=
  ({ x with
      lanes := (List.range 18).map fun i => (i, { x.lane i with st := if i < 16 then 0 else 1, logical := if i < 16 then i else 0x1F })
      active := 16 } : Port)

/-- ACTIVE_LANES with `n` failed lanes: 0 when fewer than 8 healthy lanes remain (R296). -/
def activeFor (n : Nat) : Nat := if n ≤ 2 then 16 else if n ≤ 10 then 8 else 0

/-- Narrowing to `a` logical lanes frees the lanes that carried the others. -/
def Port.narrow (x : Port) (a : Nat) : Port :=
  let y := (List.range 18).foldl (fun (x : Port) i =>
    let l := x.lane i
    if l.logical != 0x1F && decide (a ≤ l.logical) then x.setLane i { l with st := 2, logical := 0x1F } else x) x
  { y with active := a }

/-- Physical lane `i` fails: its logical lane goes to the lowest free spare, or the port narrows (R295, R296). -/
def Port.failLane (x : Port) (i : Nat) : Port :=
  let l := (x.lane i).logical
  let y := x.setLane i { x.lane i with st := 3, logical := 0x1F }
  let a := activeFor (y.lanesIn 3).length
  let z := if a < y.active then y.narrow a else y
  if l = 0x1F ∨ a ≤ l then z.respare
  else match (List.range 18).find? (fun j => (z.lane j).st != 3 && (z.lane j).logical == 0x1F) with
    | some j => (z.setLane j { z.lane j with st := if l < z.width then 0 else 2, logical := l }).respare
    | none => z.respare

/-- Puts lanes beyond `w` in electrical idle and the others in use (R271). -/
def Port.setWidth (x : Port) (w : Nat) : Port :=
  let y := (List.range 18).foldl (fun (x : Port) i =>
    let l := x.lane i
    if l.st != 3 && l.logical != 0x1F then x.setLane i { l with st := if l.logical < w then 0 else 2 } else x) x
  { y with width := w }

/-- W (R271). -/
def State.widthNow (s : State) (x : Port) : Nat := min (min x.active x.partnerActive) (min s.lanesOk x.partnerLanes)

/-- A physical lane as LNK_LANE shows it: while the stream of a rotation runs on its new lane, that one carries the logical lane and
the old one is free (R294, R299).
DEDUCED: notes/assumptions/60.md. -/
def Port.laneShown (x : Port) (i : Nat) : Lane :=
  match x.rotation with
  | some r =>
    if (r.phase = 2 ∨ r.phase = 3) ∧ i = r.new then { x.lane i with st := (x.lane r.old).st, logical := r.logical }
    else if (r.phase = 2 ∨ r.phase = 3) ∧ i = r.old then { x.lane i with st := 1, logical := 0x1F }
    else x.lane i
  | none => x.lane i

/-- SPARES_FREE is at least 1 and the pair is in use: calibration is enabled (R296). -/
def State.calEnabled (s : State) (p : Nat) : Bool := s.portUsed p && decide (0 < (s.port p).sparesFree)

/-- A published lane map that differs from the last asks for a publication (R42). -/
def State.dirtyIfLanes (s old : State) (p : Nat) : State := if s.laneRecord p = old.laneRecord p then s else s.calicoDirty

/-! ### LNK_STATUS (Table 13.8) -/

/-- Collectives held on the loss declared by port `p`. -/
def State.heldBy (s : State) (p : Nat) : List Desc := s.descs.filter fun d => match d.work with
  | .held q _ => q == p
  | _ => false

def State.lnkStatus (s : State) (p : Nat) : Nat :=
  let x := s.port p
  x.st + b2n x.lost * 2 ^ 3 + x.cause * 2 ^ 4 + x.width % 32 * 2 ^ 8 + b2n x.timeLocked * 2 ^ 13 + b2n x.timeFault * 2 ^ 14 +
    b2n x.rotation.isSome * 2 ^ 15 + x.partner % 65536 * 2 ^ 16 + min 255 (s.heldBy p).length * 2 ^ 32

/-! ### Training (R286, R288) -/

/-- The port starts training: its lanes, sequence numbers and credits start afresh. -/
def State.train (s : State) (p : Nat) : State :=
  let x := s.port p
  s.setPort p
    { ({} : Port) with
      st := pTRAINING, lost := x.lost, cause := x.cause, timeFault := x.timeFault, crcFail := x.crcFail, replays := x.replays
      fecUncorr := x.fecUncorr, laneFails := x.laneFails, telStart := x.telStart, telTx := x.telTx, telRx := x.telRx
      telStall := x.telStall, telTurned := x.telTurned, telNow := x.telNow, telLast := x.telLast, telNext := x.telNext, offset := x.offset, delay := x.delay, steps := x.steps
      ctlLane := x.ctlLane, lanes := x.lanes, active := x.active, nextLane := x.nextLane, lastCtlSent := s.tick, lastValid := s.tick }

/-- A port of a used pair whose L-tile is on and which is not in use yet trains; ports of unused pairs are held down (R55, R286).
DEDUCED: notes/assumptions/59.md. -/
def State.bringUp (s : State) (p : Nat) : State :=
  let x := s.port p
  if !s.portUsed p then (if x.st = pUNUSED then s else s.setPort p {})
  else if s.domOn (32 + p) then (if x.st = pUNUSED then s.train p else s)
  else s.wake (32 + p)

/-- Ports after a new TOPOLOGY: those whose expected partner has changed train again. The partner is the one at the coordinates; a change of POD_ID
alone changes none (R288).
DEDUCED: notes/assumptions/136.md. -/
def State.retrainChanged (s : State) (old : Topology) : State :=
  (List.range 8).foldl (fun s p =>
    let changed := s.topo.neighbour p != old.neighbour p
    (if changed && s.portUsed p && (s.port p).st != pUNUSED then s.train p else s).bringUp p) s

/-! ### Flits (R273, Table 13.1) -/

/-- CRC-24 of a flit's first 61 bytes, most significant byte first. -/
def flitCrcOk (b : Bytes) : Bool :=
  field b 61 1 * 65536 + field b 62 1 * 256 + field b 63 1 == crc24 (b.take 61)

/-- The 64 bytes of a flit: header, payload and CRC. -/
def mkFlit (hdr : Nat) (payload : Bytes) : Bytes :=
  let b := leBytes 3 hdr ++ slice payload 0 58
  b ++ (leBytes 3 (crc24 b)).reverse

/-- A data flit on the line. -/
def Flit.bytes (f : Flit) : Bytes :=
  mkFlit (f.vc * 2 ^ 2 + f.cls % 2 * 2 ^ 4 + b2n f.head * 2 ^ 5 + b2n f.tail * 2 ^ 6 + f.seq % 65536 * 2 ^ 7) f.payload

/-- The payload of a control flit (Table 13.3). -/
def CtlFlit.payload (c : CtlFlit) : Bytes :=
  leBytes 1 c.action ++ leBytes 1 c.arg0 ++ leBytes 1 c.arg1 ++ leBytes 1 c.actionId ++ leBytes 2 c.ackSeq ++ leBytes 2 (c.nak.getD 0) ++
    leBytes 1 (b2n c.nak.isSome + 2 * b2n c.timeLocked) ++ leBytes 1 c.lanesOk ++ leBytes 2 c.node ++ leBytes 4 c.podId ++
    ((List.range 7).map fun i => leBytes 2 (c.credit.getD i 0)).flatten ++ leBytes 2 0 ++ leBytes 8 c.txTime ++ leBytes 8 c.echoTime ++
    leBytes 8 c.echoRx ++ leBytes 1 c.port ++ leBytes 1 0

/-- A control flit on the line. -/
def CtlFlit.bytes (c : CtlFlit) : Bytes := mkFlit 1 c.payload

/-- The control flit that 64 bytes spell. -/
def CtlFlit.ofBytes (b : Bytes) : CtlFlit :=
  let p := b.drop 3
  { action := field p 0 1, arg0 := field p 1 1, arg1 := field p 2 1, actionId := field p 3 1, ackSeq := field p 4 2
    nak := if (field p 8 1).testBit 0 then some (field p 6 2) else none, timeLocked := (field p 8 1).testBit 1, lanesOk := field p 9 1
    node := field p 0x0A 2, podId := field p 0x0C 4, credit := (List.range 7).map fun i => field p (0x10 + 2 * i) 2
    txTime := field p 0x20 8, echoTime := field p 0x28 8, echoRx := field p 0x30 8, port := field p 0x38 1 }

/-- An idle flit; the spec gives its payload no value. -/
def idleFlit : Bytes := mkFlit 2 Config.idlePayload

/-- Fields of the flit header. -/
def flKind (b : Bytes) : Nat := bits (field b 0 3) 0 2
def flVc (b : Bytes) : Nat := bits (field b 0 3) 2 2
def flClass (b : Bytes) : Nat := bits (field b 0 3) 4 1
def flHead (b : Bytes) : Bool := bit (field b 0 3) 5
def flTail (b : Bytes) : Bool := bit (field b 0 3) 6
def flSeq (b : Bytes) : Nat := bits (field b 0 3) 7 16

/-- Index of a credit count: VC × 2 + class; management last (Table 13.3). -/
def creditIx (vc cls : Nat) : Nat := if vc = 3 then 6 else 2 * vc + cls % 2

/-- The VC of a packet kind (Table 13.5). -/
def kindVc (k : Nat) : Nat :=
  if k = kREAD_RESP ∨ k = kACK then 1 else if k = kCOLL then 2 else if k = kBEACON then 3 else 0

/-- Flits of a packet (R280). -/
def pkFlits (k : Packet) : Nat := ceilDiv (32 + k.data.length) 58

/-- The payload bytes of a packet's flits, in order. -/
def pkWire (k : Packet) : Bytes :=
  slice (leBytes 2 k.dst ++ leBytes 2 k.src ++ leBytes 1 k.kind ++ leBytes 1 k.rflags ++ leBytes 1 (pkFlits k) ++ leBytes 1 0 ++
    leBytes 4 k.epoch ++ leBytes 4 k.txn ++ slice k.hdr 0 16 ++ k.data) 0 (58 * (pkFlits k))

/-- The packet that a run of flit payloads carries. Memory kinds carry BYTES data bytes, READ_REQ none; others all that the flits hold. -/
def pkOfWire (cls : Nat) (b : Bytes) : Packet :=
  let kind := field b 4 1
  let hdr := slice b 16 16
  let rest := b.drop 32
  let n := if kind = kREAD_REQ then 0
    else if kind = kREAD_RESP ∨ kind = kWRITE ∨ kind = kRACC ∨ kind = kSIGNAL ∨ kind = kDELTA ∨ kind = kACK then field hdr 8 2
    else rest.length
  { dst := field b 0 2, src := field b 2 2, kind := kind, rflags := field b 5 1, epoch := field b 8 4, txn := field b 12 4, cls := cls,
    hdr := hdr, data := rest.take n }

/-- The flits of a packet as the replay buffer keeps them, from sequence number `seq`. -/
def pkToFlits (k : Packet) (cls seq : Nat) : List Flit :=
  let n := (pkFlits k)
  ((List.range n).zip (chunks 58 (pkWire k))).map fun e =>
    { seq := (seq + e.1) % 65536, vc := kindVc k.kind, cls := cls, head := e.1 == 0, tail := e.1 + 1 == n, payload := e.2 }

/-! ### Routing (R284, R285) -/

/-- A link, named by the module whose even port it leaves and its axis. -/
def Topology.linkOf (t : Topology) (node a dir : Nat) : Nat × Nat := if dir = 0 then (node, a) else (t.step node a 1, a)

/-- The links of the route from `node` to `dst`. -/
def Topology.routeGo (t : Topology) (dst : Nat) : (fuel node : Nat) → List (Nat × Nat)
  | 0, _ => []
  | k + 1, node => match t.hop node dst with
    | none => []
    | some (a, dir) => t.linkOf node a dir :: Topology.routeGo t dst k (t.step node a dir)

def Topology.route (t : Topology) (node dst : Nat) : List (Nat × Nat) := t.routeGo dst 64 node

/-- The link of port `p` of module `node`. -/
def Topology.portLink (t : Topology) (node p : Nat) : Nat × Nat := t.linkOf node (t.axisOfPort p) (p % 2)

/-- The class in which a packet crosses the link it takes next (R284).
DEDUCED: notes/assumptions/62.md. -/
def Topology.classOn (t : Topology) (node a dir cls : Nat) : Nat :=
  if coord node a + 1 = t.size a ∧ dir = 0 then 1 else if coord node a = 0 ∧ dir = 1 then 1 else cls

/-- What a module does with a packet that leaves it: send it by a port, with the packet as it then stands, or answer NODE_LOST. -/
inductive Hop where
  | deliver
  | send (p : Nat) (k : Packet)
  | lost
  deriving DecidableEq, Repr

def pkTurned (k : Packet) : Bool := k.rflags.testBit 0

/-- The hop of a packet at this module (R284, R285). `cls` is 1 once the packet has crossed a dateline on the axis it travels. -/
def State.nextHop (s : State) (k : Packet) : Hop :=
  let t := s.topo
  let ta := bits k.rflags 1 2
  let td := bits k.rflags 3 1
  let turnedHere := pkTurned k && coord s.node ta != coord k.dst ta
  let k0 := if pkTurned k && !turnedHere then { k with rflags := 0, cls := 0 } else k
  let want := if turnedHere then some (ta, td) else t.hop s.node k0.dst
  match want with
  | none => .deliver
  | some (a, dir) =>
    match t.portFor a dir, t.portFor a (1 - dir) with
    | some p, some q =>
      let behind := t.step s.node a dir
      if !(s.port p).lost then .send p { k0 with cls := t.classOn s.node a dir k0.cls }
      else if turnedHere then .lost
      else if behind = k0.dst ∧ t.size a ≠ 2 then .lost
      else if (s.port q).lost then .lost
      else .send q { k0 with rflags := 1 + 2 * a + 8 * (1 - dir), cls := 1 }
    | _, _ => .lost

/-- A packet that has arrived by port `p` as it waits here: one that enters a new axis starts in class 0 (R284). -/
def State.asQueued (s : State) (p : Nat) (k : Packet) : Packet :=
  let stays := match s.topo.hop s.node k.dst with
    | some (a, _) => a == s.topo.axisOfPort p
    | none => false
  if k.dst == s.node || stays || pkTurned k then k else { k with cls := 0 }

/-- A packet arrives whole: for this module, or to be sent on. -/
def State.arrive (s : State) (k : Packet) : State :=
  if k.dst = s.node then { s with arrived := s.arrived ++ [k] } else { s with egress := s.egress ++ [k] }

/-- The packet is still here: not yet in its destination memory and not on its way to the next hop (R278). -/
def State.stillHere (s : State) (k : Packet) : Bool :=
  s.arrived.contains k || s.egress.contains k || s.hif.waiting.any fun w => match w.req with
    | .packet q _ _ => q == k
    | _ => false

/-- Frees the buffer slots of packets that have left (R278).
DEDUCED: notes/assumptions/59.md. -/
def State.returnSlots (s : State) : State :=
  (List.range 8).foldl (fun s p =>
    let x := s.port p
    let gone := x.holding.filter fun e => !s.stillHere e.1
    if gone.isEmpty then s
    else s.setPort p
      { x with
        holding := x.holding.filter fun e => s.stillHere e.1
        freedRx := gone.foldl (fun l e => l.set e.2.1 ((l.getD e.2.1 0 + e.2.2) % 65536)) x.freedRx }) s

/-! ### Local time (R289) -/

/-- The module's time in 1/64 tick. -/
def State.localTime (s : State) : Nat := s.tick * 64 + s.frac

def State.setTime (s : State) (t : Nat) : State := { s with tick := t / 64, frac := t % 64 }

/-- A forward step to local time `t` (R289); several within one tick are one. -/
def State.stepTo (s : State) (t : Nat) : State :=
  if s.tick < t / 64 then { s.leaveTick with stepped := (if s.stepped.2 = s.tick then s.stepped.1 else s.tick, t / 64) }.setTime t else s.setTime t

/-- Every UP port is TIME_LOCKED. -/
def State.allLocked (s : State) : Bool :=
  let up := (List.range 8).filter fun p => (s.port p).st == pUP
  !up.isEmpty && up.all fun p => (s.port p).timeLocked

/-- The time exchange on one control flit. An odd 2d is halved toward minus infinity (R289).
DESIGN CHOICE: notes/assumptions/137.md. -/
def State.exchange (s : State) (p : Nat) (c : CtlFlit) : State :=
  let x := s.port p
  let t4 : Int := s.localTime
  let y := { x with lastTxTime := c.txTime, lastRxTime := s.localTime % 2 ^ 64 }
  if c.echoTime = 0 then s.setPort p y
  else
    let d := ((t4 - c.echoTime) - ((c.txTime : Int) - c.echoRx)) / 2
    let e := (c.txTime : Int) + d
    let diff := e - t4
    let step := decide (0 < diff) && (decide (diff ≤ 2500 * 64) || !s.everLocked)
    let run := if diff.natAbs ≤ 64 then min (x.lockRun + 1) 64 else 0
    let z := { y with
      offset := BitVec.ofInt 32 diff, delay := wrap 16 d, lockRun := run, timeLocked := run == 64
      steps := if step then min (x.steps + 1) 0xFFFF else x.steps
      timeFault := x.timeFault || (decide (0 < diff) && !step) }
    let s1 := s.setPort p z
    let s2 := if step then s1.stepTo e.toNat else s1
    let s3 := if decide (0 < diff) && !step then
        s2.logFault { kind := fkTIME_FAULT, subject := s.node, unit := faultUnit 2 p, location := 0 } 1 p (diff / 64).toNat
      else s2
    if s3.allLocked then { s3 with everLocked := true } else s3

end Sys2Proof.Machine
end

