-- ==== Sys2Proof/Machine/Image.lean ====
section
/-! DEFINITION. The Damask image (03): its checks in the order of Table 3.17, what it says, and what putting it in force does. -/

namespace Sys2Proof.Machine

/-! ### Result codes (Table 3.17) -/

def dkOK : Nat := 0x00
def dkADDRESS : Nat := 0x01
def dkSLOT_EMPTY : Nat := 0x02
def dkBAD_MAGIC : Nat := 0x03
def dkBAD_COMPLEMENT : Nat := 0x04
def dkBAD_FORMAT : Nat := 0x05
def dkWRONG_DEVICE : Nat := 0x06
def dkBAD_LENGTH : Nat := 0x07
def dkBAD_CRC : Nat := 0x08
def dkBAD_SECTION : Nat := 0x09
def dkSECTION_ORDER : Nat := 0x0A
def dkUNKNOWN_SECTION : Nat := 0x0B
def dkSECTION_VERSION : Nat := 0x0C
def dkFIELD_RANGE : Nat := 0x0D
def dkMISSING_SECTION : Nat := 0x0E
def dkSTRUCTURAL_IN_LIVE : Nat := 0x0F
def dkEPOCH : Nat := 0x10
def dkABSENT_UNIT : Nat := 0x11
def dkCROSS_CHECK : Nat := 0x12
def dkLATE_APPLY : Nat := 0x13
def dkNOT_QUIESCED : Nat := 0x14
def dkSWITCH_BUSY : Nat := 0x15
def dkPOWER_INHIBIT : Nat := 0x16
def dkFLASH_VERIFY : Nat := 0x17
def dkSECTION_NOT_ALLOWED : Nat := 0x18

/-- A failed check: result code, SECTION and OFFSET (R75). -/
structure Fail where
  code : Nat
  sec : Nat
  off : Nat
  deriving DecidableEq, Repr

/-- One check of a list: nothing when it holds. -/
def chk (ok : Bool) (code sec off : Nat) : List Fail := if ok then [] else [⟨code, sec, off⟩]

/-- Section types (Table 3.2). -/
def scTOPOLOGY : Nat := 1
def scCLUSTERMAP : Nat := 2
def scNUMERICS : Nat := 3
def scMEMORY : Nat := 4
def scCOLLECTIVE : Nat := 5
def scPIPELINE : Nat := 6
def scSERGE : Nat := 7
def scPOWER : Nat := 8

/-- A section as the walk finds it: TYPE, offset of its header, LENGTH. -/
structure Sec where
  typ : Nat
  off : Nat
  len : Nat
  deriving DecidableEq, Repr

/-! ### Header (steps 2 to 8) -/

/-- A critical field of `w` bytes followed by its complement. -/
def critOk (b : Bytes) (off w : Nat) : Bool := field b (off + w) w == 2 ^ (8 * w) - 1 - field b off w

/-- IMAGE_CRC (R50). -/
def imageCrc (b : Bytes) (n : Nat) : Nat := crc32c (b.take 0x28 ++ List.replicate 8 0 ++ (b.take n).drop 0x30)

def imLength (b : Bytes) : Nat := field b 0x10 4
def imCount (b : Bytes) : Nat := field b 0x18 2
def imLive (b : Bytes) : Bool := bit (field b 0x1C 2) 0
def imEpoch (b : Bytes) : Nat := field b 0x20 4

/-- Steps 2 to 8 on an image copied whole; `held` says that the source holds IMAGE_LENGTH bytes with no retired page. -/
def headerFails (b : Bytes) (held : Bool) : List Fail :=
  let n := imLength b
  chk (field b 0 4 == 0x414D4144) dkBAD_MAGIC 0 0 ++ chk (critOk b 0 4) dkBAD_COMPLEMENT 0 4 ++
  chk (critOk b 8 2) dkBAD_COMPLEMENT 0 0x0A ++ chk (critOk b 0x0C 2) dkBAD_COMPLEMENT 0 0x0E ++
  chk (critOk b 0x10 4) dkBAD_COMPLEMENT 0 0x14 ++ chk (critOk b 0x18 2) dkBAD_COMPLEMENT 0 0x1A ++
  chk (critOk b 0x1C 2) dkBAD_COMPLEMENT 0 0x1E ++ chk (critOk b 0x20 4) dkBAD_COMPLEMENT 0 0x24 ++
  chk (critOk b 0x28 4) dkBAD_COMPLEMENT 0 0x2C ++
  chk (field b 8 2 == 1) dkBAD_FORMAT 0 8 ++ chk (field b 0x0C 2 == 0xF512) dkWRONG_DEVICE 0 0x0C ++
  chk (decide (280 ≤ n) && n % 8 == 0 && decide (n ≤ 0x1000000) && held) dkBAD_LENGTH 0 0x10 ++
  chk (decide (field b 0x1C 2 < 2)) dkFIELD_RANGE 0 0x1C ++ chk (imEpoch b != 0) dkFIELD_RANGE 0 0x20 ++
  chk (zeros b 0x30 208) dkFIELD_RANGE 0 0x30 ++ chk (imageCrc b n == field b 0x28 4) dkBAD_CRC 0 0x28

/-! ### Section walk (step 9, R444) -/

/-- One header of the walk. -/
def walkHeader (b : Bytes) (off prev : Nat) : List Fail :=
  let t := field b off 2
  let len := field b (off + 4) 4
  chk (critOk b off 8) dkBAD_SECTION t off ++
  chk (decide (16 ≤ len) && len % 8 == 0 && decide (off + len ≤ imLength b)) dkBAD_SECTION t off ++
  chk (decide (prev < t)) dkSECTION_ORDER t off ++ chk (decide (1 ≤ t ∧ t ≤ 8)) dkUNKNOWN_SECTION t off ++
  chk (field b (off + 2) 2 == 1) dkSECTION_VERSION t off

/-- The walk: the sections, or the first failure. The first header has no TYPE before it to exceed. -/
def walkGo (b : Bytes) : (left off : Nat) → (prev : Option Nat) → List Sec → Except Fail (List Sec)
  | 0, off, _, acc => if off = imLength b then .ok acc else .error ⟨dkBAD_SECTION, 0, off⟩
  | k + 1, off, prev, acc =>
    if imLength b ≤ off then .error ⟨dkBAD_SECTION, 0, 0x18⟩
    else
      let t := field b off 2
      let fs := match prev with
        | some p => walkHeader b off p
        | none => (walkHeader b off 0).filter fun f => f.code != dkSECTION_ORDER
      match fs with
      | f :: _ => .error f
      | [] => let len := field b (off + 4) 4; walkGo b k (off + len) (some t) (acc ++ [⟨t, off, len⟩])

def walkSections (b : Bytes) : Except Fail (List Sec) := walkGo b (imCount b) 0x100 none []

/-- The section of a type. -/
def secOf (ss : List Sec) (t : Nat) : Option Sec := ss.find? (·.typ == t)

/-- Offset of a section's payload. -/
def Sec.at (s : Sec) : Nat := s.off + 16

/-- Offset of record `i` behind the first `pre` bytes. -/
def Sec.recAt (s : Sec) (pre size i : Nat) : Nat := s.at + pre + i * size

/-! ### Reading sections -/

def readTopology (b : Bytes) (o : Nat) : Topology :=
  { axisOfPair := (List.range 4).map fun k => field b (o + k) 1, axisSize := (List.range 4).map fun a => field b (o + 4 + a) 1
    cutOfAxis := (List.range 4).map fun a => field b (o + 8 + a) 1, node := field b (o + 0x0C) 2, podId := field b (o + 0x10) 4 }

def readGroup (b : Bytes) (o : Nat) : Group :=
  { stage := field b o 1, flags := field b (o + 1) 1, firstLayer := field b (o + 2) 2, layerCount := field b (o + 4) 2
    clusters := field b (o + 0x10) 64 }

def readGroups (b : Bytes) (s : Sec) : List Group := (List.range (field b s.at 2)).map fun i => readGroup b (s.recAt 8 80 i)

def readNumerics (b : Bytes) (o : Nat) : Numerics :=
  { accDefault := field b o 1, spill := field b (o + 1) 1, rounding := field b (o + 2) 1, passes := field b (o + 3) 1
    convSat := field b (o + 4) 1, seed := BitVec.ofNat 64 (field b (o + 8) 8) }

def readRegion (b : Bytes) (o : Nat) : Region :=
  { kind := field b o 1, ecc := field b (o + 1) 1, group := field b (o + 2) 1, base := field b (o + 8) 8, size := field b (o + 0x10) 8 }

def readMemory (b : Bytes) (s : Sec) : MemorySec :=
  { mode := field b (s.at + 4) 1, regions := (List.range (field b s.at 2)).map fun i => readRegion b (s.recAt 8 32 i) }

def readBucket (b : Bytes) (o : Nat) : BucketRec :=
  { owner := field b o 2, mirror := field b (o + 2) 2, expected := field b (o + 4) 2, compress := field b (o + 6) 1
    flags := field b (o + 7) 1, bufOff := field b (o + 8) 8, elements := field b (o + 0x10) 4 }

def readCollective (b : Bytes) (s : Sec) : Collective :=
  let o := s.at
  { reduceFormat := field b (o + 6) 1, buckets := (List.range (field b o 4)).map fun i => readBucket b (s.recAt 48 24 i)
    live := [{ applyFrom := field b (o + 0x18) 8, gateMode := field b (o + 7) 1, threshold := BitVec.ofNat 64 (field b (o + 8) 8)
               prefetchAt := field b (o + 0x20) 2, headroom := field b (o + 0x22) 1, drainTimeout := field b (o + 0x24) 4 }] }

def readQueue (b : Bytes) (o : Nat) : QueueRec :=
  { stage := field b o 1, dir := field b (o + 1) 1, lTile := field b (o + 2) 1, peer := field b (o + 3) 1, credit := field b (o + 4) 4
    bufOff := field b (o + 8) 4 }

def readPipeline (b : Bytes) (s : Sec) : Pipeline :=
  { stageCount := field b s.at 1, microBatches := field b (s.at + 1) 1
    queues := (List.range (field b (s.at + 2) 2)).map fun i => readQueue b (s.recAt 8 16 i) }

def readFactorRec (b : Bytes) (o : Nat) : FactorRec :=
  { layer := field b o 2, side := field b (o + 2) 1, p := field b (o + 3) 1, method := field b (o + 4) 1, engine := field b (o + 5) 1
    dim := field b (o + 8) 4, beta := BitVec.ofNat 32 (field b (o + 0x0C) 4), epsilon := BitVec.ofNat 64 (field b (o + 0x10) 8) }

def readSchedule (b : Bytes) (o : Nat) : Schedule :=
  { period := field b (o + 0x18) 2, phase := field b (o + 0x1A) 2, deadline := field b (o + 0x1C) 4 }

def readSerge (b : Bytes) (s : Sec) : SergeSec :=
  let n := List.range (field b s.at 2)
  { factors := n.map fun i => readFactorRec b (s.recAt 16 32 i)
    live := [(field b (s.at + 8) 8, n.map fun i => readSchedule b (s.recAt 16 32 i))] }

def readImage (b : Bytes) (ss : List Sec) : Image :=
  { epoch := imEpoch b, liveOnly := imLive b, crc := field b 0x28 4
    topology := (secOf ss scTOPOLOGY).map fun s => readTopology b s.at
    clusters := (secOf ss scCLUSTERMAP).map fun s => readGroups b s
    numerics := (secOf ss scNUMERICS).map fun s => readNumerics b s.at
    memory := (secOf ss scMEMORY).map fun s => readMemory b s
    collective := (secOf ss scCOLLECTIVE).map fun s => readCollective b s
    pipeline := (secOf ss scPIPELINE).map fun s => readPipeline b s
    serge := (secOf ss scSERGE).map fun s => readSerge b s
    power := (secOf ss scPOWER).map fun s => field b s.at 1 }

/-! ### Field ranges and rules within a section (step 10) -/

/-- Earlier items of a list. -/
def before {α : Type} (l : List α) (i : Nat) : List α := l.take i

def topologyFails (b : Bytes) (s : Sec) : List Fail :=
  let o := s.at
  let t := readTopology b o
  let fr := (chk · dkFIELD_RANGE scTOPOLOGY ·)
  fr (s.len == 48) s.off ++
  ((List.range 4).flatMap fun k =>
    let v := t.axisOfPair.getD k 0
    fr (v == 0xFF || (decide (v < 4) && !(before t.axisOfPair k).contains v)) (o + k)) ++
  ((List.range 4).flatMap fun a =>
    let v := t.size a
    let n := (t.axisOfPair.filter (· == a)).length
    fr (decide (1 ≤ v ∧ v ≤ 16) && n == (if 1 < v then 1 else 0) && (decide (a < 3) || t.axisSize != [16, 16, 16, 16])) (o + 4 + a)) ++
  ((List.range 4).flatMap fun a =>
    let v := t.cutOfAxis.getD a 0
    fr (decide (v ≤ 4) && ((v != 0) == decide (1 < t.size a)) && (v == 0 || !(before t.cutOfAxis a).contains v)) (o + 8 + a)) ++
  fr ((List.range 4).all fun a => decide (coord t.node a < t.size a)) (o + 0x0C) ++
  fr (field b (o + 0x0E) 2 == 0xFFFF - t.node) (o + 0x0E) ++ fr (zeros b (o + 0x14) 12) (o + 0x14)

/-- Two ranges of layers are disjoint.
DEDUCED: notes/assumptions/54.md. -/
def layersDisjoint (x y : Group) : Bool :=
  decide (x.firstLayer + x.layerCount ≤ y.firstLayer) || decide (y.firstLayer + y.layerCount ≤ x.firstLayer)

/-- DEDUCED: notes/assumptions/54.md. -/
def clustermapFails (b : Bytes) (s : Sec) : List Fail :=
  let o := s.at
  let n := field b o 2
  let gs := readGroups b s
  let fr := (chk · dkFIELD_RANGE scCLUSTERMAP ·)
  fr (decide (1 ≤ n ∧ n ≤ 64)) o ++ fr (field b (o + 2) 2 == 80) (o + 2) ++ fr (zeros b (o + 4) 4) (o + 4) ++
  fr (s.len == 24 + 80 * n) s.off ++
  ((List.range gs.length).zip gs).flatMap fun e =>
    let r := s.recAt 8 80 e.1
    let g := e.2
    fr (decide (g.flags < 2)) (r + 1) ++
    fr (decide (1 ≤ g.layerCount) && decide (g.firstLayer + g.layerCount ≤ 65536) && (before gs e.1).all (layersDisjoint g)) (r + 4) ++
    fr (zeros b (r + 6) 10) (r + 6) ++
    fr (g.clusters != 0 && (before gs e.1).all fun h => h.clusters &&& g.clusters == 0) (r + 0x10)

def numericsFails (b : Bytes) (s : Sec) : List Fail :=
  let o := s.at
  let u := readNumerics b o
  let fr := (chk · dkFIELD_RANGE scNUMERICS ·)
  fr (s.len == 32) s.off ++ fr (decide (u.accDefault ≤ 2)) o ++ fr (decide (u.spill ≤ 4)) (o + 1) ++ fr (decide (u.rounding ≤ 1)) (o + 2) ++
  fr (decide (1 ≤ u.passes ∧ u.passes ≤ 3)) (o + 3) ++ fr (decide (u.convSat ≤ 3)) (o + 4) ++ fr (zeros b (o + 5) 3) (o + 5)

/-- Tier of an address: 0 near, 1 board, 2 far. -/
def tierOf (a : Nat) : Option Nat := match (winOf a).1 with
  | .near _ => some 0
  | .board _ => some 1
  | .far _ => some 2
  | _ => none

/-- The tier that a region's KIND asks for (R58). -/
def kindTier (k : Nat) : Option Nat := if k = rkSTASH ∨ k = rkREDUCTION ∨ k = rkSERGE then some 0
  else if k = rkSTASH_OVERFLOW then some 1 else none

def isStash (k : Nat) : Bool := k == rkSTASH || k == rkSTASH_OVERFLOW

/-- A region that R58 lets lie in any tier, but whose base or end lies in none, fails here and not at step 13.
DEDUCED: notes/assumptions/54.md. -/
def memoryFails (b : Bytes) (s : Sec) : List Fail :=
  let o := s.at
  let m := readMemory b s
  let fr := (chk · dkFIELD_RANGE scMEMORY ·)
  fr (decide (1 ≤ m.regions.length ∧ m.regions.length ≤ 64)) o ++ fr (field b (o + 2) 2 == 32) (o + 2) ++ fr (decide (m.mode < 2)) (o + 4) ++
  fr (zeros b (o + 5) 3) (o + 5) ++ fr (s.len == 24 + 32 * m.regions.length) s.off ++
  ((List.range m.regions.length).zip m.regions).flatMap fun e =>
    let r := s.recAt 8 32 e.1
    let g := e.2
    let old := before m.regions e.1
    let inTier (a : Nat) : Bool := match kindTier g.kind with
      | some t => tierOf a == some t
      | none => (tierOf a).isSome
    fr (decide (1 ≤ g.kind ∧ g.kind ≤ 6) && !((g.kind == rkREDUCTION || g.kind == rkSERGE) && old.any (·.kind == g.kind))) r ++
    fr (decide (g.ecc ≤ 2) && (g.ecc != 2 || g.kind == rkSTASH || g.kind == rkGENERAL)) (r + 1) ++
    fr (if isStash g.kind then decide (g.group < 64) && !old.any (fun x => x.kind == g.kind && x.group == g.group) else g.group == 0xFF) (r + 2) ++
    fr (zeros b (r + 3) 5) (r + 3) ++ fr (g.base % 0x10000 == 0 && inTier g.base) (r + 8) ++
    fr (decide (0x10000 ≤ g.size) && g.size % 0x10000 == 0 && inTier (g.base + g.size - 1) &&
      (g.kind != rkSERGE || decide (g.size ≤ 256 * 2 ^ 30)) && !old.any (fun x => overlap g.base g.size x.base x.size)) (r + 0x10) ++
    fr (zeros b (r + 0x18) 8) (r + 0x18)

/-- A positive finite code, or +Inf where allowed. -/
def positive (f : Fp) (c : Nat) (inf : Bool) : Bool := match f.value c with
  | .fin n m _ => !n && m != 0
  | .inf n => inf && !n
  | .nan => false

def collectiveFails (b : Bytes) (s : Sec) : List Fail :=
  let o := s.at
  let n := field b o 4
  let c := readCollective b s
  let fr := (chk · dkFIELD_RANGE scCOLLECTIVE ·)
  fr (decide (n ≤ 16384)) o ++ fr (field b (o + 4) 2 == 24) (o + 4) ++ fr (decide (c.reduceFormat < 2)) (o + 6) ++
  fr (decide (field b (o + 7) 1 < 2)) (o + 7) ++ fr (positive .fp64 (field b (o + 8) 8) true) (o + 8) ++
  fr (field b (o + 0x10) 8 == 2 ^ 64 - 1 - field b (o + 8) 8) (o + 0x10) ++ fr (decide (field b (o + 0x20) 2 ≤ 256)) (o + 0x20) ++
  fr (decide (field b (o + 0x22) 1 ≤ 7)) (o + 0x22) ++ fr (zeros b (o + 0x23) 1) (o + 0x23) ++
  fr (field b (o + 0x24) 4 != 0) (o + 0x24) ++ fr (zeros b (o + 0x28) 8) (o + 0x28) ++ fr (s.len == 64 + 24 * n) s.off ++
  ((List.range c.buckets.length).zip c.buckets).flatMap fun e =>
    let r := s.recAt 48 24 e.1
    let k := e.2
    fr (k.owner != 0xFFFF) r ++ fr (!k.mirrored || k.mirror != k.owner) (r + 2) ++ fr (k.expected != 0) (r + 4) ++
    fr (decide (k.compress ≤ 2) && !(k.compress == 2 && c.reduceFormat == 1)) (r + 6) ++ fr (decide (k.flags < 2)) (r + 7) ++
    fr (k.bufOff % 64 == 0) (r + 8) ++ fr (k.elements != 0) (r + 0x10) ++ fr (zeros b (r + 0x14) 4) (r + 0x14)

def pipelineFails (b : Bytes) (s : Sec) : List Fail :=
  let o := s.at
  let p := readPipeline b s
  let fr := (chk · dkFIELD_RANGE scPIPELINE ·)
  fr (p.stageCount != 0) o ++ fr (p.microBatches != 0) (o + 1) ++ fr (decide (p.queues.length ≤ 64)) (o + 2) ++
  fr (field b (o + 4) 2 == 16) (o + 4) ++ fr (zeros b (o + 6) 2) (o + 6) ++ fr (s.len == 24 + 16 * p.queues.length) s.off ++
  ((List.range p.queues.length).zip p.queues).flatMap fun e =>
    let r := s.recAt 8 16 e.1
    let q := e.2
    let old := before p.queues e.1
    fr (decide (q.dir < 2) && !old.any (fun x => x.stage == q.stage && x.dir == q.dir)) (r + 1) ++ fr (decide (q.lTile < 8)) (r + 2) ++
    fr (decide (q.peer < 2)) (r + 3) ++ fr (decide (0x10000 ≤ q.credit) && q.credit % 0x10000 == 0) (r + 4) ++
    fr (q.bufOff % 0x10000 == 0 && decide (q.bufOff + q.credit ≤ 0x3000000) &&
      !old.any (fun x => x.lTile == q.lTile && overlap q.bufOff q.credit x.bufOff x.credit)) (r + 8) ++
    fr (zeros b (r + 0x0C) 4) (r + 0x0C)

/-- 0 < β ≤ 1. -/
def betaOk (c : Nat) : Bool := positive .fp32 c false && !flt (.fin false 1 0) (Fp.fp32.value c)

def sergeFails (b : Bytes) (s : Sec) : List Fail :=
  let o := s.at
  let n := field b o 2
  let x := readSerge b s
  let fr := (chk · dkFIELD_RANGE scSERGE ·)
  fr (decide (n ≤ 4096)) o ++ fr (field b (o + 2) 2 == 32) (o + 2) ++ fr (zeros b (o + 4) 4) (o + 4) ++ fr (s.len == 32 + 32 * n) s.off ++
  ((List.range x.factors.length).zip x.factors).flatMap fun e =>
    let r := s.recAt 16 32 e.1
    let g := e.2
    let c := readSchedule b r
    fr (decide (g.side < 2) && !(before x.factors e.1).any (fun y => y.layer == g.layer && y.side == g.side)) (r + 2) ++
    fr ([1, 2, 4, 8].contains g.p) (r + 3) ++ fr (decide (g.method ≤ 2) && (g.method != 2 || g.p == 1)) (r + 4) ++
    fr (decide (g.engine < 4) || g.engine == 0xFF) (r + 5) ++ fr (zeros b (r + 6) 2) (r + 6) ++
    fr (decide (64 ≤ g.dim ∧ g.dim ≤ 32768) && g.dim % 64 == 0) (r + 8) ++ fr (betaOk g.beta.toNat) (r + 0x0C) ++
    fr (nonNegative .fp64 g.epsilon.toNat) (r + 0x10) ++
    fr (if c.period = 0 then c.phase == 0 else decide (c.phase < c.period)) (r + 0x1A) ++ fr (c.deadline != 0) (r + 0x1C)

def powerFails (b : Bytes) (s : Sec) : List Fail :=
  let o := s.at
  let fr := (chk · dkFIELD_RANGE scPOWER ·)
  fr (s.len == 24) s.off ++ fr (decide (field b o 1 ≤ 4)) o ++ fr (field b (o + 1) 1 == 255 - field b o 1) (o + 1) ++
  fr (zeros b (o + 2) 6) (o + 2)

/-- Step 10, in TYPE order.
DEDUCED: notes/assumptions/54.md. -/
def sectionFails (b : Bytes) (s : Sec) : List Fail :=
  match s.typ with
  | 1 => topologyFails b s
  | 2 => clustermapFails b s
  | 3 => numericsFails b s
  | 4 => memoryFails b s
  | 5 => collectiveFails b s
  | 6 => pipelineFails b s
  | 7 => sergeFails b s
  | _ => powerFails b s

/-! ### Load cases (R71, Table 3.16) -/

inductive LoadCase where
  | initial
  | live
  | replace
  | reshard
  deriving DecidableEq, Repr

/-- The epoch after `e` (Table 3.16). -/
def nextEpoch (e : Nat) : Nat := if e = 0xFFFFFFFF then 1 else e + 1

def State.loadCase (s : State) (b : Bytes) : Option LoadCase :=
  match s.dmk.inForce, imLive b with
  | none, false => some .initial
  | none, true => none
  | some i, true => if imEpoch b = i.epoch then some .live else none
  | some i, false => if imEpoch b = i.epoch then some .replace else if imEpoch b = nextEpoch i.epoch then some .reshard else none

/-- Step 12. -/
def presenceFails (c : LoadCase) (ss : List Sec) : List Fail :=
  let has (t : Nat) : Bool := (secOf ss t).isSome
  match c with
  | .live => ss.flatMap fun x => chk ([3, 5, 7, 8].contains x.typ) dkSTRUCTURAL_IN_LIVE x.typ x.off
  | .reshard => chk (has 1 || has 2 || has 5) dkMISSING_SECTION 1 0 ++
      ss.flatMap fun x => chk ([1, 2, 5, 6].contains x.typ) dkSECTION_NOT_ALLOWED x.typ x.off
  | _ => chk (has 2) dkMISSING_SECTION 2 0 ++ chk (has 4) dkMISSING_SECTION 4 0

/-- Live values of a section added in front of those loaded before. -/
def Collective.withLive (old new : Collective) : Collective := { old with live := new.live ++ old.live }
def SergeSec.withLive (old new : SergeSec) : SergeSec := { old with live := new.live ++ old.live }

/-- The image that is in force, or pending, once image `new` is taken: absent sections carry over in a Live or Re-shard load and
take their defaults in the others.
DEDUCED: notes/assumptions/56.md. -/
def mergeImage (c : LoadCase) (old : Option Image) (new : Image) : Image :=
  match c, old with
  | .live, some o => { o with
      crc := new.crc
      numerics := new.numerics.orElse fun _ => o.numerics
      collective := match new.collective with
        | some n => some ((o.collective.getD { reduceFormat := 0, buckets := [], live := [] }).withLive n)
        | none => o.collective
      serge := match new.serge with
        | some n => some ((o.serge.getD { factors := [], live := [] }).withLive n)
        | none => o.serge
      power := new.power.orElse fun _ => o.power }
  | .reshard, some o => { o with
      epoch := new.epoch, liveOnly := false, crc := new.crc, topology := new.topology.orElse fun _ => o.topology
      clusters := new.clusters.orElse fun _ => o.clusters, collective := new.collective.orElse fun _ => o.collective
      pipeline := new.pipeline.orElse fun _ => o.pipeline }
  | _, _ => new

/-! ### Checks against the table and between sections (step 13, R445) -/

/-- The sections that step 13 compares (R445): the image's own, else those carried over or in force, or the defaults. -/
def comparedImage (c : LoadCase) (old : Option Image) (new : Image) : Image :=
  match c, old with
  | .live, some o => { o with
      numerics := new.numerics.orElse fun _ => o.numerics, collective := new.collective.orElse fun _ => o.collective
      serge := new.serge.orElse fun _ => o.serge, power := new.power.orElse fun _ => o.power }
  | _, _ => mergeImage c old new

/-- A rule between two sections: its own field when its section is in the image, else the field it was compared with. -/
def cross (ok : Bool) (code : Nat) (own other : Option (Nat × Nat)) : List Fail :=
  if ok then [] else match own, other with
    | some x, _ => [⟨code, x.1, x.2⟩]
    | none, some y => [⟨code, y.1, y.2⟩]
    | none, none => []

/-- A region fits the populated windows (R58): one window, or near windows populated over what it covers. -/
def State.regionPopulated (s : State) (g : Region) : Bool :=
  s.inOneWindow g.base g.size || (tierOf g.base == some 0 && tierOf (g.base + g.size - 1) == some 0 && s.populated g.base g.size)

/-- A group with CURV set holds the layer. -/
def curvLayer (gs : List Group) (l : Nat) : Bool :=
  gs.any fun g => g.flags.testBit 0 && decide (g.firstLayer ≤ l) && decide (l < g.firstLayer + g.layerCount)

/-- Step 13 for the sections `im` in force together with the image, whose own sections are `ss`. Where the field of another section stands for
several, the first of its kind is named: group record 0's STAGE, CUT_OF_AXIS[X]. The bound of the CLUSTERMAP stages concerns STAGE_COUNT and comes
before PIPELINE's records; a buffer that does not fit its REDUCTION region, in a COLLECTIVE carried over, names NODE; the footprint concerns the
whole SERGE section and comes last, named at its header.
DEDUCED: notes/assumptions/54.md. -/
def State.crossFails (s : State) (ss : List Sec) (im : Image) : List Fail :=
  let topo := im.topology.getD {}
  let gs := im.clusters.getD []
  let mem := im.memory.getD { mode := 0, regions := [] }
  let pipe := im.pipeline.getD {}
  let field_ (t rel : Nat) : Option (Nat × Nat) := (secOf ss t).map fun x => (t, x.at + rel)
  let inside (n : Nat) : Bool := (List.range 4).all fun a => decide (coord n a < topo.size a)
  let outAxis (n : Nat) : Nat := ((List.range 4).find? fun a => decide (topo.size a ≤ coord n a)).getD 0
  let red := mem.regions.find? (·.kind == rkREDUCTION)
  let ser := mem.regions.find? (·.kind == rkSERGE)
  let cut1 := match topo.cutAxis 1 with
    | some a => decide (2 ≤ topo.size a)
    | none => false
  -- CLUSTERMAP (R56)
  (if (secOf ss scCLUSTERMAP).isSome then ((List.range gs.length).zip gs).flatMap fun e =>
      cross (!(s.absent.any fun n => e.2.clusters.testBit n)) dkABSENT_UNIT (field_ scCLUSTERMAP (8 + 80 * e.1 + 0x10)) none else []) ++
  -- MEMORY (R58)
  (if (secOf ss scMEMORY).isSome then ((List.range mem.regions.length).zip mem.regions).flatMap fun e =>
      let guarded := isStash e.2.kind || e.2.kind == rkREDUCTION || e.2.kind == rkSERGE
      cross (s.regionPopulated e.2 && !(guarded && s.touchesRetired e.2.base e.2.size)) dkCROSS_CHECK (field_ scMEMORY (8 + 32 * e.1 + 8)) none
    else []) ++
  -- COLLECTIVE (R60)
  (match im.collective with
    | none => []
    | some c => ((List.range c.buckets.length).zip c.buckets).flatMap fun e =>
        let k := e.2
        let r := 48 + 24 * e.1
        let mine := k.owner == topo.node || (k.mirrored && k.mirror == topo.node)
        let bytes := k.elements * c.elemBytes
        let fits := match red with
          | some g => decide (k.bufOff + bytes ≤ g.size) && (g.base + k.bufOff) / 0x2000000000 == (g.base + k.bufOff + bytes - 1) / 0x2000000000
          | none => false
        cross (inside k.owner) dkFIELD_RANGE (field_ scCOLLECTIVE r) (field_ scTOPOLOGY (4 + outAxis k.owner)) ++
        cross (!k.mirrored || inside k.mirror) dkFIELD_RANGE (field_ scCOLLECTIVE (r + 2)) (field_ scTOPOLOGY (4 + outAxis k.mirror)) ++
        cross (k.compress != 2 || cut1) dkCROSS_CHECK (field_ scCOLLECTIVE (r + 6)) (field_ scTOPOLOGY 8) ++
        cross (!mine || fits) dkCROSS_CHECK (field_ scCOLLECTIVE (r + 8)) (field_ scTOPOLOGY 0x0C)) ++
  -- PIPELINE (R62)
  (((List.range gs.length).zip gs).flatMap fun e =>
      cross (decide (e.2.stage < pipe.stageCount)) dkFIELD_RANGE (field_ scCLUSTERMAP (8 + 80 * e.1)) (field_ scPIPELINE 0)) ++
  (((List.range pipe.queues.length).zip pipe.queues).flatMap fun e =>
      let q := e.2
      let ax := topo.axisOfPair.getD (q.lTile / 2) 0xFF
      cross (gs.any (·.stage == q.stage)) dkFIELD_RANGE (field_ scPIPELINE (8 + 16 * e.1)) (field_ scCLUSTERMAP 8) ++
      cross (q.peer != 0 || (ax != 0xFF && topo.cutOfAxis.getD ax 0 == 2)) dkFIELD_RANGE (field_ scPIPELINE (8 + 16 * e.1 + 3))
        (field_ scTOPOLOGY (8 + (if ax = 0xFF then (topo.cutAxis 2).getD 0 else ax)))) ++
  -- SERGE (R64)
  (match im.serge with
    | none => []
    | some x =>
      (((List.range x.factors.length).zip x.factors).flatMap fun e =>
        cross (curvLayer gs e.2.layer) dkCROSS_CHECK (field_ scSERGE (16 + 32 * e.1)) (field_ scCLUSTERMAP 8) ++
        cross (e.2.engine == 0xFF || s.enginePresent e.2.engine) dkABSENT_UNIT (field_ scSERGE (16 + 32 * e.1 + 5)) none) ++
      cross (x.factors.isEmpty || (match ser with
          | some g => decide (footprint x.factors ≤ g.size)
          | none => false)) dkCROSS_CHECK ((secOf ss scSERGE).map fun x => (scSERGE, x.off)) (field_ scMEMORY 0))

/-! ### Structural content (step 14, Table 3.2) -/

def BucketRec.vals (k : BucketRec) : List Nat := [k.owner, k.mirror, k.expected, k.compress, k.flags, k.bufOff, k.elements]
def bucketOffs : List Nat := [0, 2, 4, 6, 7, 8, 0x10]

def FactorRec.vals (g : FactorRec) : List Nat := [g.layer, g.side, g.p, g.method, g.engine, g.dim, g.beta.toNat, g.epsilon.toNat]
def factorOffs : List Nat := [0, 2, 3, 4, 5, 8, 0x0C, 0x10]

/-- Structural fields of a Live image against those in force: offsets of the fields that differ. -/
def State.liveFails (s : State) (ss : List Sec) (new : Image) : List Fail :=
  let old := s.dmk.inForce
  (match secOf ss scCOLLECTIVE, new.collective with
    | some x, some c =>
      let o := (old.bind (·.collective)).getD { reduceFormat := 0, buckets := [], live := [] }
      chk (c.buckets.length == o.buckets.length) dkSTRUCTURAL_IN_LIVE scCOLLECTIVE x.at ++
      chk (c.reduceFormat == o.reduceFormat) dkSTRUCTURAL_IN_LIVE scCOLLECTIVE (x.at + 6) ++
      ((List.range c.buckets.length).zip (c.buckets.zip o.buckets)).flatMap fun e =>
        ((e.2.1.vals.zip e.2.2.vals).zip bucketOffs).flatMap fun v =>
          chk (v.1.1 == v.1.2) dkSTRUCTURAL_IN_LIVE scCOLLECTIVE (x.recAt 48 24 e.1 + v.2)
    | _, _ => []) ++
  (match secOf ss scSERGE, new.serge with
    | some x, some c =>
      let o := (old.bind (·.serge)).getD { factors := [], live := [] }
      chk (c.factors.length == o.factors.length) dkSTRUCTURAL_IN_LIVE scSERGE x.at ++
      ((List.range c.factors.length).zip (c.factors.zip o.factors)).flatMap fun e =>
        ((e.2.1.vals.zip e.2.2.vals).zip factorOffs).flatMap fun v =>
          chk (v.1.1 == v.1.2) dkSTRUCTURAL_IN_LIVE scSERGE (x.recAt 16 32 e.1 + v.2)
    | _, _ => [])

/-- Step 15 (R61). -/
def State.applyFails (s : State) (c : LoadCase) (ss : List Sec) (b : Bytes) : List Fail :=
  let ok (v : Nat) : Bool := match c with
    | .live => (match s.grad.gateStarted with
      | some g => decide (g < v)
      | none => decide (s.grad.openStep ≤ v))
    | _ => v == 0
  (match secOf ss scCOLLECTIVE with
    | some x => chk (ok (field b (x.at + 0x18) 8)) dkLATE_APPLY scCOLLECTIVE (x.at + 0x18)
    | none => []) ++
  (match secOf ss scSERGE with
    | some x => chk (ok (field b (x.at + 8) 8)) dkLATE_APPLY scSERGE (x.at + 8)
    | none => [])

/-- The structural content of a COLLECTIVE, none where there is none. -/
def collStruct (i : Image) : Option (Nat × List BucketRec) := i.collective.map fun c => (c.reduceFormat, c.buckets)

/-- Types of the sections whose structural content differs between two images. -/
def changedSections (a b : Image) : List Nat :=
  (if a.topology.getD {} = b.topology.getD {} then [] else [scTOPOLOGY]) ++ (if a.clusters = b.clusters then [] else [scCLUSTERMAP]) ++
  (if a.memory = b.memory then [] else [scMEMORY]) ++
  (if (collStruct a).getD (0, []) = (collStruct b).getD (0, []) then [] else [scCOLLECTIVE]) ++
  (if a.pipeline.getD {} = b.pipeline.getD {} then [] else [scPIPELINE]) ++
  (if (a.serge.map (·.factors)).getD [] = (b.serge.map (·.factors)).getD [] then [] else [scSERGE])

/-! ### Quiesce (Table 3.2) -/

/-- Entries in use of cluster `n`'s tracker: the descriptors that its units have accepted and not completed (R22, R111, R136).
DEDUCED: notes/assumptions/26.md. -/
def State.tracker (s : State) (n : Nat) : Nat :=
  (s.descs.filter fun d => d.place == .array n || d.place == .slice n || d.place == .movers n).length

/-- No program running, tracker empty. -/
def State.clusterQuiet (s : State) (n : Nat) : Bool :=
  s.tracker n == 0 && (s.cluster n).cores.all fun e => e.2.st != .run && e.2.st != .wait

/-- No collective in progress. -/
def State.collectivesQuiet (s : State) : Bool :=
  s.grad.relays.isEmpty && !(s.descs.any fun d => dType d.bytes == tyGATE || dType d.bytes == tyBCAST || (match d.work with
    | .ring _ _ _ _ _ _ => true
    | _ => false))

/-- Every host queue is empty: nothing to fetch, nothing owed. -/
def State.hostQuiet (s : State) : Bool :=
  s.sqs.all (fun e => e.2.head == e.2.tail && e.2.held.isNone) && !(s.descs.any fun d => match d.iss with
    | .host _ => true
    | .core _ => false)

def State.stagesQuiet (s : State) : Bool :=
  s.shard.queues.all (fun e => e.2.heldBytes == 0 && e.2.freed == e.2.lastCredit) && s.shard.tx.all (fun e => e.2.sent == e.2.freed)

def State.sergeQuiet (s : State) : Bool :=
  !(s.descs.any fun d => dType d.bytes == tySOLVE || (match d.work with
    | .emit _ _ _ _ => true
    | _ => false)) && s.factors.all fun e => e.2.ring.isEmpty && e.2.reserved.isEmpty

/-- The units that a structural change of a section asks to be quiesced are.
DEDUCED: notes/assumptions/55.md. -/
def State.quiesced (s : State) (old new : Image) (t : Nat) : Bool :=
  match t with
  | 1 => s.txns.isEmpty && s.collectivesQuiet
  | 2 => ((old.clusters.getD []) ++ (new.clusters.getD [])).all fun g => (List.range 512).all fun n => !g.clusters.testBit n || s.clusterQuiet n
  | 4 => (s.clusters.all fun e => s.clusterQuiet e.1) && !(s.descs.any fun d => dType d.bytes == tySOLVE || dType d.bytes == tyRACC) && s.hostQuiet
  | 5 => (s.bucketsHere.all fun b => (s.bkt b).count == 0) && s.gateDesc.isNone
  | 6 => s.stagesQuiet
  | 7 => s.sergeQuiet
  | _ => true

/-- Step 16.
DEDUCED: notes/assumptions/55.md. -/
def State.busyFails (s : State) (c : LoadCase) (ss : List Sec) (new : Image) : List Fail :=
  if s.shard.begun then [⟨dkSWITCH_BUSY, 0, 0⟩]
  else match c, s.dmk.inForce with
    | .replace, some old => (changedSections old new).flatMap fun t =>
        chk (s.quiesced old new t) dkNOT_QUIESCED t (match secOf ss t with
          | some x => x.off
          | none => 0)
    | _, _ => []

/-- Steps 9 and 10 (also made by STORE, R69, up to step 9). -/
def walkAndRanges (b : Bytes) : Except Fail (List Sec) :=
  match walkSections b with
  | .error f => .error f
  | .ok ss => match ss.flatMap (sectionFails b) with
    | f :: _ => .error f
    | [] => .ok ss

/-- Steps 9 to 16 on an image whose header holds. -/
def State.checkImage (s : State) (b : Bytes) : Except Fail (LoadCase × Image × Image) :=
  match walkAndRanges b with
  | .error f => .error f
  | .ok ss =>
    let new := readImage b ss
    match s.loadCase b with
    | none => .error ⟨dkEPOCH, 0, 0x20⟩
    | some c =>
      let im := mergeImage c s.dmk.inForce new
      match presenceFails c ss ++ s.crossFails ss (comparedImage c s.dmk.inForce new) ++ (if c = .live then s.liveFails ss new else []) ++ s.applyFails c ss b ++
          s.busyFails c ss im with
      | f :: _ => .error f
      | [] => .ok (c, new, im)

/-! ### Clearing (R59) -/

/-- Memory that a load writes to zero: base and length of each piece whose code changes. -/
def clearRanges (old new : Option MemorySec) : List (Nat × Nat) :=
  let a := codedRanges old
  let b := codedRanges new
  let pts := ((a ++ b).foldl (fun (m : SMap Unit) r => SMap.put (SMap.put m r.1 ()) r.2.1 ()) []).map (·.1)
  ((pts.zip (pts.drop 1)).filter fun p => codeAt a p.1 != codeAt b p.1).map fun p => (p.1, p.2 - p.1)

/-- Writes zeros to what a load clears (R59). -/
def State.clearMemory (s : State) (rs : List (Nat × Nat)) : State := rs.foldl (fun s r => s.zeroRange r.1 r.2) s

/-! ### Putting an image in force -/

/-- W_BUBBLES (R63). -/
def bubbles (i : Image) : Bool :=
  let p := i.pipeline.getD {}
  decide (1 < p.stageCount) && decide (p.microBatches < 2 * p.stageCount)

/-- A group's STASH or STASH_OVERFLOW region. -/
def stashRegionOf (i : Option Image) (g kind : Nat) : Option Region :=
  (i.bind (·.memory)).bind fun m => m.regions.find? fun r => r.kind == kind && r.group == g

def groupCount (i : Option Image) : Nat := match i.bind (·.clusters) with
  | some gs => gs.length
  | none => 0

/-- Stash allocators reset (R154). -/
def State.resetStashes (s : State) (old : Option Image) : State :=
  let same (g kind : Nat) : Bool := stashRegionOf old g kind == stashRegionOf s.dmk.inForce g kind
  { s with stash := s.stash.filter fun e => same e.1 rkSTASH && same e.1 rkSTASH_OVERFLOW && decide (e.1 < groupCount s.dmk.inForce) }

/-- Factor structures: created, or kept where record and region are unchanged (R205) and the region has not been cleared (R59); a kept
structure follows its place.
DEDUCED: notes/assumptions/56.md. -/
def State.resetFactors (s old : State) : State :=
  let n := s.factorRecs.length
  let cleared := clearRanges (old.dmk.inForce.bind (·.memory)) (s.dmk.inForce.bind (·.memory))
  let sameRegion := s.region rkSERGE == old.region rkSERGE && !(match s.region rkSERGE with
    | some g => cleared.any fun r => overlap g.base g.size r.1 r.2
    | none => false)
  let kept (f : Nat) : Bool := sameRegion && s.factorRec f == old.factorRec f
  let moved := ((List.range n).filter fun f => kept f && s.factorBase f != old.factorBase f).map fun f =>
    (s.factorBase f, old.readBytes (old.factorBase f) (factorSize (old.dim f)))
  let s1 := moved.foldl (fun s m => s.writeBytes m.1 m.2) { s with factors := s.factors.filter fun e => decide (e.1 < n) && kept e.1 }
  ((List.range n).filter fun f => !kept f).foldl (fun s f => s.createFactor f) s1

/-- Buckets and OPEN_STEP reset (R300, R336). -/
def State.resetBuckets (s : State) : State :=
  { s with grad := { s.grad with
      openStep := 0, buckets := [], passes := [], fps := [], gate := {}, decision := none, gateStarted := none, lists := []
      paramStep := [] } }

/-- The first step whose GATE starts from now on (R61). -/
def State.nextGateStep (s : State) : Nat := if s.gateDesc.any fun d => d.work != .queued then s.grad.openStep + 1 else s.grad.openStep

/-- The image that comes into force, where its COLLECTIVE keeps the structure of the one in force: its live values apply from the next GATE to
start, or from the later step that a Live load of them named, and those in force hold for the steps before (R61). -/
def State.keepLive (s : State) (im : Image) : Image :=
  match s.coll, im.collective with
  | some o, some c =>
    let n := s.nextGateStep
    if n = 0 then im
    else { im with collective := some { c with
      live := (c.live.map fun l => { l with applyFrom := max l.applyFrom n }) ++ [{ o.liveFor (n - 1) with applyFrom := 0 }] } }
  | _, _ => im

/-- An image comes into force: what the load cases Initial and Replace, and the switch of R354, have in common. A COLLECTIVE whose structure
stays as it was does not come into force anew (R61): the GATE last started still counts, and the live values change with the next.
DEDUCED: notes/assumptions/56.md. -/
def State.putInForce (s : State) (im : Image) (pipeReset : Bool) : State :=
  let old := s.dmk.inForce
  let opens := im.collective.isSome && (old.bind collStruct) != collStruct im
  let s1 := { s with dmk := { s.dmk with inForce := some (if opens then im else s.keepLive im), wBubbles := bubbles im } }
  let s2 := if opens then s1.resetBuckets else s1
  let s3 := if pipeReset then { s2 with shard := { s2.shard with queues := [], tx := [], sends := [], stall := [] } } else s2
  let s4 := (s3.resetStashes old).resetFactors s
  let oldTopo := s.topo
  let s5 := if s4.topo = oldTopo then s4 else s4.calicoDirty
  let s6 := s5.retrainChanged oldTopo
  -- a prefetch whose point is 0 starts as its bucket opens (R324)
  let s7 := if opens then s6.bucketsHere.foldl (fun s b => s.checkPrefetch b) s6 else s6
  let s8 := match s7.reductionStack with
    | some k => s7.wake (50 + k)
    | none => s7
  -- a domain that the image kept on, and keeps no longer, is idle from now (R385), and its pending FORCE may be carried out (R386)
  (s8.touch ((List.range 58).filter s.keptOn)).settleForces

/-- What a load that has passed every check does (Table 3.16). Gives the memory to clear.
DEDUCED: notes/assumptions/56.md. -/
def State.applyLoad (s : State) (c : LoadCase) (new im : Image) : State × List (Nat × Nat) :=
  let oldMem := s.dmk.inForce.bind (·.memory)
  match c with
  | .reshard => ({ s with dmk := { s.dmk with pendingImage := some im }, shard := { s.shard with permFailed := false } }, [])
  | .live =>
    let p := s.dmk.pendingImage.map fun o => mergeImage .live (some o) new
    let s1 := { s with dmk := { s.dmk with inForce := some im, pendingImage := p } }
    (match new.power with
      | some e => s1.recordEnv e
      | none => s1, [])
  | _ =>
    let rs := clearRanges oldMem im.memory
    let s1 := (s.clearMemory rs).putInForce im new.pipeline.isSome
    -- the requested envelope is recorded when the load completes (R66), after any clearing
    (if rs.isEmpty then s1.recordEnv (im.power.getD 1) else s1, rs)

end Sys2Proof.Machine
end

