-- ==== Sys2Proof/Machine/Shard.lean ====
section
/-! DEFINITION. The switch of a re-shard (15): its conditions, votes and decision, and the epoch check that may complete it. -/

namespace Sys2Proof.Machine

/-- The accepted FINAL PERMUTE. -/
def State.finalDesc (s : State) : Option Desc := s.descs.find? fun d => dType d.bytes == tyPERMUTE && pmFinal d.bytes

/-- The FINAL that waits for its switch, with the status of its own data. -/
def State.waitingFinal (s : State) : Option (Desc × Nat) := match s.finalDesc with
  | some d => match d.work with
    | .final st => some (d, st)
    | _ => none
  | none => none

/-- The conditions of R353. The FINAL itself counts neither in a tracker nor at a host queue.
DEDUCED: notes/assumptions/55.md. -/
def State.switchReady (s : State) (d : Desc) : Bool :=
  !(s.descs.any fun x => dType x.bytes == tyPERMUTE && x.id != d.id && Pm.epoch x.bytes == Pm.epoch d.bytes) &&
  (s.bucketsHere.all fun b => (s.bkt b).drained) && s.gateDesc.isNone && s.stagesQuiet && s.txns.isEmpty &&
  (match s.dmk.inForce, s.dmk.pendingImage with
    | some a, some b => (changedSections a b).all ({ s with descs := s.descs.filter (·.id != d.id) }.quiesced a b)
    | _, _ => true)

/-- What a RESHARD packet carries: the pending epoch and the vote or decision (R354). -/
def reshardData (epoch v : Nat) : Bytes := leBytes 4 epoch ++ leBytes 1 v

/-- The FINAL completes and the switch attempt ends.
DEDUCED: notes/assumptions/63.md. -/
def State.endAttempt (s : State) (outcome status : Nat) (result : Word) : State :=
  let s1 := match s.finalDesc with
    | some d => s.setWork d.id (.done status 0 result)
    | none => s
  { s1 with shard := { s1.shard with
      begun := false, lastOutcome := outcome, ownVote := none, vote0 := none, vote1 := none, voteSent := false
      permFailed := false } }

/-- The steps of R354 on SWITCH. -/
def State.doSwitch (s : State) : State :=
  match s.dmk.pendingImage with
  | none => s
  | some im =>
    let s1 := s.putInForce im true
    let s2 := { s1 with dmk := { s1.dmk with pendingImage := none } }.calicoDirty
    s2.endAttempt 1 stOK (BitVec.ofNat 64 im.epoch)

/-- Forwards a decision to the children, then acts on it: 0 SWITCH, 1 ABORT (R354, R355). -/
def State.decideSwitch (s : State) (v : Nat) : State :=
  let s1 := s.childNodes.foldl (fun s n => s.sendColl n skRESHARD_DOWN 0 0 0 0 0 (reshardData s.epochPending v)) s
  if v = 0 then s1.doSwitch else s1.endAttempt 2 stABORTED 0

/-- Combines the votes once all are there, and sends on or decides (R354).
DEDUCED: notes/assumptions/63.md. -/
def State.tryVote (s : State) : State :=
  let x := s.shard
  match s.waitingFinal, x.ownVote with
  | some _, some own =>
    let need := s.children.length
    let have_ := (if 1 ≤ need then x.vote0.toList else []) ++ (if 2 ≤ need then x.vote1.toList else [])
    if x.voteSent || have_.length != need then s
    else
      let v := if (own :: have_).all (· == 0) then 0 else 1
      match s.parentNode with
      | some p =>
        { s with shard := { x with voteSent := true } }.sendColl p skRESHARD_UP 0 0 0 0 0 (reshardData s.epochPending v)
      | none => s.decideSwitch v
  | _, _ => s

/-- The epoch check of R348 on a packet, its refusal and the switch it may bring: none when the packet was refused. -/
def State.letIn (s : State) (k : Packet) : State × Bool :=
  match s.epochCheck k.kind k.epoch with
  | .accept => (s, true)
  | .switchFirst => (s.decideSwitch 0, true)
  | .stale => ((s.countStale).answer k stEPOCH_STALE 0, false)

end Sys2Proof.Machine
end

