-- ==== Sys2Proof/Machine/Answers.lean ====
section
/-! DEFINITION. What the response of a transaction does to whom it concerns (13, 14): descriptors of every type that waits for
partners, a bucket's forward to its mirror, and the overwriting of a diverged shard. -/

namespace Sys2Proof.Machine

/-! ### Accumulates and copies (R281, R309) -/

/-- The data of a READ_RESP, or a SWAP's old values, are kept for the place that the request named (R127, R164). -/
def Desc.keep (d : Desc) (t : Txn) (phase : Nat) (data : Bytes) : Desc :=
  if data.isEmpty then d
  else if t.kind = kRACC ∧ Rc.op d.bytes = 5 ∨ t.kind = kREAD_REQ ∧ phase = 2 then { d with got := d.got ++ [(t.addr, data)] } else d

/-- A ring member's pass has ended when every block is acknowledged; the last member then counts S − 1 (R309, R312). -/
def State.finishRing (s : State) (id : Nat) : State :=
  match s.desc? id with
  | none => s
  | some d =>
    let k := Rc.bucket d.bytes
    match d.work, s.bucketRec k, s.topo.cutAxis 1 with
    | .ring blocks resc bf fl st bk, some r, some a =>
      let last := s.ringDist r.owner == some (s.topo.size a - 1)
      let erased : State := { s with grad := { s.grad with passes := s.grad.passes.erase k } }
      if s.outstandingFor id || decide (blocks < ceilDiv (Rc.count d.bytes) 64) || !d.retry.isEmpty then s
      else if last && !bk && st == stOK && !d.dropped then
        (erased.sendBucket d (s.topo.size a - 1)).setWork id (.ring blocks resc bf fl st true)
      else erased.setWork id (.done st fl (BitVec.ofNat 64 (resc % 2 ^ 32 + bf * 2 ^ 32)))
    | _, _, _ => s

/-! ### Delta packets (R282) -/

/-- The answer to a segment: refused, to be repeated, or landed; segment 0 landed lets the others go. -/
def State.segmentAnswer (s : State) (d : Desc) (p : Bytes) (acked : Nat) (retry : Option Nat) (fl st resp : Nat) : State :=
  let n := ceilDiv p.length 2048
  if st ≠ stOK then s.setWork d.id (.done st fl (cgResult p))
  else if resp.testBit 0 then s.setWork d.id (.emit p acked (some (s.tick + 25)) fl)
  else if acked + 1 = n then s.curvAccepted d p fl
  else
    let s1 := s.setWork d.id (.emit p (acked + 1) retry fl)
    if acked = 0 then ((List.range (n - 1)).map (· + 1)).foldl (fun s i => s.sendSegment d p i) s1 else s1

/-! ### The response (R280) -/

/-- A response for descriptor `d`: status, numeric flags, response flags and data. -/
def State.descAnswer (s : State) (d : Desc) (t : Txn) (st fl resp : Nat) (data : Bytes) : State :=
  match d.work with
  | .remote phase st0 fl0 r =>
    if dType d.bytes = tyGATHER then
      let s1 := if st = stOK then s.rootRecord d t.dst (Ga.object d.bytes % 4096) t.off data else s
      s1.setWork d.id (.done st fl0 r)
    else ((s.updDesc d.id fun e => e.keep t phase data).setWork d.id (.remote phase (worse st0 st) (fl0 ||| fl % 32) r)).finishRemote d.id
  | .ring blocks resc bf fl0 st0 bk => (s.setWork d.id (.ring blocks resc bf (fl0 ||| fl % 32) (worse st0 st) bk)).finishRing d.id
  | .emit p acked retry fl0 => s.segmentAnswer d p acked retry fl0 st resp
  | .gather st0 retry => (s.setWork d.id (.gather (worse st0 st) retry)).gatherEnd d.id
  | .bcast st0 =>
    let s1 := s.setWork d.id (.bcast (worse st0 st))
    match s1.desc? d.id with
    | some e => s1.endBcast e
    | none => s1
  | .final st0 => s.setWork d.id (.final (worse st0 st))
  | .held p fl0 => s.setWork d.id (.held p (fl0 ||| fl % 32))
  | _ => s

/-- Forward `id` of a bucket is acknowledged in full once no packet of it is outstanding and none has failed (R331); an answer to an earlier
forward says nothing of the one under way. -/
def State.mirrorAnswer (s : State) (b id st : Nat) : State :=
  let x := s.bkt b
  let failed := x.fwdFailed || st != stOK
  if !x.fwdSent || x.fwdId != id then s
  else s.setBkt b { x with fwdFailed := failed, fwdDone := x.fwdDone || (!failed && !s.txns.any fun t => t.use == .mirror b id) }

/-- The peer's shard has been overwritten: it is told to recompute (R333, step 5). -/
def State.overwriteAnswer (s : State) (b st : Nat) : State :=
  if st ≠ stOK ∨ s.txns.any (fun t => t.use == .overwrite b) then s
  else s.sendFp b fpOVERWROTE ((s.fp b).own.getD 0) ((s.fp b).ownAgain.getD 0)

/-- The relay of upstream `src` and its transaction. -/
def State.relay? (s : State) (src txn : Nat) : Option Relay := s.grad.relays.find? fun r => r.src == src && r.txn == txn

/-- A relay has all its bytes and every module it forwards to has acknowledged: PARAM_STEP, and the answer upstream (R328). -/
def State.endRelay (s : State) (r : Relay) : State :=
  if r.landed < r.total ∨ !r.open_.isEmpty then s
  else
    let s1 := { s with grad := { s.grad with relays := s.grad.relays.filter fun x => !(x.src == r.src && x.txn == r.txn) } }
    let s2 := if r.bucket ≠ 0xFFFFFFFF ∧ r.own = stOK then s1.setParamStep r.bucket r.step else s1
    s2.answer { dst := s.node, src := r.src, kind := kCOLL, epoch := s.epochNow, txn := r.txn, hdr := List.replicate 16 0 } r.status 0

/-- Changes the relay of `src` and `txn`. -/
def State.setRelay (s : State) (r : Relay) : State :=
  { s with grad := { s.grad with relays := s.grad.relays.map fun x => if x.src = r.src ∧ x.txn = r.txn then r else x } }

/-- A module downstream of a relay has acknowledged.
DEDUCED: notes/assumptions/90.md. -/
def State.relayAnswer (s : State) (src up txn st : Nat) : State :=
  match s.relay? src up with
  | some r =>
    let r1 := { r with open_ := r.open_.filter (· != txn), status := worse r.status st }
    (s.setRelay r1).endRelay r1
  | none => s

/-- The response of transaction `txn` of this module: its entry goes, and whom it concerns goes on. -/
def State.respond (s : State) (txn st fl resp : Nat) (data : Bytes) : State :=
  match s.txns.find? (·.txn == txn) with
  | none => s
  | some t =>
    let s1 := { s with txns := s.txns.filter (·.txn != txn) }
    match t.use with
    | .desc id => match s1.desc? id with
      | some d => s1.descAnswer d t st fl resp data
      | none => s1
    | .mirror b id => s1.mirrorAnswer b id st
    | .overwrite b => s1.overwriteAnswer b st
    | .relay src up => s1.relayAnswer src up txn st
    | .plain => s1

/-! ### The old values of a SWAP (R127) -/

/-- Transaction `txn` is an RACC's. -/
def State.swapTxn (s : State) (txn : Nat) : Bool := s.txns.any fun t => t.txn == txn && t.kind == kRACC

/-- Old values arrive ahead of the ACK, and go to RET.
DESIGN CHOICE: notes/assumptions/35.md. -/
def State.takeOld (s : State) (txn : Nat) (data : Bytes) : State :=
  match s.txns.find? (·.txn == txn) with
  | some t => match t.use with
    | .desc id => match s.desc? id with
      | some d => match d.work with
        | .remote phase _ _ _ => s.updDesc id fun e => e.keep t phase data
        | _ => s
      | none => s
    | _ => s
  | none => s

/-! ### Transactions with a lost partner (R292) -/

/-- A request, which its destination answers. -/
def isRequest (kind : Nat) : Bool := kind != kACK && kind != kREAD_RESP && kind != kBEACON

/-- A transaction that has not started and whose destination is a partner declared lost fails at once; its packets are not sent
(R285, R292). -/
def State.failTxn (s : State) (t : Txn) : State :=
  { s with egress := s.egress.filter fun k => !(k.src == s.node && k.txn == t.txn && isRequest k.kind) }.respond t.txn stNODE_LOST 0 0 []

/-- Every such transaction. -/
def State.failNew (s : State) : State :=
  (s.txns.filter fun t => t.queued && s.partnerLost t.dst).foldl State.failTxn s

end Sys2Proof.Machine
end

