-- ==== Sys2Proof/Machine/Issue.lean ====
section
/-! DEFINITION. Offering a descriptor to its unit, running whatever may run, and completing a descriptor (08). -/

namespace Sys2Proof.Machine

/-! ### Checks at the issuer (R160) -/

/-- TARGET values that Table 8.2 allows an issuer. -/
def targetOk (iss : Issuer) (t target : Nat) : Bool :=
  if t = tySIGNAL then decide (target < 512)
  else match iss with
    | .core k => target == 0x3FF || target == k / 16
    | .host _ => if t = tySOLVE ∨ t = tyFENCE then target == 0x3FF else decide (target < 512)

def isVector (t : Nat) : Bool := t == tyVECOP || t == tyCOMPRESS || t == tyEXPAND

/-- Table 8.3. -/
def commonCheck (iss : Issuer) (b : Bytes) : Nat :=
  let t := dType b
  if !dComplementOk b then stCOMPLEMENT_MISMATCH
  else if !(decide (1 ≤ t ∧ t ≤ 15) && dLength b == 1 && dReserved b == 0 && dRnd b != 3) then stBAD_DESCRIPTOR
  else if !targetOk iss t (dTarget b) then stBAD_DESCRIPTOR
  else if isVector t && dRnd b != 0 then stBAD_DESCRIPTOR
  else stOK

/-- The cluster whose units a descriptor goes to. -/
def offerCluster (iss : Issuer) (b : Bytes) : Nat := match iss with
  | .core k => k / 16
  | .host _ => dTarget b

/-- The checks of the type, the presence of the executing unit last. -/
def State.typeCheck (s : State) (iss : Issuer) (b : Bytes) : Nat :=
  let n := offerCluster iss b
  match dType b with
  | 0x01 => s.unitLast n (matmulCheck b s.numerics)
  | 0x02 => curvCheck s n b
  | 0x03 => vectorCheck s n b
  | 0x04 => vectorCheck s n b
  | 0x05 => vectorCheck s n b
  | 0x06 => s.copyCheck n b
  | 0x07 => s.raccCheck n b
  | 0x08 => s.gatherCheck n b
  | 0x09 => s.dropCheck n b
  | 0x0A => s.bcastCheck n b
  | 0x0B => s.permuteCheck n b
  | 0x0C => s.gateCheck n b
  | 0x0D => s.solveCheck b
  | 0x0E => fenceCheck iss b
  | _ => s.signalCheck b

/-- Every check made at the issuer. -/
def State.issuerCheck (s : State) (iss : Issuer) (b : Bytes) : Nat :=
  let c := commonCheck iss b
  if c ≠ stOK then c else s.typeCheck iss b

/-! ### Acceptance (R161, R165, R22) -/

/-- The queue that takes a descriptor (Table 8.2).
DEDUCED: notes/assumptions/24.md. -/
def State.placeOf (s : State) (iss : Issuer) (b : Bytes) : Place :=
  let n := offerCluster iss b
  let t := dType b
  if t = tyMATMUL ∨ t = tyCURVGATHER then .array n
  else if isVector t then .slice n
  else if t = tySOLVE then .engine (if So.engine b = 0xFF then s.anyEngine else So.engine b)
  else if t = tyFENCE ∨ t = tySIGNAL then .issuer
  else .movers n

/-- The queue of the unit and the cluster's tracker have room (R22, R111, R136, R211).
DEDUCED: notes/assumptions/26.md. -/
def State.hasRoomAt (s : State) (p : Place) : Bool := match p with
  | .array n => decide (s.queuedAt p < 8) && decide (s.tracker n < 64)
  | .slice n => decide (s.queuedAt p < 8) && decide (s.tracker n < 64)
  | .movers n => decide (s.tracker n < 64)
  | .engine _ => decide (s.queuedAt p < 16)
  | .issuer => true

/-- A FENCE of this issuer has not completed (R165). -/
def State.fenced (s : State) (iss : Issuer) : Bool := s.descs.any fun d => d.iss == iss && dType d.bytes == tyFENCE

/-- IMM of an instruction as a 64-bit word. -/
def immW (w : Nat) : Word := BitVec.ofInt 64 (iImm w)

/-- The offer that a stalled core repeats. -/
def State.stalledOffer (s : State) (k : Nat) : Option Offer :=
  let c := s.core k
  match c.hold with
  | .issue m =>
    let w := c.word c.pc
    some { iss := .core k, ctr := if iNc w then none else some (iC w), lost := m.lost, ces := m.ces
           bytes := s.readStore (k / 16) (c.reg (iRa w) + immW w).toNat 64 }
  | _ => none

/-- The requester that a granted tracker entry names: core index, or 16 for the host interface (R23, R182). -/
def requester : Issuer → Nat
  | .core k => k % 16
  | .host _ => 16

/-- The offers that wait at requester `r` of cluster `n`: a stalled core's, or those that host queues hold. -/
def State.waitingOffers (s : State) (n r : Nat) : List Offer :=
  if r < 16 then (s.stalledOffer (16 * n + r)).toList
  else (List.range 64).filterMap fun q => (s.sqs.get {} q : Sq).held.map fun (e : Bytes × Nat × OfferMeets) =>
    { iss := .host q, bytes := e.1, lost := e.2.2.lost, ces := e.2.2.ces }

/-- The cluster whose tracker a queue's descriptors enter (R22). -/
def Place.tracked : Place → Option Nat
  | .array n => some n
  | .slice n => some n
  | .movers n => some n
  | .engine _ => none
  | .issuer => none

/-- An offer waits for nothing but an entry of cluster `n`'s tracker: it passes its checks, no FENCE holds it, and its unit's queue has
room. -/
def State.wantsEntry (s : State) (n : Nat) (o : Offer) : Bool :=
  let p := s.placeOf o.iss o.bytes
  p.tracked == some n && s.issuerCheck o.iss o.bytes == stOK && !s.fenced o.iss && (p == .movers n || decide (s.queuedAt p < 8))

/-- An offer waits for nothing but a slot of the queue of 8 at place `p` (R111, R136). -/
def State.wantsSlot (s : State) (p : Place) (o : Offer) : Bool :=
  s.placeOf o.iss o.bytes == p && s.issuerCheck o.iss o.bytes == stOK && !s.fenced o.iss

/-- Requesters of a cluster in the order of R23 and R182: its cores, from the one after the core last granted or from core 0, and the host
interface after them.
DESIGN CHOICE: notes/assumptions/20.md, notes/assumptions/34.md. -/
def State.grantOrder (s : State) (n : Nat) : List Nat :=
  let a := match (s.cluster n).lastGrant with
    | some r => r + 1
    | none => 0
  ((List.range 16).map fun i => (a + i) % 16) ++ [16]

/-- Requesters that come before this one in the round take the entries of the tracker that are free, or the slots of its unit's queue
(R23, R111, R136, R182).
DESIGN CHOICE: notes/assumptions/34.md. -/
def State.entriesTaken (s : State) (o : Offer) : Bool :=
  let p := s.placeOf o.iss o.bytes
  match p.tracked with
  | some n =>
    let ahead := (s.grantOrder n).takeWhile (· != requester o.iss)
    s.wantsEntry n o && (decide (64 - s.tracker n ≤ (ahead.filter fun r => (s.waitingOffers n r).any (s.wantsEntry n)).length) ||
      (p != .movers n && decide (8 - s.queuedAt p ≤ (ahead.filter fun r => (s.waitingOffers n r).any (s.wantsSlot p)).length)))
  | none => false

/-- The 64 bytes as the unit copies them, TARGET resolved to the cluster that takes the descriptor (R159). -/
def resolveTarget (iss : Issuer) (b : Bytes) : Bytes :=
  let t := dType b
  if t = tySOLVE ∨ t = tyFENCE ∨ t = tySIGNAL then b
  else leBytes 8 (setBits (dWord0 b) 24 10 (offerCluster iss b)) ++ b.drop 8

/-- The tick that a descriptor keeps from its acceptance (R211, R351). -/
def State.limitOf (s : State) (b : Bytes) : Nat :=
  if dType b = tySOLVE then s.solveLimit b else if dType b = tyPERMUTE then s.tick + s.drainTimeout else 0

/-- Notes the core that a tracker entry is granted to (R23). -/
def State.noteGrant (s : State) (iss : Issuer) (p : Place) : State := match iss, p.tracked with
  | .core k, some n => s.setCluster n { s.cluster n with lastGrant := some (k % 16) }
  | _, _ => s

/-- Takes a descriptor that has passed its checks into its queue; the domains it needs are woken (R188).
DESIGN CHOICE: notes/assumptions/5.md. DEDUCED: notes/assumptions/27.md. -/
def State.accept (s : State) (o : Offer) (sqHead : Nat) : State :=
  let b := resolveTarget o.iss o.bytes
  let p := s.placeOf o.iss o.bytes
  let d : Desc :=
    { id := s.nextId, iss := o.iss, ctr := o.ctr, bytes := b, place := p, num := s.numerics, epoch := s.epochNow
      step := s.grad.openStep, accepted := s.tick, limit := s.limitOf b, woke := false, sqHead := sqHead, work := .queued
      lost := o.lost, retry := [], dropped := false, ces := o.ces }
  let ds := s.asleep (s.needs d)
  ({ s with nextId := s.nextId + 1, descs := s.descs ++ [{ d with woke := ds.any fun k => decide (k < 58) && !s.envOff k }] }.noteGrant o.iss p).wakeAll ds

/-! ### Running (R163, R188) -/

/-- Every earlier descriptor of the issuer has completed (ORDERED). -/
def State.orderOk (s : State) (d : Desc) : Bool :=
  !dOrdered d.bytes || !(s.descs.any fun x => x.iss == d.iss && decide (x.id < d.id))

/-- An earlier descriptor of the same issuer still waits in the same unit's queue (R163); FENCE and SIGNAL enter no unit's queue.
DEDUCED: notes/assumptions/24.md. -/
def State.behind (s : State) (d : Desc) : Bool :=
  s.descs.any fun x => x.iss == d.iss && x.place == d.place && d.place != .issuer && decide (x.id < d.id) && x.work == .queued

/-- Every descriptor accepted earlier in a FENCE's scope has completed (R165). -/
def State.fenceOpen (s : State) (d : Desc) : Bool :=
  !(s.descs.any fun x => decide (x.id < d.id) && (x.iss == d.iss || (Fe.scope d.bytes == 1 && (match x.iss with
    | .host _ => true
    | .core _ => false))))

/-- A partner declared lost, with the port of the declaration (R291). -/
def State.lostPartners (s : State) : List (Nat × Nat) :=
  (List.range 8).filterMap fun p => match s.topo.neighbour p with
    | some n => if s.partnerLost n then some (p, n) else none
    | none => none

/-- An RACC that takes part in a ring pass (R309). -/
def State.isRing (s : State) (b : Bytes) : Bool :=
  dType b == tyRACC && Rc.bucket b != 0xFFFFFFFF && !s.isSelf (gaNode (Rc.dst b)) && (match s.bucketRec (Rc.bucket b) with
    | some r => r.compress == 2
    | none => false)

/-- Module `n` takes part in the collective of descriptor `b`: in the tree of a GATE or a switch, on the ring of a pass, among the
receivers of a BCAST or as its bucket's other holder. -/
def State.takesPart (s : State) (b : Bytes) (n : Nat) : Bool :=
  let t := dType b
  if t = tyGATE ∨ t = tyPERMUTE ∧ pmFinal b then true
  else if s.isRing b then match s.topo.cutAxis 1 with
    | some a => (List.range 4).all fun c => c == a || coord n c == coord s.node c
    | none => false
  else t == tyBCAST && (((List.range 4).all fun a => (Bc.axes b).testBit a || coord n a == coord s.node a) ||
    s.peerOf (Bc.bucket b) == some n)

/-- The port whose loss holds the collective, if any (R292).
DEDUCED: notes/assumptions/43.md. -/
def State.heldOn (s : State) (b : Bytes) : Option Nat := (s.lostPartners.find? fun x => s.takesPart b x.2).map (·.1)

/-- A descriptor whose own running is a collective. -/
def State.isCollective (s : State) (b : Bytes) : Bool := dType b == tyGATE || dType b == tyBCAST || s.isRing b

/-- The cluster that executes a descriptor has become absent since it was accepted, at the swap point of a wake (R16, R18). -/
def State.unitGone (s : State) (d : Desc) : Bool := match d.place with
  | .array n => !s.clusterPresent n
  | .slice n => !s.clusterPresent n
  | .movers n => !s.clusterPresent n
  | .engine _ => false
  | .issuer => dType d.bytes == tySIGNAL && s.isSelf (Sg.node d.bytes) && !s.clusterPresent (dTarget d.bytes)

/-- What a type asks of the machine before it runs, beside domains and order. -/
def State.typeReady (s : State) (d : Desc) : Bool :=
  let t := dType d.bytes
  if s.unitGone d then true
  else if t = tyCURVGATHER then match d.place with
    | .array n => (((s.arrayQueue n).takeWhile (·.id != d.id)).all fun e => e.work.ended) && (s.offQueue n).all fun o => decide (d.id < o.seq)
    | _ => false
  else if t = tyBCAST then s.bcastMayRun d.bytes || (s.heldOn d.bytes).isSome
  else if t = tyPERMUTE then s.drainedInTime d
  else if t = tyFENCE then s.fenceOpen d
  else !(t == tyMATMUL || isVector t || t == tySOLVE)

/-- Nothing but its own condition keeps the descriptor waiting. -/
def State.mayStart (s : State) (d : Desc) : Bool :=
  d.work == .queued && s.orderOk d && !s.behind d && (s.asleep (s.needs d)).isEmpty

/-- Holds every collective that is under way and in which a lost partner takes part (R292); a switch once it has begun (R356).
DEDUCED: notes/assumptions/43.md. -/
def State.holdLost (s : State) : State :=
  { s with descs := s.descs.map fun d =>
      let live := match d.work with
        | .gate => true
        | .ring _ _ _ _ _ _ => true
        | .bcast _ => true
        | .remote phase _ _ _ => phase == 5 && s.isRing d.bytes
        | .final _ => s.shard.begun
        | _ => false
      match s.heldOn d.bytes with
      | some p => if live then { d with work := .held p (s.flagsSoFar d) } else d
      | none => d }

/-- Rows of a global range that lie on this module: local address and length of each. -/
def State.localRows (s : State) (ga stride rows len : Nat) : List (Nat × Nat) :=
  if s.isSelf (gaNode ga) then (rowStarts (gaLocal ga) stride rows).map fun a => (a, len) else []

/-- Memory of this module that a descriptor reads, or adds to, as it runs. A vector descriptor is given its cluster's store and its
group's stash, a SOLVE its factor and the areas of its offloaded products. -/
def State.readRanges (s : State) (d : Desc) : List (Nat × Nat) :=
  let b := d.bytes
  let t := dType b
  let at_ (rs : List (Nat × Nat)) : List (Nat × Nat) := rs.map fun r => (storeBase (dTarget b) + r.1, r.2)
  if t = tyMATMUL then at_ (mmA b ++ mmB b ++ mmC b ++ mmS b (mmCfg b d.num))
  else if t = tyCURVGATHER then at_ ((Cg.bufOff b, 16384) :: cgX b)
  else if isVector t then (storeBase (dTarget b), storeSize) ::
    (if vIsStash b then (s.regions.filter fun r => isStash r.kind && s.groupOf (dTarget b) == some r.group).map fun r => (r.base, r.size) else [])
  else if t = tyCOPY then s.localRows (Cp.src b) (Cp.srcStride b) (Cp.rows b) (Cp.bytes b)
  else if t = tyRACC then (Rc.src b, Rc.count b * racSrc (Rc.op b)) :: s.localRows (Rc.dst b) 0 1 (Rc.count b * racDst (Rc.op b))
  else if t = tyGATHER then (if Ga.kind b = 1 then [] else s.localRows (Ga.src b) 0 1 (Ga.bytes b))
  else if t = tyBCAST then [(Bc.src b, Bc.bytes b)]
  else if t = tyPERMUTE then [(Pm.src b, Pm.bytes b)]
  else if t = tySOLVE then (s.factorBase (So.factor b), factorSize (s.dim (So.factor b))) ::
    (if So.group b = 0xFF then [] else (s.offloadClusters (So.group b)).map fun n => (storeBase n + So.offBuf b, 0x100000))
  else []

/-- Memory of this module that a descriptor's movements write: a code unit covered in part is read first (R359). -/
def State.writeRanges (s : State) (d : Desc) : List (Nat × Nat) :=
  let b := d.bytes
  let t := dType b
  if t = tyCOPY then s.localRows (Cp.dst b) (Cp.dstStride b) (Cp.rows b) (Cp.bytes b)
  else if t = tyRACC then (if Rc.op b = 5 then [(Rc.ret b, Rc.count b * 8)] else [])
  else if t = tyGATHER ∨ t = tyDROP then (if Ga.kind b = 1 then [] else [(Ga.dst b, Ga.bytes b)])
  else if t = tyPERMUTE then s.localRows (Pm.dst b) 0 1 (Pm.bytes b)
  else []

/-- The correctable errors that a descriptor's accesses meet are logged as it starts to run (R360, R245).
DESIGN CHOICE: notes/assumptions/46.md. -/
def State.meetErrors (s : State) (d : Desc) : State :=
  if d.ces.isEmpty then s
  else
    let t := (s.readRanges d).foldl (fun (s : State) r => s.corrections d.ces r.1 r.2) s
    (s.writeRanges d).foldl (fun (s : State) r => s.writeCorrections d.ces r.1 r.2) t

/-- What a descriptor of a type that runs as soon as it may does. -/
def State.runType (s : State) (d : Desc) : State := match dType d.bytes with
  | 0x02 => s.runCurv d
  | 0x06 => s.runCopy d
  | 0x07 => s.runRacc d
  | 0x08 => s.runGather d
  | 0x09 => s.runDrop d
  | 0x0A => s.runBcast d
  | 0x0B => s.runPermute d
  | 0x0C => s.runGate d
  | 0x0E => s.setWork d.id (.done stOK 0 0)
  | 0x0F => s.runSignal d
  | _ => s

/-- Runs a descriptor of a type that runs as soon as it may. A collective with a lost partner is held instead (R292).
DEDUCED: notes/assumptions/13.md. -/
def State.run (s : State) (d : Desc) : State :=
  if s.unitGone d then s.setWork d.id (.done stUNSUPPORTED 0 (emptyResult d.bytes))
  else if s.isCollective d.bytes && (s.heldOn d.bytes).isSome then s.setWork d.id (.held ((s.heldOn d.bytes).getD 0) 0)
  else (s.meetErrors d).underMap d.map fun s => s.runType d

/-- A list of domains and tier units lacks something, and nothing but controllers' slots and links. -/
def State.atController (s : State) (ds : List Nat) : Bool :=
  let off := s.asleep ds
  !off.isEmpty && off.all fun k => decide (64 ≤ k)

/-- Nothing else in its unit keeps descriptor `d` from starting: its type may run, or it is next in its queue and the unit is free. -/
def State.accessDue (s : State) (d : Desc) : Bool :=
  d.work == .queued && s.orderOk d && !s.behind d &&
    (s.typeReady d || ((dType d.bytes == tyMATMUL || isVector (dType d.bytes) || dType d.bytes == tySOLVE) &&
      !s.descs.any fun x => x.place == d.place && x.id != d.id && (x.work != .queued || decide (x.id < d.id)) && !x.work.ended))

/-- The accesses of descriptor `d` wait on nothing but a controller. -/
def State.waitsAtController (s : State) (d : Desc) : Bool := s.accessDue d && s.atController (s.needs d)

/-- Accesses that wait only for a controller's slot have reached that controller: a change of the retirement map does not concern them
(R265). -/
def State.keepMap (s : State) : State :=
  { s with
    descs := s.descs.map fun d => if d.map.isNone && s.waitsAtController d then { d with map := some s.flash.retired } else d
    hif := { s.hif with waiting := s.hif.waiting.map fun w =>
      if w.map.isNone && s.atController (s.reqDomains w.req) then { w with map := some s.flash.retired } else w } }

/-- An access waits on tier unit `r`: a request, or that of a descriptor that nothing else keeps from starting. -/
def State.unitAwaited (s : State) (r : Nat) : Bool :=
  (s.hif.waiting.any fun w => (s.reqDomains w.req).contains (64 + r)) ||
    s.descs.any fun d => (s.needs d).contains (64 + r) && s.waitsAtController d

/-- The tick that ends counts in every slot on which an access has waited (R268). -/
def State.slotTicks (s : State) : State :=
  (s.recal.filter fun (e : Nat × Recal) => e.2.inSlot && s.unitAwaited e.1).foldl
    (fun (t : State) (e : Nat × Recal) => { t with recal := t.recal.set {} e.1 { e.2 with waited := e.2.waited + 1 } }) s

/-- Runs descriptors with numbers below `n`, oldest first, while any may run. -/
def State.advanceGo (n : Nat) : (fuel : Nat) → State → State
  | 0, s => s
  | k + 1, s => match s.descs.find? fun d => decide (d.id < n) && s.mayStart d && s.typeReady d with
    | some d => State.advanceGo n k (s.run d).failNew
    | none => s

/-- Runs what may run among the descriptors accepted before number `n`. New transactions to a lost partner fail at once (R292). -/
def State.advanceBefore (s : State) (n : Nat) : State := State.advanceGo n (s.descs.length + 1) s.failNew

/-- DEDUCED: notes/assumptions/13.md. -/
def State.advance (s : State) : State := s.advanceBefore s.nextId

/-! ### What an engine does now (R208, R213) -/

/-- A marked engine that is on is swapped before it starts another SOLVE (R233). -/
def State.swapDue (s : State) (e : Nat) : Bool := s.engineMarked e && !s.fw.restarting

/-- The SOLVE at the head of engine `e`'s queue is past its Wait phase: it reads its factor, until the row that ends the Read (R213). -/
def State.reading (s : State) (e : Nat) : Option Desc := match (s.eng e).run, s.headSolve e with
  | none, some d =>
    if s.enginePresent e && !s.factorBusy d && s.orderOk d && !s.swapDue e && !s.overdue d.limit && (s.asleep (s.needs d)).isEmpty then some d
    else none
  | _, _ => none

/-- Engine `e` folds: a packet at the head of a ring of its factors may be folded, and the row that ends its fold is still to come (R208). -/
def State.folding (s : State) (e : Nat) : Bool :=
  (s.asleep s.sergeDomains).isEmpty && s.factors.any fun (x : Nat × Factor) => match s.factorRec x.1, x.2.ring with
    | some r, p :: _ => s.foldEngine x.1 r == some e && !s.foldBarred x.1 p
    | _, _ => false

/-! ### The offer -/

/-- A PERMUTE under the pending epoch has not ended OK (R353).
DEDUCED: notes/assumptions/63.md. -/
def State.notePermute (s : State) (b : Bytes) (status : Nat) : State :=
  if dType b = tyPERMUTE ∧ status ≠ stOK ∧ s.dmk.pendingImage.isSome ∧ Pm.epoch b = s.epochPending then
    { s with shard := { s.shard with permFailed := true } }
  else s

/-- Offers a descriptor: it completes at once when a check fails, is accepted, or finds no room (none).
DEDUCED: notes/assumptions/29.md. -/
def State.offer (s : State) (o : Offer) (sqHead : Nat := 0) : Option State :=
  let st := s.issuerCheck o.iss o.bytes
  if st ≠ stOK then some ((s.complete o.iss o.ctr o.bytes st 0 (emptyResult o.bytes) false sqHead).notePermute o.bytes st)
  else if s.fenced o.iss || !s.hasRoomAt (s.placeOf o.iss o.bytes) || s.entriesTaken o then none
  else some (s.accept o sqHead).advance

/-! ### Completion (R162) -/

/-- A core held in a FENCE whose descriptors have all completed goes on (R170). -/
def State.releaseFence (s : State) (iss : Issuer) : State :=
  match iss with
  | .core k =>
    let c := s.core k
    if c.hold = .fence ∧ !(s.descs.any fun d => d.iss == iss) then s.setCore k (c.goto (c.pc + 1)) else s
  | .host _ => s

/-- Completions owed by queue `q` (R185). -/
def State.owedBy (s : State) (q : Nat) : Nat :=
  (s.descs.filter fun d => d.iss == .host q).length + (match (s.sqs.get {} q).held with
    | some _ => 1
    | none => 0)

/-- Completions owed to the queues bound to ring `c` (R182, R186). -/
def State.cqOwed (s : State) (c : Nat) : Nat :=
  ((List.range 64).filter fun q => (s.sqs.get {} q).cq == c).foldl (fun a q => a + s.owedBy q) 0 +
    (s.hif.owed.filter fun e => e.1 == c).length

/-- Ring `c` is enabled and has a slot that is neither unconsumed nor reserved (R182). -/
def State.cqFree (s : State) (c : Nat) : Bool :=
  let x := s.cqs.get {} c
  let n := 2 ^ x.sizeLog2
  x.enable && decide ((x.tail + n - x.head) % n + s.cqOwed c < n - 1)

/-- The issuer can offer a descriptor: a core whose half is on, or the host interface, whose ring has a slot. -/
def State.issuerLive (s : State) (iss : Issuer) : Bool := match iss with
  | .core k => s.domOn (k / 256)
  | .host q => s.up && s.domOn 46 && decide (3 ≤ s.startPhase) && s.cqFree (s.sqs.get {} q).cq

/-- The effect of a descriptor row: a descriptor of that type is offered. One that finds no room waits at its issuer, where
nothing changes (R22, R182). -/
def State.offerRow (s : State) (o : Offer) (isRow : Bool) : State :=
  if isRow && s.issuerLive o.iss then
    (s.offer o (match o.iss with
      | .host q => (s.sqs.get {} q).head
      | .core _ => 0)).getD s
  else s

/-- An abort ends with the last completion owed: STOPPED by the abort clears and ENABLE is 0 (R185).
DEDUCED: notes/assumptions/31.md. -/
def State.endAbort (s : State) (iss : Issuer) : State :=
  match iss with
  | .host q =>
    let x := s.sqs.get {} q
    if x.aborting ∧ s.owedBy q = 0 then { s with sqs := s.sqs.set {} q { x with aborting := false, enable := false } } else s
  | .core _ => s

/-- What the completion of a type changes beside its signal or record. -/
def State.completionEffects (s : State) (d : Desc) (status : Nat) (result : Word) : State :=
  let t := dType d.bytes
  if t = tyGATE then
    let g := s.grad
    if status = stOK ∨ status = stSTEP_SKIPPED then
      { s with grad := { g with openStep := Gt.step d.bytes + 1, skips := if status = stOK then g.skips else min (g.skips + 1) 0xFF } }
    else { s with grad := { g with gate := {} } }
  else if t = tyBCAST ∧ status = stDIVERGED then { s with grad := { s.grad with diverged := min (s.grad.diverged + 1) 0xFF } }
  else if t = tyPERMUTE ∧ ¬pmFinal d.bytes then s.notePermute d.bytes status
  else if t = tySOLVE then match d.place with
    | .engine e => s.countSolve e status result
    | _ => s
  else s

/-- Completes a descriptor: its effects, its entry freed, its signal or record, and whatever may run after it. -/
def State.finish (s : State) (d : Desc) (status flags : Nat) (result : Word) : State :=
  let st := if status = stOK ∧ d.dropped then stBANK_CONFLICT else status
  let s1 := (s.completionEffects d st result).touch (s.needs d)
  let s2 := (s1.dropDesc d.id).complete d.iss d.ctr d.bytes st flags result d.woke d.sqHead
  (((s2.releaseFence d.iss).endAbort d.iss).settleForces).advance

/-- A step's answer. -/
abbrev Out := Host.Outcome State Fault Refusal

/-- An event that occurs only while its conditions hold; otherwise nothing changes (DESIGN CHOICE: notes/assumptions/2.md). -/
def event (cond : Bool) (s t : State) : Out := .next (if cond then t else s)

/-- A command that names a unit the FV512 does not have stops.
DESIGN CHOICE: notes/assumptions/19.md. -/
def guarded (ok : Bool) (s : State) : Out := if ok then .next s else .fault .noSuchUnit

/-- Ends every descriptor of a list with a status (ABORTED at an abort or a failed wake). -/
def State.finishAll (s : State) (ds : List Desc) (status : Nat) : State := ds.foldl (fun s d => s.finish d status 0 (emptyResult d.bytes)) s

end Sys2Proof.Machine
end

