-- ==== Sys2Proof/Machine/Offers.lean ====
section
/-! DEFINITION. Meanings of the descriptor rows and of the events of arrays, vector slices, data movers and completions. -/

namespace Sys2Proof.Machine

/-- Offers a descriptor under the row of its type (R158 to R162). -/
def offerExec (o : Offer) (isRow : Bool) (s : State) : Out := guarded o.wf (s.offerRow o isRow)

/-! ### Arrays (05, 06, 09) -/

/-- R96, R100, R111. -/
def execMatmul (o : Offer) (s : State) : Out := offerExec o (dType o.bytes == tyMATMUL) s

/-- The MATMUL of cluster `n` that may start now (R112, R113). -/
def State.startable (s : State) (n : Nat) : Option (Desc ⊕ Offload) :=
  match s.firstOf n (·.work == .queued) Offload.queued with
  | some (.inl d) => if dType d.bytes == tyMATMUL && s.mayStart d && !s.matHazard n d && s.fetchOpen n then some (.inl d) else none
  | some (.inr o) => if s.domOn (n / 16) && s.fetchOpen n then some (.inr o) else none
  | none => none

/-- R113. -/
def execMatmulStart (n : Nat) (s : State) : Out :=
  guarded (clusterOk n) (match s.startable n with
    | some (.inl d) => ((s.meetErrors d).setWork d.id (.mat 0 0 false [])).sendAllTiles
    | some (.inr _) => (s.updOffload n Offload.queued fun o => { o with left := some o.intervals }).sendAllTiles
    | none => s)

/-- R119: an interval ends; it waits while a writeback still occupies the spill buffer. -/
def execMatmulIntervalEnd (n busy : Nat) (s : State) : Out :=
  guarded (clusterOk n) (match s.firstOf n Desc.inProducts Offload.inProducts with
    | some (.inl d) => if s.writingBack n then s else s.intervalEnd n d busy
    | some (.inr o) => if s.writingBack n then s else s.offIntervalEnd n o busy
    | none => s)

/-- R112: a writeback ends and the MATMUL is owed its completion. What waits for its output goes on. -/
def execMatmulWritebackEnd (n busy : Nat) (s : State) : Out :=
  guarded (clusterOk n) (match s.firstOf n Desc.inWriteback Offload.inWriteback with
    | some (.inl d) => (s.writebackEnd n d busy).sendAllTiles.advance
    | some (.inr o) => ((s.offWritebackEnd n o busy).touch [n / 16]).sendAllTiles.advance.settleForces
    | none => s)

/-- R192 to R199. -/
def execCurvgather (o : Offer) (s : State) : Out := offerExec o (dType o.bytes == tyCURVGATHER) s

/-- R282: segment 0 again, 25 ticks after NO_ROOM. -/
def execDeltaSegmentRetry (id : Nat) (s : State) : Out :=
  match s.desc? id with
  | some d => match d.work with
    | .emit p a (some t) fl => event (decide (t ≤ s.tick)) s ((s.sendSegment d p 0).setWork id (.emit p a none fl)).failNew
    | _ => .next s
  | none => .next s

/-! ### Vector slices (07) -/

/-- A VECOP other than a stash operation (R142). -/
def execVecop (o : Offer) (s : State) : Out := offerExec o (vIsVecop o.bytes && !vIsStash o.bytes) s

/-- R145. -/
def execCompress (o : Offer) (s : State) : Out := offerExec o (vIsCompress o.bytes) s

/-- R146. -/
def execExpand (o : Offer) (s : State) : Out := offerExec o (vIsExpand o.bytes) s

/-- R151, R152. -/
def execStashPut (o : Offer) (s : State) : Out := offerExec o (vIsPut o.bytes) s

/-- R151. -/
def execStashGet (o : Offer) (s : State) : Out := offerExec o (vIsGet o.bytes) s

/-- R153. -/
def execStashTake (o : Offer) (s : State) : Out := offerExec o (vIsTake o.bytes) s

/-- R153. -/
def execStashFree (o : Offer) (s : State) : Out := offerExec o (vIsFree o.bytes) s

/-- Starts the descriptor at the head of a slice's queue, once what it needs, the stash memory it reaches with it, is on; it wakes what is not
(R188, R191). -/
def State.startVector (s : State) (n cycle : Nat) (delays : List Nat) : State :=
  match s.descs.find? fun d => d.place == .slice n && d.work == .queued with
  | none => s
  | some d =>
    let off := s.asleep (s.needs d)
    if s.mayStart d then (s.meetErrors d).underMap d.map fun s => s.runVector d n cycle delays
    else if s.orderOk d && !s.behind d then (s.updDesc d.id fun x => { x with woke := x.woke || off.any (· < 58) }).wakeAll off
    else s

/-- R136, R140.
DEDUCED: notes/assumptions/11.md. -/
def execVectorDescriptorStart (n cycle : Nat) (delays : List Nat) (s : State) : Out := guarded (clusterOk n) (s.startVector n cycle delays)

/-! ### Data movers (06, 08, 14, 15) -/

/-- R164. -/
def execCopy (o : Offer) (s : State) : Out := offerExec o (dType o.bytes == tyCOPY) s

/-- R127, R303. -/
def execRacc (o : Offer) (s : State) : Out := offerExec o (dType o.bytes == tyRACC) s

/-- R329. -/
def execGather (o : Offer) (s : State) : Out := offerExec o (dType o.bytes == tyGATHER && Ga.kind o.bytes != 1) s

/-- Repeats the requests whose 25 ticks have passed. -/
def State.gatherAgain (s : State) (d : Desc) (st : Nat) (retry : List (Nat × Nat × Nat)) : State :=
  let due := retry.filter fun r => decide (r.2.2 ≤ s.tick)
  let s1 := s.setWork d.id (.gather st (retry.filter fun r => decide (s.tick < r.2.2)))
  (due.foldl (fun s r => s.gatherPiece d r.1 r.2.1) s1).gatherEnd d.id

/-- R329. -/
def execGatherRetry (id : Nat) (s : State) : Out :=
  match s.desc? id with
  | some d => match d.work with
    | .gather st retry => .next (s.gatherAgain d st retry).failNew
    | _ => .next s
  | none => .next s

/-- The transactions of a descriptor that has ended are no longer awaited. -/
def State.forgetTxns (s : State) (id : Nat) : State := { s with txns := s.txns.filter fun t => t.use != .desc id }

/-- A GATHER PARAM that has not ended. -/
def Desc.gathering (d : Desc) : Bool := dType d.bytes == tyGATHER && Ga.kind d.bytes == 0 && (match d.work with
  | .gather _ _ => true
  | .queued => true
  | _ => false)

/-- R329: TMR_TICK exceeds a DEADLINE that is not 0. -/
def execGatherDeadline (id : Nat) (s : State) : Out :=
  match s.desc? id with
  | some d => event (d.gathering && Ga.deadline d.bytes != 0 && s.overdue (Ga.deadline d.bytes)) s
      ((s.forgetTxns id).setWork id (.done stTIMEOUT 0 0))
  | none => .next s

/-- R321. -/
def execGatherRoot (o : Offer) (s : State) : Out := offerExec o (dType o.bytes == tyGATHER && Ga.kind o.bytes == 1) s

/-- R330. -/
def execDrop (o : Offer) (s : State) : Out := offerExec o (dType o.bytes == tyDROP && Ga.kind o.bytes != 1) s

/-- R322. -/
def execDropRoot (o : Offer) (s : State) : Out := offerExec o (dType o.bytes == tyDROP && Ga.kind o.bytes == 1) s

/-- R326 to R328. -/
def execBcast (o : Offer) (s : State) : Out := offerExec o (dType o.bytes == tyBCAST) s

/-- R349 to R352. -/
def execPermute (o : Offer) (s : State) : Out := offerExec o (dType o.bytes == tyPERMUTE) s

/-- R351: at expiry the named bucket has not drained. A FINAL votes instead (R353). -/
def execPermuteDrainTimeout (id : Nat) (s : State) : Out :=
  match s.desc? id with
  | some d => event (dType d.bytes == tyPERMUTE && !pmFinal d.bytes && d.work == .queued && s.runOut d.limit &&
      !d.inTime && !s.drainedInTime d) s (s.setWork id (.done stABORTED 0 0))
  | none => .next s

/-- The switch begins with this module's vote (R353). With a partner lost that takes part in it, it is held from then on (R292, R356).
DEDUCED: notes/assumptions/43.md, notes/assumptions/63.md. -/
def State.beginSwitch (s : State) (vote : Nat) : State :=
  let t := { s with shard := { s.shard with begun := true, lastEpoch := s.epochPending, ownVote := some vote } }
  match s.finalDesc.bind fun d => (s.heldOn d.bytes).map fun p => (d.id, p) with
  | some (id, p) => t.setWork id (.held p 0)
  | none => t.tryVote

/-- R353: the conditions hold and the module votes. -/
def execPermuteFinal (s : State) : Out :=
  match s.waitingFinal with
  | some (d, st) => event (!s.shard.begun && s.switchReady d) s
      ((s.beginSwitch (if s.shard.permFailed ∨ st ≠ stOK ∨ s.overdue d.limit then 1 else 0)).holdLost.advance)
  | none => .next s

/-- R353: the conditions have not all held within DRAIN_TIMEOUT.
DEDUCED: notes/assumptions/63.md. -/
def execFinalDrainTimeout (s : State) : Out :=
  match s.finalDesc with
  | some d => match d.work with
    | .queued => event (s.runOut d.limit) s (((s.setWork d.id (.final stABORTED)).beginSwitch 1).holdLost.advance)
    | .remote _ st _ _ => event (s.runOut d.limit) s (((s.setWork d.id (.final (worse st stABORTED))).beginSwitch 1).holdLost.advance)
    | .final _ => event (!s.shard.begun && s.runOut d.limit && (s.overdue d.limit || !s.switchReady d)) s ((s.beginSwitch 1).holdLost.advance)
    | _ => .next s
  | none => .next s

/-- R313. -/
def execGate (o : Offer) (s : State) : Out := offerExec o (dType o.bytes == tyGATE) s

/-- R314. The buffers are read once their memory serves accesses (R251, R263). The correctable errors that the reading of the buffers meets are
logged, those of a forward that follows with them (R360).
DESIGN CHOICE: notes/assumptions/46.md. -/
def execGateRecordForm (s : State) (ces : List (Nat × Nat) := []) : Out :=
  match s.openGate with
  | some d =>
    let step := Gt.step d.bytes
    let off := s.asleep s.buffersDomains
    event (s.grad.gate.own.isNone && s.gateReady step) s (if !off.isEmpty then s.wakeAll off else
      ((({ s.recordErrors ces with grad := { s.grad with gate := { s.grad.gate with own := some (s.gateRecord step) } } }.tryCombine).forwardErrors
        s ces).advance))
  | none => .next s

/-! ### Serge, fence and signal -/

/-- R209 to R211. -/
def execSolve (o : Offer) (s : State) : Out := offerExec o (dType o.bytes == tySOLVE) s

/-- R165. -/
def execFence (o : Offer) (s : State) : Out := offerExec o (dType o.bytes == tyFENCE) s

/-- R166. -/
def execSignal (o : Offer) (s : State) : Out := offerExec o (dType o.bytes == tySIGNAL) s

/-! ### Completion (R162, R241) -/

/-- R162. -/
def execDescriptorCompletion (id : Nat) (s : State) : Out :=
  match s.desc? id with
  | some d => match d.work with
    | .done st fl r => event d.retry.isEmpty s (s.finish d st fl r)
    | _ => .next s
  | none => .next s

/-- The mover descriptor of cluster `n` with a word to repeat. -/
def State.losing (s : State) (n : Nat) : Option Desc := s.descs.find? fun d => d.place == .movers n && !d.retry.isEmpty

/-- Counts at the store that a contested write loses (Table 11.5). -/
def State.countLoss (s : State) (a : Nat) (dropped : Bool) : State := match (winOf a).1 with
  | .store n =>
    let c := s.cluster n
    s.setCluster n { c with
      lostWrites := if dropped then c.lostWrites else min (c.lostWrites + 1) 0xFFFF
      droppedWords := if dropped then min (c.droppedWords + 1) 0xFFFF else c.droppedWords }
  | _ => s

/-- A descriptor whose contested words are all written or dropped goes on. -/
def State.wordsDone (s : State) (id : Nat) : State := match s.work? id with
  | some (.remote _ _ _ _) => (s.finishRemote id).advance
  | some (.ring _ _ _ _ _ _) => (s.finishRing id).advance
  | _ => s

/-- One repeat of a contested word; after 16 losses the word stays unwritten (R241).
DESIGN CHOICE: notes/assumptions/20.md. -/
def State.retryWord (s : State) (d : Desc) (lost : Bool) : State :=
  match d.retry with
  | [] => s
  | (a, b, k) :: rest =>
    if !lost then (s.writeBytes a b).updDesc d.id fun d => { d with retry := rest }
    else
      let s1 := s.countLoss a false
      if 16 ≤ k + 1 then (s1.countLoss a true).updDesc d.id fun d => { d with retry := rest, dropped := true }
      else s1.updDesc d.id fun d => { d with retry := (a, b, k + 1) :: rest }

/-- R241. -/
def execDataMoverRetry (n : Nat) (lost : Bool) (s : State) : Out :=
  guarded (clusterOk n) (match s.losing n with
    | some d => (s.retryWord d lost).wordsDone d.id
    | none => s)

end Sys2Proof.Machine
end

