-- ==== Sys2Proof/Machine/Cores.lean ====
section
/-! DEFINITION. Sequencer cores (08): the 24 operations of Table 8.7. A command names the core; the core executes the word at its PC,
and the command occurs only when that word is its operation. -/

namespace Sys2Proof.Machine

/-! ### Fetching and faulting (R168 to R172) -/

/-- The core executes its next operation: its half is on, it runs and nothing holds it. -/
def State.coreMay (s : State) (k : Nat) : Bool := s.domOn (k / 256) && (s.core k).st == .run && (s.core k).hold == .none

/-- A core enters FAULT at its PC; the operation takes no effect (R172). Its half may now be idle (R386).
DEDUCED: notes/assumptions/93.md. -/
def State.coreFault (s : State) (k cause : Nat) : State :=
  ((s.setCore k { s.core k with st := .fault, cause := cause, hold := .none }).touch [k / 256]).settleForces

/-- Executes the word at core `k`'s PC when its operation is `op`. An unknown OP or a field that is not 0 where it must be
faults (CAUSE 1).
DESIGN CHOICE: notes/assumptions/2.md. DEDUCED: notes/assumptions/33.md. -/
def State.coreOp (s : State) (k op : Nat) (f : (w : Nat) → Core → State) : Out :=
  guarded (coreOk k) (
    if !s.coreMay k then s
    else
      let c := s.core k
      let w := c.word c.pc
      match iUnused w with
      | none => s.coreFault k 1
      | some u => if iOp w ≠ op then s else if u ≠ 0 ∨ iReserved w ≠ 0 then s.coreFault k 1 else f w c)

/-- Goes on to index `pc` with the core as given, or faults when it lies beyond 8,191 (CAUSE 3). -/
def State.coreGo (s : State) (k : Nat) (c : Core) (pc : Nat) : State :=
  if pc ≤ 8191 then s.setCore k (c.goto pc) else s.coreFault k 3

/-- RD ← v and on to the next index. -/
def State.coreAlu (s : State) (k : Nat) (w : Nat) (c : Core) (v : Word) : State := s.coreGo k (c.setReg (iRd w) v) (c.pc + 1)

/-- A branch. -/
def State.coreBranch (s : State) (k w : Nat) (c : Core) (taken : Bool) : State :=
  s.coreGo k c (if taken then (immW w).toNat else c.pc + 1)

/-- Shift distance of SHL, SHR and SRA. -/
def shiftBy (w : Nat) (c : Core) : Nat := (c.reg (iRb w) + immW w).toNat % 64

/-! ### Registers that a core reads (Tables 5.10, 5.11, 8.8, 8.9) -/

/-- The running MATMUL of R115: the earliest accepted whose products have not ended, else the one in writeback; none while no
MATMUL is in fetch, products or writeback. While one is in writeback, the next accepted is shown even before its products begin.
DESIGN CHOICE: notes/assumptions/100.md. -/
def State.shownMatmul (s : State) (n : Nat) : Option (Desc ⊕ Offload) :=
  if (s.firstOf n (fun d => d.inProducts || d.inWriteback) fun o => !o.queued).isSome then
    (s.firstOf n (fun d => dType d.bytes == tyMATMUL && (d.work == .queued || d.inProducts)) fun o => !o.inWriteback).orElse fun _ =>
      s.firstOf n Desc.inWriteback Offload.inWriteback
  else none

/-- GBL_ARR_STATUS of cluster `n` (Table 5.10). HAZARD_WAIT is set as soon as nothing but the overlap keeps the next queued descriptor from
starting, and only where that is a MATMUL. An offloaded MATMUL runs in ACC32 with three passes (R217).
DESIGN CHOICE: notes/assumptions/116.md. -/
def State.arrStatus (s : State) (n : Nat) : Nat :=
  let run := s.shownMatmul n
  let c := s.cluster n
  let hazard := match s.firstOf n (·.work == .queued) Offload.queued with
    | some (.inl d) => dType d.bytes == tyMATMUL && s.mayStart d && s.matHazard n d
    | _ => false
  let now := match run with
    | some (.inl d) => let g := mmCfg d.bytes d.num; g.mode * 2 ^ 8 + g.passes * 2 ^ 10 + dTag d.bytes % 65536 * 2 ^ 16
    | some (.inr o) => 1 * 2 ^ 8 + 3 * 2 ^ 10 + o.tag * 2 ^ 16
    | none => 0
  let queued := ((s.arrayQueue n).filter fun d => d.work == .queued && dType d.bytes == tyMATMUL).length + ((s.offQueue n).filter Offload.queued).length
  b2n run.isSome + min 8 queued * 2 + b2n hazard * 2 ^ 5 + now + c.arrFlags % 32 * 2 ^ 32 + c.arrDone % 2 ^ 24 * 2 ^ 40

/-- GBL_ARR_UTIL (Table 5.11). -/
def State.arrUtil (s : State) (n : Nat) : Nat := (s.cluster n).productCycles + (s.cluster n).busyCycles * 2 ^ 32

/-- A read of GBL_ARR_UTIL clears it. -/
def State.clearArrUtil (s : State) (n : Nat) : State := s.setCluster n { s.cluster n with productCycles := 0, busyCycles := 0 }

/-- GBL_CORE_STATUS (Table 8.9). -/
def Core.status (c : Core) : Nat := c.flags % 32 + c.firstStatus * 2 ^ 8 + c.firstTag * 2 ^ 16 + c.notOk * 2 ^ 40

def Core.clearStatus (c : Core) : Core := { c with flags := 0, firstStatus := 0, firstTag := 0, notOk := 0 }

/-- What core address `a` names (Table 8.8). -/
inductive CoreAddr where
  | store (off : Nat)
  | prog (i : Nat)
  | arrStatus
  | arrUtil
  | tick
  | id
  | status
  | counter (c : Nat)
  deriving DecidableEq, Repr

/-- The place that an aligned core address names, none outside Table 8.8. -/
def coreAddr (a : Nat) : Option CoreAddr :=
  if a % 8 ≠ 0 then none
  else if a < storeSize then some (.store a)
  else if 0x01000000 ≤ a ∧ a < 0x01010000 then some (.prog ((a - 0x01000000) / 8))
  else if a = 0x02000000 then some .arrStatus
  else if a = 0x02000008 then some .arrUtil
  else if a = 0x02000010 then some .tick
  else if a = 0x02000018 then some .id
  else if a = 0x02000020 then some .status
  else if 0x02000100 ≤ a ∧ a < 0x02000300 then some (.counter ((a - 0x02000100) / 8))
  else none

/-- Reads a core address: the value, and the state with what the read clears. -/
def State.coreRead (s : State) (k : Nat) (x : CoreAddr) : Nat × State :=
  let n := k / 16
  match x with
  | .store off => (leNat (s.readStore n off 8), s)
  | .prog i => ((s.core k).word i, s)
  | .arrStatus => (s.arrStatus n, s)
  | .arrUtil => (s.arrUtil n, s.clearArrUtil n)
  | .tick => (s.tick, s)
  | .id => (k, s)
  | .status => ((s.core k).status, s.setCore k (s.core k).clearStatus)
  | .counter c => ((s.counter n c).toNat, s)

/-! ### Operations -/

/-- Issues the descriptor that the word at core `k`'s PC names (R170, R172); without room the core stalls (R22). The correctable
errors that the reading of its 64 bytes meets are logged (R245).
DEDUCED: notes/assumptions/33.md. DESIGN CHOICE: notes/assumptions/46.md. -/
def State.issueFrom (s : State) (k : Nat) (m : OfferMeets) : State :=
  let c := s.core k
  let w := c.word c.pc
  let a := (c.reg (iRa w) + immW w).toNat
  if a % 64 ≠ 0 ∨ storeSize < a + 64 then s.coreFault k 2
  else if 8191 ≤ c.pc then s.coreFault k 3
  else
    let x := storeBase (k / 16) + a
    let s1 := s.corrections m.ces x 64
    let rest := m.ces.filter fun e => !(decide (x ≤ e.1) && decide (e.1 < x + 64))
    let o : Offer := { iss := .core k, ctr := if iNc w then none else some (iC w), bytes := s.readStore (k / 16) a 64, lost := m.lost, ces := rest }
    match s1.offer o with
    | some t => t.setCore k ((t.core k).goto (c.pc + 1))
    | none => s1.setCore k { c with hold := .issue { m with ces := rest } }

/-- ISSUE (R170). -/
def execIssue (k : Nat) (m : OfferMeets) (s : State) : Out := s.coreOp k opISSUE fun _ _ => s.issueFrom k m

/-- WAIT (R175). -/
def execWait (k : Nat) (s : State) : Out := s.coreOp k opWAIT fun w c =>
  if 8191 ≤ c.pc then s.coreFault k 3
  else if reached (s.counter (k / 16) (iC w)) ((c.reg (iRa w)).truncate 32) then s.coreAlu k w c 0
  else s.setCore k { c with st := .wait, hold := .wait }

/-- R175: TMR_TICK exceeds a deadline that is not 0. -/
def execWaitTimeout (k : Nat) (s : State) : Out :=
  let c := s.core k
  guarded (coreOk k) (if c.hold = .wait ∧ c.waitOver s.overdue then s.setCore k (c.leaveWait 1) else s)

/-- LOOP. -/
def execLoop (k : Nat) (s : State) : Out := s.coreOp k opLOOP fun w c =>
  let v := c.reg (iRa w) - 1
  s.coreBranch k w (c.setReg (iRa w) v) (v != 0)

/-- BEQ. -/
def execBeq (k : Nat) (s : State) : Out := s.coreOp k opBEQ fun w c => s.coreBranch k w c (c.reg (iRa w) == c.reg (iRb w))

/-- BNE. -/
def execBne (k : Nat) (s : State) : Out := s.coreOp k opBNE fun w c => s.coreBranch k w c (c.reg (iRa w) != c.reg (iRb w))

/-- BLT, signed. -/
def execBlt (k : Nat) (s : State) : Out := s.coreOp k opBLT fun w c => s.coreBranch k w c ((c.reg (iRa w)).slt (c.reg (iRb w)))

/-- BGE, signed. -/
def execBge (k : Nat) (s : State) : Out := s.coreOp k opBGE fun w c => s.coreBranch k w c (!(c.reg (iRa w)).slt (c.reg (iRb w)))

/-- BLTU, unsigned. -/
def execBltu (k : Nat) (s : State) : Out := s.coreOp k opBLTU fun w c => s.coreBranch k w c ((c.reg (iRa w)).ult (c.reg (iRb w)))

/-- BGEU, unsigned. -/
def execBgeu (k : Nat) (s : State) : Out := s.coreOp k opBGEU fun w c => s.coreBranch k w c (!(c.reg (iRa w)).ult (c.reg (iRb w)))

/-- JUMP. -/
def execJump (k : Nat) (s : State) : Out := s.coreOp k opJUMP fun w c =>
  s.coreGo k (c.setReg (iRd w) (BitVec.ofNat 64 (c.pc + 1))) (c.reg (iRa w) + immW w).toNat

/-- ADD. -/
def execAdd (k : Nat) (s : State) : Out := s.coreOp k opADD fun w c => s.coreAlu k w c (c.reg (iRa w) + c.reg (iRb w))

/-- SUB. -/
def execSub (k : Nat) (s : State) : Out := s.coreOp k opSUB fun w c => s.coreAlu k w c (c.reg (iRa w) - c.reg (iRb w))

/-- ADDI. -/
def execAddi (k : Nat) (s : State) : Out := s.coreOp k opADDI fun w c => s.coreAlu k w c (c.reg (iRa w) + immW w)

/-- SHL. -/
def execShl (k : Nat) (s : State) : Out := s.coreOp k opSHL fun w c => s.coreAlu k w c (c.reg (iRa w) <<< shiftBy w c)

/-- SHR, logical. -/
def execShr (k : Nat) (s : State) : Out := s.coreOp k opSHR fun w c => s.coreAlu k w c (c.reg (iRa w) >>> shiftBy w c)

/-- SRA, arithmetic. -/
def execSra (k : Nat) (s : State) : Out := s.coreOp k opSRA fun w c => s.coreAlu k w c ((c.reg (iRa w)).sshiftRight (shiftBy w c))

/-- AND. -/
def execAnd (k : Nat) (s : State) : Out := s.coreOp k opAND fun w c => s.coreAlu k w c (c.reg (iRa w) &&& c.reg (iRb w))

/-- OR. -/
def execOr (k : Nat) (s : State) : Out := s.coreOp k opOR fun w c => s.coreAlu k w c (c.reg (iRa w) ||| c.reg (iRb w))

/-- XOR. -/
def execXor (k : Nat) (s : State) : Out := s.coreOp k opXOR fun w c => s.coreAlu k w c (c.reg (iRa w) ^^^ c.reg (iRb w))

/-- The correctable error that a LOAD meets in its word of the store (R360): its DETAIL. -/
def State.loadError (s : State) (k : Nat) (x : CoreAddr) (ce : Option Nat) : State :=
  match x, ce with
  | .store off, some d => s.corrected (storeBase (k / 16) + off) d
  | _, _ => s

/-- LOAD (R171).
DESIGN CHOICE: notes/assumptions/46.md. -/
def execCoreLoad (k : Nat) (ce : Option Nat) (s : State) : Out := s.coreOp k opLOAD fun w c =>
  match coreAddr (c.reg (iRa w) + immW w).toNat with
  | none => s.coreFault k 2
  | some x =>
    if 8191 ≤ c.pc then s.coreFault k 3
    else
      let r := (s.loadError k x ce).coreRead k x
      r.2.coreAlu k w (r.2.core k) (BitVec.ofNat 64 r.1)

/-- A STORE that meets no contest lands; one that loses is repeated (R171, R241).
DESIGN CHOICE: notes/assumptions/20.md. -/
def State.storeTry (s : State) (k off : Nat) (v : Word) (lost : Bool) : State :=
  let c := s.core k
  if lost then (s.countLoss (storeBase (k / 16) + off) false).setCore k { c with hold := .store }
  else (s.writeStore (k / 16) off (leBytes 8 v.toNat)).setCore k (c.goto (c.pc + 1))

/-- STORE (R171, R172).
DEDUCED: notes/assumptions/33.md. -/
def execCoreStore (k : Nat) (lost : Bool) (s : State) : Out := s.coreOp k opSTORE fun w c =>
  match coreAddr (c.reg (iRa w) + immW w).toNat with
  | none => s.coreFault k 2
  | some x =>
    if 8191 ≤ c.pc then s.coreFault k 3
    else match x with
      | .store off => s.storeTry k off (c.reg (iRb w)) lost
      | .counter i =>
        let t := s.setCounter (k / 16) i ((c.reg (iRb w)).truncate 32)
        t.setCore k ((t.core k).goto (c.pc + 1))
      | _ => s.coreFault k 4

/-- R171: a repeat of a STORE that lost. -/
def execStoreRetry (k : Nat) (lost : Bool) (s : State) : Out :=
  let c := s.core k
  let w := c.word c.pc
  guarded (coreOk k) (
    if c.hold = .store ∧ s.domOn (k / 256) then s.storeTry k (c.reg (iRa w) + immW w).toNat (c.reg (iRb w)) lost else s)

/-- FENCE of a core (R170). -/
def execCoreFence (k : Nat) (s : State) : Out := s.coreOp k opFENCE fun _ c =>
  if 8191 ≤ c.pc then s.coreFault k 3
  else if s.descs.any fun d => d.iss == .core k then s.setCore k { c with st := .wait, hold := .fence }
  else s.setCore k (c.goto (c.pc + 1))

/-- SIGNAL of a core (R170, R174). -/
def execCoreSignal (k : Nat) (s : State) : Out := s.coreOp k opSIGNAL fun w c =>
  if 8191 ≤ c.pc then s.coreFault k 3
  else
    let t := s.addCounter (k / 16) (iC w) ((c.reg (iRa w) + immW w).truncate 32)
    t.setCore k ((t.core k).goto (c.pc + 1))

/-- HALT.
DEDUCED: notes/assumptions/93.md. -/
def execHalt (k : Nat) (s : State) : Out := s.coreOp k opHALT fun _ c =>
  ((s.setCore k { c with st := .halted, hold := .none }).touch [k / 256]).settleForces

end Sys2Proof.Machine
end

