-- ==== Sys2Proof/Machine/HostQ.lean ====
section
/-! DEFINITION. Host submission queues and completion rings (08): their registers, the fetching of entries, aborts, and the granting
of tracker entries to stalled issuers. -/

namespace Sys2Proof.Machine

/-! ### What BAR0 answers (R411, R418) -/

/-- Events that AER reports (Table 19.2), numbered by the model: refusals, the fatal reset, an ECRC failure, the failures of an SQ fetch, and
the link-level errors.
DESIGN CHOICE: notes/assumptions/91.md. -/
def aeUR : Nat := 0
def aeCA : Nat := 1
def aeINTERNAL : Nat := 4
def aeECRC : Nat := 5
def aeFETCH_UR : Nat := 8
def aeFETCH_CA : Nat := 9
def aeFETCH_POISONED : Nat := 10
def aeFETCH_TIMEOUT : Nat := 11
def aeRECEIVER : Nat := 16
def aeBAD_TLP : Nat := 17
def aeBAD_DLLP : Nat := 18
def aeREPLAY_ROLLOVER : Nat := 19
def aeREPLAY_TIMER : Nat := 20

/-- The events that the PCIe link itself brings. -/
def isLinkEvent (e : Nat) : Bool := e == aeECRC || decide (16 ≤ e ∧ e ≤ 20)

/-- Where the capabilities lie: Power Management (0x01) and PCI Express (0x10) in the first 256 bytes of the configuration space, AER and Device
Serial Number from 0x100 on, one of them there.
DESIGN CHOICE: notes/assumptions/123.md. -/
def capAt (id : Nat) : Nat := 0x40 + 4 * (Config.capBase id % 48)
def extSecond : Nat := 0x104 + 4 * (Config.extBase % 959)
def aerBase : Nat := if Config.aerFirst then 0x100 else extSecond
def serialBase : Nat := if Config.aerFirst then extSecond else 0x100

/-- Registers of the AER capability, from its start: Uncorrectable Error Status, Mask and Severity, Correctable Error Status and Mask.
PRESUMED: notes/assumptions/122.md. -/
def aerUncStatus : Nat := 4
def aerUncMask : Nat := 8
def aerUncSeverity : Nat := 0xC
def aerCorStatus : Nat := 0x10
def aerCorMask : Nat := 0x14

/-- Where a configuration offset lies in the AER capability, 0 when it does not. -/
def aerOffset (off : Nat) : Nat := if 0x100 ≤ off then off - aerBase else 0

/-- An advisory event that its severity makes fatal. -/
def aeFatal (e : Nat) : Nat := e + 64

/-- The bit of an event in the AER Uncorrectable Error Status register, by the PCIe specification; none for a correctable error.
PRESUMED: notes/assumptions/122.md. -/
def aerUncBit (e : Nat) : Option Nat :=
  let e := e % 64
  if e = aeUR ∨ e = aeFETCH_UR then some 20 else if e = aeCA ∨ e = aeFETCH_CA then some 15 else if e = aeFETCH_POISONED then some 12
  else if e = aeFETCH_TIMEOUT then some 14 else if e = aeINTERNAL then some 22 else if e = aeECRC then some 19 else none

/-- Refusals are advisory (Table 19.2), unless their severity is fatal. -/
def aerAdvisory (e : Nat) : Bool := e == aeUR || e == aeCA

/-- The bit of an event in the Correctable Error Status register.
PRESUMED: notes/assumptions/122.md. -/
def aerCorBit (e : Nat) : Option Nat :=
  if aerAdvisory e then some 13 else if e = aeRECEIVER then some 0 else if e = aeBAD_TLP then some 6 else if e = aeBAD_DLLP then some 7
  else if e = aeREPLAY_ROLLOVER then some 8 else if e = aeREPLAY_TIMER then some 12 else none

/-- Bits of the events of Table 19.2 in the uncorrectable and the correctable registers. -/
def aerUncEvents : Nat := 2 ^ 12 + 2 ^ 14 + 2 ^ 15 + 2 ^ 19 + 2 ^ 20 + 2 ^ 22
def aerCorEvents : Nat := 2 ^ 0 + 2 ^ 6 + 2 ^ 7 + 2 ^ 8 + 2 ^ 12 + 2 ^ 13

/-- A mask or severity register of AER: what the host wrote last; at reset no event of Table 19.2 is masked, and the severities are those of the
table.
DESIGN CHOICE: notes/assumptions/129.md. -/
def Hif.aerReg (h : Hif) (reg : Nat) : Nat := (SMap.find? h.config (aerBase + reg)).getD (if reg = aerUncSeverity then 2 ^ 22 else 0)

/-- The message that AER sends for an event under the mask and severity registers (R418): 0 ERR_COR, 1 ERR_NONFATAL, 2 ERR_FATAL.
PRESUMED: notes/assumptions/122.md. -/
def Hif.aerMessage (h : Hif) (e : Nat) : Option Nat :=
  match aerUncBit e with
  | some u =>
    if (h.aerReg aerUncMask).testBit u then none
    else if (h.aerReg aerUncSeverity).testBit u then some 2
    else if aerAdvisory e then (if (h.aerReg aerCorMask).testBit 13 then none else some 0)
    else some 1
  | none => match aerCorBit e with
    | some c => if (h.aerReg aerCorMask).testBit c then none else some 0
    | none => none

/-- The interface records an event and sends its message (R418). -/
def Hif.aerNote (h : Hif) (e : Nat) : Hif :=
  let fatal := aerAdvisory e && (aerUncBit e).any fun u => (h.aerReg aerUncSeverity).testBit u
  { h with
    aer := h.aer ++ [if fatal then aeFatal e else e]
    messages := h.messages ++ (h.aerMessage e).toList.map fun m => (m, h.posted.length) }

/-- A request that the host interface refuses. -/
def State.refuse (s : State) (r : Reply) (e : Nat) : State := { s with hif := { s.hif with reply := r }.aerNote e }

/-- The host interface answers: the module is started and its PCIe domain has woken (R394). -/
def State.hifOn (s : State) : Bool := s.up && s.domOn 46

/-- A BAR0 write: Unsupported Request in D3hot (R411), else its effect. -/
def State.bar0 (s t : State) : State := if !s.hifOn then s else if s.hif.d3hot then s.refuse .unsupported aeUR else t

/-- Opcodes of the test instructions (Table 19.18). -/
def irBYPASS : Nat := 0xFF
def irIDCODE : Nat := 0x01
def irSAMPLE : Nat := 0x02
def irEXTEST : Nat := 0x03
def irCLAMP : Nat := 0x04
def irHIGHZ : Nat := 0x05

/-- Test instructions that drive the balls from boundary cells: they return to BYPASS when MOD_RESET_N is released (R425). -/
def drivesBalls (ir : Nat) : Bool := ir == irEXTEST || ir == irCLAMP || ir == irHIGHZ

/-- MOD_RESET_N is released, or a start begins: the boundary cells release the balls (R425). -/
def Hif.releaseBalls (h : Hif) : Hif := { h with jtagIr := if drivesBalls h.jtagIr then irBYPASS else h.jtagIr }

/-! ### Registers (Tables 8.13 to 8.17, R180) -/

def State.sq (s : State) (q : Nat) : Sq := s.sqs.get {} q
def State.setSq (s : State) (q : Nat) (x : Sq) : State := { s with sqs := s.sqs.set {} q x }
def State.cq (s : State) (q : Nat) : Cq := s.cqs.get {} q
def State.setCq (s : State) (q : Nat) (x : Cq) : State := { s with cqs := s.cqs.set {} q x }

/-- SIZE_LOG2 as it reads back. -/
def sizeField (v : Nat) : Nat := if 4 ≤ v ∧ v ≤ 16 then v else 4

/-- DESIGN CHOICE: notes/assumptions/32.md. -/
def State.writeSqBase (s : State) (q : Nat) (w : Wr) : State :=
  let x := s.sq q
  if x.enable then s else s.setSq q { x with base := w.upd 12 52 (x.base / 4096) * 4096 }

/-- Ends every unstarted descriptor of queue `q`, and its held entry, with ABORTED (R185). -/
def State.abortSq (s : State) (q : Nat) : State :=
  let x := s.sq q
  let s1 := s.setSq q { x with aborting := true, held := none }
  let s2 := match x.held with
    | some (b, head, _) => s1.complete (.host q) none b stABORTED 0 (emptyResult b) false head
    | none => s1
  let ds := s2.descs.filter fun d => d.iss == .host q && d.work == .queued
  let s3 := ds.foldl (fun s d => s.setWork d.id (.done stABORTED 0 (emptyResult d.bytes))) s2
  (ds.foldl (fun s d => s.finish d stABORTED 0 (emptyResult d.bytes)) s3).endAbort (.host q)

/-- The queue starts empty; a doorbell of its earlier life is forgotten. -/
def State.startSq (s : State) (q : Nat) (y : Sq) : State :=
  let rest := s.hif.waiting.filter fun w => match w.req with
    | .doorbell n _ => n != q
    | .fetch n _ _ => n != q
    | _ => true
  { s with hif := { s.hif with waiting := rest } }.setSq q { y with enable := true, head := 0, tail := 0, acted := 0, waking := false }

/-- HQ_SQ_CFG. -/
def State.writeSqCfg (s : State) (q : Nat) (w : Wr) : State :=
  let x := s.sq q
  let s1 :=
    if x.enable then (if w.get? 0 1 = some 0 then s.setSq q { x with enable := false } else s)
    else
      let y := { x with loc := w.upd 1 1 (b2n x.loc) == 1, sizeLog2 := sizeField (w.upd 4 5 x.sizeLog2), cq := w.upd 16 6 x.cq }
      if w.sets 0 && (s.cq y.cq).enable then s.startSq q y else s.setSq q y
  if w.sets 22 then s1.abortSq q else s1

/-- A BAR2 write or a doorbell still waits. -/
def Waiting.holdsDoorbell : Waiting → Bool
  | .write _ _ _ _ => true
  | .doorbell _ _ => true
  | _ => false

/-- A doorbell is acted on, or waits for the BAR2 writes received before it (R417).
DEDUCED: notes/assumptions/80.md. -/
def State.ring (s : State) (q t : Nat) : State :=
  if s.hif.waiting.any fun w => w.req.holdsDoorbell then s.park (.doorbell q t)
  else s.setSq q { s.sq q with acted := t }

/-- HQ_SQ_PTR. -/
def State.writeSqPtr (s : State) (q : Nat) (w : Wr) : State :=
  let x := s.sq q
  let y := { x with fetchErr := x.fetchErr && !w.sets 32, tailErr := x.tailErr && !w.sets 33 }
  match w.get? 0 16 with
  | some t => if t < 2 ^ x.sizeLog2 then (s.setSq q { y with tail := t }).ring q t else s.setSq q { y with tailErr := true }
  | none => s.setSq q y

def State.writeCqBase (s : State) (q : Nat) (w : Wr) : State :=
  let x := s.cq q
  if x.enable then s else s.setCq q { x with base := w.upd 12 52 (x.base / 4096) * 4096 }

/-- Ring `c` may be disabled (R186). -/
def State.cqIdle (s : State) (c : Nat) : Bool :=
  (List.range 64).all (fun q => (s.sq q).cq != c || !(s.sq q).enable) && s.cqOwed c == 0

/-- HQ_CQ_CFG. -/
def State.writeCqCfg (s : State) (q : Nat) (w : Wr) : State :=
  let x0 := s.cq q
  let x := { x0 with disRefused := x0.disRefused && !w.sets 1 }
  if x.enable then
    s.setCq q (if w.get? 0 1 = some 0 then (if s.cqIdle q then { x with enable := false } else { x with disRefused := true }) else x)
  else
    let y := { x with sizeLog2 := sizeField (w.upd 4 5 x.sizeLog2) }
    s.setCq q (if w.sets 0 then { y with enable := true, head := 0, tail := 0, phase := true } else y)

/-- HQ_CQ_PTR (R184). -/
def State.writeCqPtr (s : State) (q : Nat) (w : Wr) : State :=
  let x := s.cq q
  let y := { x with headErr := x.headErr && !w.sets 33 }
  s.setCq q (match w.get? 0 16 with
    | some h => if h < 2 ^ x.sizeLog2 then { y with head := h } else { y with headErr := true }
    | none => y)

/-! ### Fetching (R181, R182, R187) -/

/-- Host descriptors accepted and not yet completed (R182). -/
def State.outstanding (s : State) : Nat := (s.descs.filter fun d => match d.iss with
  | .host _ => true
  | .core _ => false).length

/-- Queue `q` holds an entry that may be fetched now. Behind a FENCE nothing is fetched: no later descriptor is accepted (R165).
DEDUCED: notes/assumptions/25.md. -/
def State.fetchable (s : State) (q : Nat) : Bool :=
  let x := s.sq q
  x.enable && !x.fetchErr && !x.aborting && !x.waking && x.held.isNone && x.head != x.acted && !s.fenced (.host q) && s.cqFree x.cq

/-- The order of service: after the queue last served, or from queue 0. -/
def State.serveOrder (s : State) : List Nat :=
  let a := match s.lastServed with
    | some q => q + 1
    | none => 0
  (List.range 64).map fun i => (a + i) % 64

def State.nextQueue (s : State) : Option Nat := if s.outstanding < 4096 then s.serveOrder.find? s.fetchable else none

/-- A fetch fails: the queue stops at the entry. -/
def State.fetchFails (s : State) (q : Nat) : State := (s.setSq q { s.sq q with fetchErr := true }).attn atFETCH

/-- Offers a fetched entry; without room it is held at its queue. -/
def State.offerEntry (s : State) (q : Nat) (b : Bytes) (head : Nat) (m : OfferMeets) : State :=
  match s.offer { iss := .host q, bytes := b, lost := m.lost, ces := m.ces } head with
  | some t => t
  | none => s.setSq q { s.sq q with held := some (b, head, m) }

/-- HEAD advances past the entry, which is offered. -/
def State.takeEntry (s : State) (q : Nat) (b : Bytes) (m : OfferMeets) : State :=
  let x := s.sq q
  let h := (x.head + 1) % 2 ^ x.sizeLog2
  (s.setSq q { x with head := h }).offerEntry q b h m

/-- A fetch from device memory, which waits while that memory sleeps. -/
def State.fetchDevice (s : State) (q : Nat) (m : OfferMeets) : State :=
  let x := s.sq q
  let a := x.base + x.head * 64
  let ds := s.rangeDomains a 64
  if !s.populated a 64 || s.touchesRetired a 64 then s.fetchFails q
  else if !(s.asleep ds).isEmpty then (s.setSq q { x with waking := true }).putOff (.fetch q ds m) ds
  else ((s.touch ds).corrections m.ces a 64).takeEntry q (s.readBytes a 64) m

/-- The fetch of one entry from queue `q`; one from device memory may itself meet correctable errors. -/
def State.fetchFrom (s : State) (q : Nat) (h : HostData) (m : OfferMeets) : State :=
  let s1 := { s with lastServed := some q }
  let x := s.sq q
  if !x.loc then match h with
    | .entry b => s1.takeEntry q b m
    | .failed e => let t := s1.fetchFails q; { t with hif := t.hif.aerNote e }
  else s1.fetchDevice q m

/-! ### Meanings -/

/-- R181: the write covers TAIL. -/
def execSqDoorbell (q : Nat) (w : Wr) (s : State) : Out :=
  guarded (queueOk q) (s.bar0 (if w.has 0 16 then s.writeSqPtr q w else s))

/-- R182, R187. No entry is fetched before the first publication (R394). -/
def execSqEntryFetch (h : HostData) (m : OfferMeets) (s : State) : Out :=
  guarded h.wf (if !s.hifOn || s.hif.d3hot || decide (s.startPhase < 3) then s else match s.nextQueue with
    | some q => s.fetchFrom q h m
    | none => s)

/-- R187. -/
def execFetchErrClear (q : Nat) (s : State) : Out := guarded (queueOk q) (s.bar0 (s.writeSqPtr q { half := .hi, v := 0x100000000 }))

/-- R181: the write sets ENABLE. -/
def execSqEnable (q : Nat) (w : Wr) (s : State) : Out := guarded (queueOk q) (s.bar0 (if w.sets 0 then s.writeSqCfg q w else s))

/-- R185: the write clears ENABLE. -/
def execSqDisable (q : Nat) (w : Wr) (s : State) : Out :=
  guarded (queueOk q) (s.bar0 (if w.get? 0 1 = some 0 then s.writeSqCfg q w else s))

/-- R185: the write sets ABORT. -/
def execSqAbort (q : Nat) (w : Wr) (s : State) : Out := guarded (queueOk q) (s.bar0 (if w.sets 22 then s.writeSqCfg q w else s))

/-- R181. -/
def execCqEnable (q : Nat) (w : Wr) (s : State) : Out := guarded (queueOk q) (s.bar0 (if w.sets 0 then s.writeCqCfg q w else s))

/-- R186. -/
def execCqDisable (q : Nat) (w : Wr) (s : State) : Out :=
  guarded (queueOk q) (s.bar0 (if w.get? 0 1 = some 0 then s.writeCqCfg q w else s))

/-- R184: the write covers HEAD. -/
def execCqHeadWrite (q : Nat) (w : Wr) (s : State) : Out :=
  guarded (queueOk q) (s.bar0 (if w.has 0 16 then s.writeCqPtr q w else s))

/-! ### Tracker entries (R22, R23, R182) -/

/-- The held entry of queue `q` waits for a unit of cluster `n`, or for one that belongs to no cluster. -/
def State.heldFor (s : State) (n q : Nat) : Bool := match (s.sq q).held with
  | some (b, _, _) => dTarget b == n || dTarget b == 0x3FF
  | none => false

/-- Offers the held entry of a queue again. -/
def State.offerHeld (s : State) (q : Nat) : Option State := match (s.sq q).held with
  | some (b, head, m) => (s.setSq q { s.sq q with held := none }).offer { iss := .host q, bytes := b, lost := m.lost, ces := m.ces } head
  | none => none

/-- What requester `r` of cluster `n` does when an entry is offered to it: a stalled core repeats its ISSUE, the host interface
offers a held entry. None when it still finds no room.
DESIGN CHOICE: notes/assumptions/34.md. -/
def State.tryGrant (s : State) (n r : Nat) : Option State :=
  if r < 16 then
    let k := 16 * n + r
    match (s.core k).hold with
    | .issue m =>
      let t := s.issueFrom k m
      if (t.core k).hold = .issue m then none else some t
    | _ => none
  else s.serveOrder.findSome? fun q => if s.heldFor n q then s.offerHeld q else none

/-- R22, R23. -/
def execTrackerEntryGrant (n : Nat) (s : State) : Out :=
  guarded (clusterOk n) (((s.grantOrder n).findSome? (s.tryGrant n)).getD s)

/-! ### What the queue registers read (Tables 8.14 to 8.17) -/

/-- HQ_ registers (Tables 8.14 to 8.17).
DEDUCED: notes/assumptions/31.md. -/
def Sq.cfgValue (x : Sq) : Nat := b2n x.enable + b2n x.loc * 2 + x.sizeLog2 % 32 * 2 ^ 4 + x.cq % 64 * 2 ^ 16
def Sq.ptrValue (x : Sq) : Nat :=
  x.tail % 65536 + x.head % 65536 * 2 ^ 16 + b2n x.fetchErr * 2 ^ 32 + b2n x.tailErr * 2 ^ 33 +
    b2n (!x.enable || x.fetchErr || x.aborting) * 2 ^ 34
def Cq.cfgValue (x : Cq) : Nat := b2n x.enable + b2n x.disRefused * 2 + x.sizeLog2 % 32 * 2 ^ 4
def Cq.ptrValue (x : Cq) : Nat := x.head % 65536 + x.tail % 65536 * 2 ^ 16 + b2n x.phase * 2 ^ 32 + b2n x.headErr * 2 ^ 33

end Sys2Proof.Machine
end

