-- ==== Sys2Proof/Machine/Resets.lean ====
section
/-! DEFINITION. Module resets (16, 17): the completions that a reset still writes, what it keeps, and the fatal reset. -/

namespace Sys2Proof.Machine

/-- LAST_RESET codes (Table 16.7). -/
def lrPOWER_UP : Nat := 0
def lrPERST : Nat := 1
def lrMOD_RESET : Nat := 2
def lrFATAL : Nat := 3
def lrSHUTDOWN : Nat := 4

/-! ### FATAL_PENDING completions (R182, R365) -/

/-- The completion of a host descriptor that a reset leaves unfinished. -/
def pendingRecord (t : Nat) (q : Nat) (b : Bytes) (woke : Bool) (head flags : Nat) : Record :=
  { status := stFATAL_PENDING, flags := flags, woke := woke, typ := dType b, tag := dTag b, sq := q, sqHead := head, timestamp := t,
    result := 0 }

/-- Completions that the host interface owes to ring `c`: accepted descriptors in order of acceptance, then held entries. -/
def State.owedTo (s : State) (c t : Nat) : List Record :=
  (s.descs.filterMap fun d => match d.iss with
    | .host q => if (s.sq q).cq = c then some (pendingRecord t q d.bytes d.woke d.sqHead (s.flagsSoFar d)) else none
    | .core _ => none) ++
  (List.range 64).filterMap fun q => match (s.sq q).held with
    | some (b, head, _) => if (s.sq q).cq = c then some (pendingRecord t q b false head 0) else none
    | none => none

/-- Writes them all, in CQ order, `dt` ticks after the reset began: from tick 1 onward and before tick 500. A function in D3hot
writes none (R411).
DEDUCED: notes/assumptions/68.md. -/
def State.writeFatalPending (s : State) (dt : Nat) : State :=
  if s.hif.d3hot then s
  else
    let t := s.tick + min 499 (max 1 dt)
    (List.range 64).foldl (fun s c => (s.owedTo c t).foldl (fun s r => s.postRecord c r) s) s

/-! ### What a reset keeps (Table 16.4) -/

/-! ### The fault log in flash (R371, Tables 16.5 and 18.1) -/

/-- FAULT_ID: bytes 0x00 to 0x0F. -/
def faultIdBytes (f : FaultId) : Bytes := leBytes 2 f.kind ++ leBytes 2 f.subject ++ leBytes 2 f.unit ++ leBytes 2 0 ++ leBytes 8 f.location

def faultIdOf (b : Bytes) : FaultId := { kind := field b 0 2, subject := field b 2 2, unit := field b 4 2, location := field b 8 8 }

/-- The 64 bytes of a record. -/
def FaultRec.bytes (r : FaultRec) : Bytes :=
  let b := faultIdBytes r.fid ++ leBytes 1 r.role ++ leBytes 1 r.severity ++ leBytes 2 r.phys ++ leBytes 4 r.count ++ leBytes 8 r.tick ++
    leBytes 2 r.origin ++ leBytes 2 r.reporter ++ leBytes 4 r.bootCount ++ leBytes 4 r.seq ++ leBytes 4 0 ++ leBytes 8 r.detail.toNat ++ leBytes 4 0
  b ++ leBytes 4 (crc32c b)

/-- The record that 64 bytes hold, none where their CRC fails. -/
def FaultRec.parse (b : Bytes) : Option FaultRec :=
  if b.length = 64 ∧ crc32c (b.take 60) = field b 0x3C 4 then
    some { fid := faultIdOf b, role := field b 0x10 1, severity := field b 0x11 1, phys := field b 0x12 2, count := field b 0x14 4
           tick := field b 0x18 8, origin := field b 0x20 2, reporter := field b 0x22 2, bootCount := field b 0x24 4, seq := field b 0x28 4
           detail := BitVec.ofNat 64 (field b 0x30 8) }
  else none

/-- The place in the ring of 262,144 of the k-th record kept. -/
def Flash.placeOf (f : Flash) (k : Nat) : Nat := (f.plogCount - f.plog.length + k) % 262144

/-- The records that the MP persisted, oldest first, as their places read now: none where one is unreadable. -/
def Flash.entries (f : Flash) : List (Option FaultRec) :=
  ((List.range f.plog.length).zip f.plog).map fun e => match SMap.find? f.plogRaw (f.placeOf e.1) with
    | some b => FaultRec.parse b
    | none => e.2

/-- Every record that can be read in the fault log area, those in places which the MP has not written first. -/
def Flash.records (f : Flash) : List FaultRec :=
  let mine := (List.range f.plog.length).map f.placeOf
  ((f.plogRaw.filter fun x => !mine.contains x.1).filterMap fun x => FaultRec.parse x.2) ++ f.entries.filterMap id

/-- Persisted record with ring index `i`, none where the ring holds none (R371). -/
def Flash.plogAt (f : Flash) (i : Nat) : Option (Option FaultRec) :=
  let first := f.plogCount - f.plog.length
  f.plog[(i + 262144 - first % 262144) % 262144]?

/-- The 64 bytes at a place of the ring: all ones in an erased one, free bytes in a page that was cut short. -/
def Flash.placeBytes (f : Flash) (i : Nat) : Bytes := match SMap.find? f.plogRaw i with
  | some b => b
  | none => match f.plogAt i with
    | some (some r) => r.bytes
    | some none => (List.range 8).flatMap fun j => leBytes 8 (Config.cutRecord i j).toNat
    | none => List.replicate 64 0xFF

/-- Room in the flash ring of 262,144 records: the write of a block's first record erases that block (R371). -/
def Flash.room (f : Flash) : List (Option FaultRec) :=
  if f.plogCount % 1024 = 0 then f.plog.drop (f.plog.length + 1024 - 262144) else f.plog

/-- The next record of the ring, none for one that cannot be read; what a programmer wrote there, or in the block erased for it, is gone. -/
def Flash.append (f : Flash) (r : Option FaultRec) : Flash :=
  let i := f.plogCount % 262144
  let gone (k : Nat) : Bool := k == i || (f.plogCount % 1024 == 0 && decide (i ≤ k ∧ k < i + 1024))
  { f with plog := f.room ++ [r], plogCount := f.plogCount + 1, plogRaw := f.plogRaw.filter fun x => !gone x.1 }

/-- One record into the flash ring of 262,144. -/
def Flash.persist (f : Flash) (r : FaultRec) : Flash := f.append (some r)

/-- A persistence run that a reset cuts leaves the record under way unreadable (R371). -/
def Flash.cutPage (f : Flash) (busy : Bool) : Flash := if busy then f.append none else f

/-- Records of the log whose window has closed, in SEQ order. `all` takes the open window too (at a start). -/
def State.closedRecords (s : State) (all : Bool) : List FaultRec :=
  ((s.log.slots.map (fun e => e.2)).filter fun r => all || decide (windowOf r.tick < windowOf s.tick)).mergeSort fun a b => decide (a.seq ≤ b.seq)

/-- Records that persistence has still to write, in SEQ order: those of closed windows, and at a start those that were in the log then. -/
def State.toPersist (s : State) : List FaultRec :=
  (s.closedRecords true).filter fun r => decide (s.log.persistSeq < r.seq) && (decide (windowOf r.tick < windowOf s.tick) || decide (r.seq ≤ s.log.runTo))

/-- Persistence that is due while non-volatile writes are held is put off, in its turn among the other writes put off (R381, R405). -/
def State.deferPersist (s : State) : State := match s.toPersist.getLast? with
  | some r => if s.deferred.contains (.persist r.seq) then s else { s with deferred := s.deferred ++ [.persist r.seq] }
  | none => s

/-- Non-volatile writes become held: what a persistence run has still to write is put off, but for the page under way. -/
def State.deferRun (s : State) : State := if s.log.persistBusy then s.deferPersist else s

/-- The module with every domain but the flannel domain off. The flannel domain keeps time, the retained log, its supply
thresholds, its pins, ports and the hand-over block; flash keeps what it holds. -/
def State.powerDown (s : State) : State :=
  { State.reset with
    pending := s.pending, draws := s.draws, dramGen := s.dramGen, nextId := s.nextId, nextTxn := s.nextTxn
    vin := s.vin, nv := s.nv, lowSag := s.lowSag, lowTherm := s.lowTherm, thermAlert := s.thermAlert
    powerRun := s.powerRun, calmRun := s.calmRun, refRun := s.refRun, probe := { clkSel := s.probe.clkSel, boardMt := s.probe.boardMt }
    refclkLost := s.refclkLost, onOsc := s.onOsc, perstN := s.perstN, modResetN := s.modResetN, vinPg := s.vinPg
    pinSample := s.pinSample, xspiOwn := s.xspiOwn, flashHeld := s.flashHeld, tick := s.tick, resetEnds := s.resetEnds, resetNode := s.resetNode, resetMemory := s.resetMemory, frac := s.frac, bootCount := s.bootCount
    log := s.log, handover := s.handover, flash := s.flash.cutPage s.log.persistBusy
    fw := { slots := s.fw.slots, dirs := s.fw.dirs, dirAt := s.fw.dirAt, dirSeq := s.fw.dirSeq, active := s.fw.active, staged := s.fw.staged }
    hif := { reply := s.hif.reply, i3c := s.hif.i3c, test := s.hif.test, i3cDyn := s.hif.i3cDyn, jtagIr := s.hif.jtagIr
             boundary := s.hif.boundary, posted := s.hif.posted, aer := s.hif.aer, aerClears := s.hif.aerClears
             messages := s.hif.messages, config := s.hif.config.filter fun e => [aerUncMask, aerUncSeverity, aerCorMask].contains (aerOffset e.1) } }

/-- LAST_RESET when a reset acts: of causes in one tick a fatal reset prevails, then the lower code (R367, R392).
DEDUCED: notes/assumptions/68.md. -/
def State.resetCause (s : State) (last : Nat) : Nat :=
  if s.resetEnds = s.tick + 500 then
    (if last = lrFATAL ∨ s.log.lastReset = lrFATAL then lrFATAL else min last s.log.lastReset)
  else last

/-- A module reset: its completions, then the power-down and LAST_RESET; the sequence of Table 16.3 takes 500 ticks. A module that
is not started has nothing to complete or to power down.
DEDUCED: notes/assumptions/68.md. -/
def State.moduleReset (s : State) (last dt : Nat) (completions : Bool) : State :=
  if !s.flannelOn then s
  else
    let s1 := if s.up then (if completions then s.writeFatalPending dt else s).powerDown else s
    { s1 with
      resetEnds := s.tick + 500
      resetNode := if s.up then s.node else s.resetNode
      resetMemory := if s.up then s.dmk.inForce.bind (·.memory) else s.resetMemory
      log := { s1.log with lastReset := s.resetCause last, persistBusy := false } }

/-- A fatal reset (R365): ERR_FATAL follows the completions, and the hand-over block is invalid (R366). -/
def State.fatalReset (s : State) (dt : Nat) : State :=
  let s1 := s.moduleReset lrFATAL dt true
  if s.up then { s1 with handover := none, hif := s1.hif.aerNote aeINTERNAL } else s1

/-! ### Meanings: resets (R392, R410) -/

/-- R410: acts as an assertion of PERST_N. -/
def execHotReset (dt : Nat) (s : State) : Out := .next (s.moduleReset lrPERST dt false)

/-- R392: an effective assertion of PERST_N. -/
def execPerstNAssert (dt : Nat) (s : State) : Out := 
  .next { s.moduleReset lrPERST dt false with perstN := false, pinSample := (false, s.pinSample.2) }

/-- R392. With XSPI_OWN high the module then leaves the flash bus to the programmer (R438). -/
def execModResetNAssert (dt : Nat) (s : State) : Out :=
  .next { s.moduleReset lrMOD_RESET dt true with
    modResetN := false, flashHeld := s.xspiOwn, pinSample := (s.pinSample.1, false, s.pinSample.2.2) }

/-- R392. -/
def execVinPgDeassert (dt : Nat) (s : State) : Out := 
  .next { s.moduleReset lrSHUTDOWN dt true with vinPg := false, pinSample := (s.pinSample.1, s.pinSample.2.1, false) }

/-! ### Meanings: the flannel domain (R368, R383, R387) -/

/-- The module without supply: flash and the input pins are all that is left. -/
def State.unpowered (s : State) : State :=
  { State.reset with
    pending := s.pending, draws := s.draws, dramGen := s.dramGen, nextId := s.nextId, nextTxn := s.nextTxn, flannelOn := false
    nv := true, lowSag := true, perstN := s.perstN, modResetN := s.modResetN, vinPg := s.vinPg
    pinSample := (s.perstN, s.modResetN, s.vinPg), xspiOwn := s.xspiOwn, flash := s.flash
    fw := { slots := s.fw.slots, dirs := s.fw.dirs, dirAt := s.fw.dirAt, dirSeq := s.fw.dirSeq, active := s.fw.active, staged := s.fw.staged }
    hif := { posted := s.hif.posted } }

/-- R383: VIN below 36 V. -/
def execFlannelPowerLoss (s : State) : Out := .next s.unpowered

/-- R387: TMR_TICK starts at 0, the flash bus stays with a programmer that has it (R438), the log is empty (R368) and LAST_RESET is 0. -/
def execFlannelPowerUp (s : State) : Out := event (!s.flannelOn) s { s.unpowered with flannelOn := true, flashHeld := !s.modResetN && s.xspiOwn }

end Sys2Proof.Machine
end

