-- ==== Sys2Proof/Machine/Mp.lean ====
section
/-! DEFINITION. Operations that the MP runs for the host (03, 08, 12): Damask loads and slots, sequencer programs, retired pages. -/

namespace Sys2Proof.Machine

/-! ### The MP -/

/-- The MP takes operations: its firmware runs, no warm restart is under way (R405) and the table has been published.
DEDUCED: notes/assumptions/64.md. -/
def State.mpTakes (s : State) : Bool := s.mpRunning && !s.fw.restarting && decide (3 ≤ s.startPhase)

/-- The domains of a range that must wake before it is read. -/
def State.wakeFor (s : State) (a len : Nat) : List Nat := s.asleep (s.rangeDomains a len)

/-! ### Damask operations (R66 to R75) -/

/-- GBL_DMK_STATUS BUSY: an operation runs, or the boot load is due (R70). -/
def State.dmkBusy (s : State) : Bool := s.dmk.busy || (s.startPhase == 3 && s.flash.bootSet)

/-- The operation ends: RESULT, SECTION and OFFSET describe it (R67), and DONE is set (R419). -/
def State.dmkEnd (s : State) (f : Fail) : State :=
  { s with dmk := { s.dmk with
      busy := false, done := true, clearing := false, waking := none, copy := none, clears := [], result := f.code, section_ := f.sec, offset := f.off } }.attn atOP_DONE

def dmkOk : Fail := ⟨dkOK, 0, 0⟩

/-- A source failure or a code of a non-volatile operation, with SECTION and OFFSET 0 (R75). -/
def failOf (code : Nat) : Fail := ⟨code, 0, 0⟩

/-- Domains of the memory that a load writes to zero (R59). -/
def State.clearDomains (s : State) (c : LoadCase) (im : Image) : List Nat :=
  if c = .live ∨ c = .reshard then []
  else ((clearRanges (s.dmk.inForce.bind (·.memory)) im.memory).flatMap fun r => s.rangeDomains r.1 r.2).eraseDups

/-- Domains of the SERGE region whose structures a load creates (R205). -/
def State.createDomains (s : State) (c : LoadCase) (im : Image) : List Nat :=
  let place (i : Image) : Option (List FactorRec) × Option Region :=
    (i.serge.map (·.factors), i.memory.bind fun m => m.regions.find? fun r => r.kind == rkSERGE)
  if c = .live ∨ c = .reshard ∨ s.dmk.inForce.map place = some (place im) then []
  else match place im with
    | (some (_ :: _), some r) => s.rangeDomains r.base r.size
    | _ => []

/-- Validates a copied image and applies it (R67, R68, R75). A load that clears memory or creates factor structures waits while that memory serves no
access (R251, R260, R263), and is reported once the clearing is done.
DEDUCED: notes/assumptions/57.md. -/
def State.loadImage (s : State) (b : Bytes) (held : Bool) : State :=
  match headerFails b held with
  | f :: _ => s.dmkEnd f
  | [] => match s.checkImage b with
    | .error f => s.dmkEnd f
    | .ok (c, new, im) =>
      let cs := s.clearDomains c im
      let ds := (cs ++ s.createDomains c im).eraseDups
      if !(s.asleep ds).isEmpty then { s with dmk := { s.dmk with busy := true, copy := some (b, held, ds) } }.putOff (.mp 0 ds) ds
      else
        let r := (s.touch ds).applyLoad c new im
        if r.2.isEmpty then r.1.dmkEnd dmkOk
        else { r.1 with dmk := { r.1.dmk with busy := true, clearing := true, clears := cs } }

/-- The bytes of an image in memory, and whether the memory holds all of it with no retired page (step 6). -/
def State.imageAt (s : State) (a : Nat) : Bytes × Bool :=
  let h := s.readBytes a 256
  let n := imLength h
  let held := decide (n ≤ 0x1000000) && s.populated a n && !s.touchesRetired a n
  (if held then s.readBytes a (max n 256) else h, held)

/-- Bytes of a slot, at least `n` of them: what is written, then erased bytes, which read 0xFF. -/
def erasedTail (b : Bytes) (n : Nat) : Bytes := b ++ List.replicate (n - b.length) 0xFF

/-- The image that a Damask slot of 16 MiB holds, from the bytes written to it, and whether the slot holds all of it (step 6). -/
def slotImage (b : Bytes) : Bytes × Bool :=
  let h := erasedTail b 256
  if imLength h ≤ 0x1000000 then (erasedTail h (imLength h), true) else (h, false)

/-- The bytes of a slot are a valid image, as far as STORE looks: through step 9 (R69). -/
def validImage (b : Bytes) : Bool :=
  (headerFails (slotImage b).1 (slotImage b).2).isEmpty && match walkSections (slotImage b).1 with
    | .ok _ => true
    | .error _ => false

/-- A Damask slot holds a valid image. -/
def Flash.slotValid (f : Flash) (slot : Nat) : Bool := match f.damask.get none slot with
  | some b => validImage b
  | none => false

/-- STORE: steps 1 to 9, then the slot (R69). One that ends with FLASH_VERIFY leaves the slot without a valid image, as sag does.
DEDUCED: notes/assumptions/65.md. -/
def State.storeImage (s : State) (slot : Nat) (b : Bytes) (held : Bool) (nv : NvEnd) : State :=
  let put (v : Option Bytes) : State := { s with flash := { s.flash with damask := s.flash.damask.set none slot v } }
  match headerFails b held with
  | f :: _ => s.dmkEnd f
  | [] => match walkSections b with
    | .error f => s.dmkEnd f
    | .ok _ =>
      if nv.sag then (put none).dmkEnd (failOf dkPOWER_INHIBIT)
      else if !nv.verifyOk then (put none).dmkEnd (failOf dkFLASH_VERIFY)
      else (put (some (b.take (imLength b)))).dmkEnd dmkOk

/-- Runs a LOAD (OP 0) or a STORE (OP 1) from memory at `a`; it waits while the memory it reads sleeps (R188). -/
def State.runFromMemory (s : State) (op slot a : Nat) (nv : NvEnd) : State :=
  if !s.populated a 256 || s.touchesRetired a 256 then s.dmkEnd (failOf dkADDRESS)
  else
    let sleep1 := s.wakeFor a 256
    let n := imLength (s.readBytes a 256)
    let ds := s.rangeDomains a (if sleep1.isEmpty ∧ n ≤ 0x1000000 then max 256 n else 256)
    if !(s.asleep ds).isEmpty then { s with dmk := { s.dmk with busy := true, waking := some (op, slot, a, nv) } }.putOff (.mp 0 ds) ds
    else
      let t := (s.touch ds).corrections nv.ces a (max 256 n)
      let i := t.imageAt a
      if op = 0 then t.loadImage i.1 i.2 else t.storeImage slot i.1 i.2 nv

/-- LOAD from a flash slot. -/
def State.loadSlot (s : State) (slot : Nat) : State :=
  match s.flash.damask.get none slot with
  | none => s.dmkEnd (failOf dkSLOT_EMPTY)
  | some b => s.loadImage (slotImage b).1 (slotImage b).2

/-- ERASE: an ERASE of the boot slot clears BOOT_SET. One that sag interrupts leaves the slot without a valid image and the boot setting as it
was (R381: no further write starts).
DEDUCED: notes/assumptions/65.md. -/
def State.eraseSlot (s : State) (slot : Nat) (nv : NvEnd) : State :=
  if s.nv then s.dmkEnd (failOf dkPOWER_INHIBIT)
  else
    let f := s.flash
    let empty := f.damask.set none slot none
    if nv.sag then { s with flash := { f with damask := empty } }.dmkEnd (failOf dkPOWER_INHIBIT)
    else { s with flash := { f with damask := empty, bootSet := f.bootSet && f.bootSlot != slot } }.dmkEnd dmkOk

/-- SET_BOOT, to a slot with a valid image (R69). One that sag interrupts changes nothing.
DEDUCED: notes/assumptions/65.md. -/
def State.setBoot (s : State) (slot : Nat) (nv : NvEnd) : State :=
  if s.nv then s.dmkEnd (failOf dkPOWER_INHIBIT)
  else if !s.flash.slotValid slot then s.dmkEnd (failOf dkSLOT_EMPTY)
  else if nv.sag then s.dmkEnd (failOf dkPOWER_INHIBIT)
  else { s with flash := { s.flash with bootSlot := slot, bootSet := true } }.dmkEnd dmkOk

/-- The operation that GBL_DMK_CTRL names.
DEDUCED: notes/assumptions/64.md, notes/assumptions/65.md. -/
def State.runDamask (s : State) (nv : NvEnd) : State :=
  let d := s.dmk
  match d.op with
  | 0 => if d.source = 0 then s.runFromMemory 0 d.slot d.src nv else s.loadSlot d.slot
  | 1 => if s.nv then s.dmkEnd (failOf dkPOWER_INHIBIT) else s.runFromMemory 1 d.slot d.src nv
  | 2 => s.eraseSlot d.slot nv
  | _ => s.setBoot d.slot nv

/-- A write of GBL_DMK_CTRL (Table 3.13). -/
def State.writeDmkCtrl (s : State) (w : Wr) (nv : NvEnd) : State :=
  let d := s.dmk
  let s1 := { s with dmk := { d with op := w.upd 1 2 d.op, source := w.upd 3 1 d.source, slot := w.upd 4 2 d.slot } }
  if !w.sets 0 then s1
  else if s.dmkBusy || !s.mpTakes then { s1 with dmk := { s1.dmk with refused := true } }
  else (s1.runDamask nv).advance

/-- The write starts an operation `op`. -/
def dmkGo (w : Wr) (op : Nat) : Bool := w.sets 0 && w.get? 1 2 == some op

/-- R68. -/
def execDmkLoad (w : Wr) (s : State) (nv : NvEnd := {}) : Out := .next (s.bar0 (if dmkGo w 0 then s.writeDmkCtrl w nv else s))

/-- R69. -/
def execDmkStore (w : Wr) (nv : NvEnd) (s : State) : Out := .next (s.bar0 (if dmkGo w 1 then s.writeDmkCtrl w nv else s))

/-- R69. -/
def execDmkErase (w : Wr) (s : State) (nv : NvEnd := {}) : Out := .next (s.bar0 (if dmkGo w 2 then s.writeDmkCtrl w nv else s))

/-- R69. -/
def execDmkSetBoot (w : Wr) (s : State) (nv : NvEnd := {}) : Out := .next (s.bar0 (if dmkGo w 3 then s.writeDmkCtrl w nv else s))

/-- The boot load has ended: START_PHASE becomes 4 (R70). -/
def State.bootEnds (s : State) : State := if s.startPhase = 3 ∧ s.dmk.busy = false then { s with startPhase := 4 } else s

/-- R59: the clearing ends; the load is reported, the envelope of an image loaded whole is recorded (R66), and the memory cleared is idle from
now (R385, R386).
DEDUCED: notes/assumptions/57.md. -/
def State.clearDone (s : State) : State :=
  let env := match s.dmk.inForce with
    | some i => i.power.getD 1
    | none => 1
  (((s.touch s.dmk.clears).recordEnv env).dmkEnd dmkOk).bootEnds.settleForces

/-- R59. -/
def execDamaskClearDone (s : State) : Out := event s.dmk.clearing s s.clearDone.advance

/-- R70: the load of the boot slot, or none when no boot slot is set. -/
def State.bootLoad (s : State) : State :=
  (if s.flash.bootSet then s.loadSlot s.flash.bootSlot else s).bootEnds

/-- R70. -/
def execBootDamaskLoad (s : State) : Out :=
  event (s.startPhase == 3 && s.mpRunning && !s.fw.restarting && !s.dmk.busy) s s.bootLoad.advance

/-! ### Sequencer programs (R176, R177) -/

/-- The operation ends. -/
def State.seqEnd (s : State) (st : Nat) : State :=
  { s with seq := { s.seq with busy := false, done := true, waiting := none, ces := [], result := st } }.attn atOP_DONE

/-- The cores that a mask names. -/
def maskedCores (n mask : Nat) : List Nat := ((List.range 16).filter fun i => mask.testBit i).map (16 * n + ·)

def CoreSt.live : CoreSt → Bool
  | .run => true
  | .wait => true
  | _ => false

/-- The first condition of R177 that holds. -/
def State.seqCheck (s : State) (op n mask count a : Nat) : Nat :=
  let fields := match op with
    | 0 => decide (1 ≤ count ∧ count ≤ 8192) && s.inOneWindow a (8 * count) && !s.touchesRetired a (8 * count)
    | 1 => decide (count ≤ 8191)
    | 2 => true
    | _ => false
  if !fields then stBAD_DESCRIPTOR
  else if !s.clusterPresent n || s.groups.any (fun g => g.clusters.testBit n) then stUNSUPPORTED
  else if op ≠ 2 ∧ (maskedCores n mask).any (fun k => (s.core k).st.live) then stABORTED
  else stOK

/-- LOAD: instructions into program memory from index 0. -/
def Core.load (c : Core) (ws : List Word) : Core :=
  { c with prog := ((List.range ws.length).zip ws).foldl (fun m x => m.set 0 x.1 x.2) c.prog }

/-- START. -/
def Core.start (c : Core) (pc : Nat) : Core := { prog := c.prog, pc := pc, st := .run }

/-- STOP: a core in RUN or WAIT halts where it is; an operation held there is not made. -/
def Core.stop (c : Core) : Core := if c.st.live then { c with st := .halted, hold := .none } else c

/-- A STORE that is being repeated lands before its core stops (R176: "after its current operation").
DEDUCED: notes/assumptions/67.md. -/
def State.stopCore (s : State) (k : Nat) : State :=
  let c := s.core k
  let w := c.word c.pc
  let s1 := if c.hold = .store then s.storeTry k (c.reg (iRa w) + immW w).toNat (c.reg (iRb w)) false else s
  s1.setCore k (s1.core k).stop

/-- The effect of an operation on the named cores. -/
def State.seqEffect (s : State) (op n mask count a : Nat) : State :=
  let ks := maskedCores n mask
  match op with
  | 0 =>
    let ws := (chunks 8 (s.readBytes a (8 * count))).map fun b => BitVec.ofNat 64 (leNat b)
    ks.foldl (fun s k => s.setCore k ((s.core k).load ws)) s
  | 1 => ks.foldl (fun s k => s.setCore k ((s.core k).start count)) s
  | _ => (ks.foldl (fun s k => s.stopCore k) s).touch [n / 16]

/-- Runs an operation, or waits for the half and the source memory to wake.
DEDUCED: notes/assumptions/65.md. -/
def State.runSeq (s : State) (op n mask count a : Nat) (ces : List (Nat × Nat) := []) : State :=
  let st := s.seqCheck op n mask count a
  if st ≠ stOK then s.seqEnd st
  else
    let ds := n / 16 :: (if op = 0 then s.rangeDomains a (8 * count) else [])
    if (s.asleep ds).isEmpty then (((s.touch ds).corrections (if op = 0 then ces else []) a (8 * count)).seqEffect op n mask count a).seqEnd stOK
    else { s with seq := { s.seq with busy := true, waiting := some (op, n, mask, count, a), ces := ces } }.putOff (.mp 1 ds) ds

/-- A write of GBL_SEQ_CTRL (Table 8.11).
DEDUCED: notes/assumptions/64.md. -/
def State.writeSeqCtrl (s : State) (w : Wr) (ces : List (Nat × Nat) := []) : State :=
  let q := s.seq
  let q1 : SeqCtl :=
    { q with
      op := w.upd 1 2 q.op, cluster := w.upd 8 9 q.cluster, mask := w.upd 32 16 q.mask, count := w.upd 48 14 q.count
      done := q.done && !w.sets 4, refused := q.refused && !w.sets 5 }
  let s1 := { s with seq := q1 }
  if !w.sets 0 then s1
  else if q.busy || !s.mpTakes then { s1 with seq := { q1 with refused := true } }
  else ((s1.runSeq q1.op q1.cluster q1.mask q1.count q1.src ces).settleForces).advance

/-- The write starts an operation `op`. -/
def seqGo (w : Wr) (op : Nat) : Bool := w.sets 0 && w.get? 1 2 == some op

/-- R176, R177. -/
def execSeqLoad (w : Wr) (s : State) (ces : List (Nat × Nat) := []) : Out := .next (s.bar0 (if seqGo w 0 then s.writeSeqCtrl w ces else s))

/-- R176, R177. -/
def execSeqStart (w : Wr) (s : State) : Out := .next (s.bar0 (if seqGo w 1 then s.writeSeqCtrl w else s))

/-- R176, R177. -/
def execSeqStop (w : Wr) (s : State) : Out := .next (s.bar0 (if seqGo w 2 then s.writeSeqCtrl w else s))

/-- No GATE is accepted and every bucket here is OPEN with COUNT 0. -/
def State.stepFree (s : State) : Bool :=
  s.gateDesc.isNone && s.bucketsHere.all fun b => (s.bkt b).st == .opened && (s.bkt b).count == 0

/-! ### Retired pages (R264 to R267) -/

def rtOK : Nat := 0x00
def rtOUT_OF_RANGE : Nat := 0x01
def rtNO_CHANGE : Nat := 0x02
def rtMAP_FULL : Nat := 0x03
def rtFLASH_VERIFY : Nat := 0x04
def rtPOWER_INHIBIT : Nat := 0x0C

/-- A page of a near-tier, board-tier or far-tier window, wholly populated. -/
def State.tierPage (s : State) (p : Nat) : Bool := (tierOf p).isSome && s.inOneWindow p 0x10000

/-- Keeps the map in ascending order (Table 2.7). -/
def insertPage (p : Nat) : List Nat → List Nat
  | [] => [p]
  | q :: r => if p < q then p :: q :: r else q :: insertPage p r

/-- The map of retired pages is written into the older copy, and is in force. -/
def Flash.writeMap (f : Flash) (ps : List Nat) : Flash :=
  let n := ((f.maps.getD f.mapAt none).map (·.1)).getD 0
  { f with retired := ps, maps := f.maps.set (1 - f.mapAt) (some (n + 1, ps)), mapAt := 1 - f.mapAt }

/-- A write of the map that sag cuts, or that does not read back, leaves the older copy without a valid map; the other remains (R267). -/
def Flash.spoilMap (f : Flash) : Flash := { f with maps := f.maps.set (1 - f.mapAt) none }

/-- The valid copy written last, with its place. -/
def Flash.newestMap (f : Flash) : Option (Nat × Nat × List Nat) := match f.maps.getD 0 none, f.maps.getD 1 none with
  | some a, some b => if a.1 < b.1 then some (1, b) else some (0, a)
  | some a, none => some (0, a)
  | none, some b => some (1, b)
  | none, none => none

/-- The MP reads the map at a start. Without a valid copy no page is retired.
DESIGN CHOICE: notes/assumptions/104.md. -/
def Flash.readMap (f : Flash) : Flash := match f.newestMap with
  | some (i, m) => { f with retired := m.2, mapAt := i }
  | none => { f with retired := [] }

/-- RESULT of a retirement (OP 0) or release (OP 1) of page `p` (Table 12.9).
DEDUCED: notes/assumptions/67.md. -/
def State.retireCheck (s : State) (op p : Nat) (nv : NvEnd) : Nat :=
  let listed := s.flash.retired.contains p
  if s.nv then rtPOWER_INHIBIT
  else if !s.tierPage p then rtOUT_OF_RANGE
  else if listed == (op == 0) then rtNO_CHANGE
  else if op = 0 ∧ 16384 ≤ s.flash.retired.length then rtMAP_FULL
  else if nv.sag then rtPOWER_INHIBIT
  else if !nv.verifyOk then rtFLASH_VERIFY
  else rtOK

/-- Runs the operation: the new map comes into force with RESULT, and DONE follows its publication (R264); one that fails is done at
once.
DEDUCED: notes/assumptions/65.md. -/
def State.runRetire (s : State) (op p : Nat) (nv : NvEnd) : State :=
  let r := s.retireCheck op p nv
  let m := s.flash.retired
  let cut := r == rtFLASH_VERIFY || (r == rtPOWER_INHIBIT && !s.nv)
  if r ≠ rtOK then
    { s with retire := { s.retire with done := true, result := r }, flash := if cut then s.flash.spoilMap else s.flash }.attn atOP_DONE
  else
    let s0 := s.keepMap
    let s1 := { s0 with flash := s0.flash.writeMap (if op = 0 then insertPage p m else m.erase p) }.calicoDirty
    { s1 with retire := { s1.retire with busy := true, result := rtOK } }

/-- The published table shows the map in force: an operation that waited for that is done. -/
def State.retireDone (s : State) : State :=
  if s.retire.busy && (match s.calico.view with
      | some v => v.retired == s.flash.retired
      | none => false)
  then { s with retire := { s.retire with busy := false, done := true } }.attn atOP_DONE else s

/-- A write of FLT_RETIRE_CTRL (Table 12.8).
DEDUCED: notes/assumptions/64.md. -/
def State.writeRetireCtrl (s : State) (w : Wr) (nv : NvEnd) : State :=
  let x := s.retire
  let x1 : RetireCtl := { x with op := w.upd 1 1 x.op, done := x.done && !w.sets 3, refused := x.refused && !w.sets 4 }
  let s1 := { s with retire := x1 }
  if !w.sets 0 then s1
  else if x.busy || !s.mpTakes then { s1 with retire := { x1 with refused := true } }
  else s1.runRetire x1.op x1.page nv

/-- The write starts an operation `op`. -/
def retireGo (w : Wr) (op : Nat) : Bool := w.sets 0 && w.get? 1 1 == some op

/-- R264. -/
def execRetire (w : Wr) (nv : NvEnd) (s : State) : Out := .next (s.bar0 (if retireGo w 0 then s.writeRetireCtrl w nv else s))

/-- R264. -/
def execRelease (w : Wr) (nv : NvEnd) (s : State) : Out := .next (s.bar0 (if retireGo w 1 then s.writeRetireCtrl w nv else s))

end Sys2Proof.Machine
end

