-- ==== Sys2Proof/Machine/Firmware.lean ====
section
/-! DEFINITION. Firmware (18): slots and their boot check, staging a delta, the warm restart of the MP with its hand-over block, and
the rolling reload. -/

namespace Sys2Proof.Machine

/-! ### Slots (Tables 18.3 and 18.4) -/

def bcBAD_HEADER : Nat := 0x10
def bcWRONG_DEVICE : Nat := 0x11
def bcKEY_REVOKED : Nat := 0x12
def bcBAD_SIGNATURE : Nat := 0x13
def bcBAD_DIGEST : Nat := 0x14
def bcUNIT_BINDING : Nat := 0x15

/-- A component record: code, OFFSET, LENGTH, VERSION. -/
def fwComponent (b : Bytes) (c : Nat) : Nat × Nat × Nat × Nat :=
  let o := 0x20 + 16 * c
  (field b o 1, field b (o + 4) 4, field b (o + 8) 4, field b (o + 12) 4)

/-- Step 1: MAGIC, FORMAT, IMAGE_LENGTH, COMPONENT_COUNT, the component table and the reserved bytes. -/
def fwHeaderOk (b : Bytes) : Bool :=
  let n := field b 8 4
  let cs := (List.range 6).map (fwComponent b)
  field b 0 4 == 0x57464E46 && field b 4 2 == 1 && n % 4096 == 0 && decide (0x200 ≤ n) && decide (n ≤ 0x8000000) &&
    field b 0x18 1 == 6 &&
    (((List.range 6).zip cs).all fun x => x.2.1 == x.1 && decide (0x200 ≤ x.2.2.1) && decide (x.2.2.1 + x.2.2.2.1 ≤ n) &&
      zeros b (0x21 + 16 * x.1) 3 && !((before cs x.1).any fun y => overlap x.2.2.1 x.2.2.2.1 y.2.1 y.2.2.1)) &&
    zeros b 0x19 7 && zeros b 0x81 127 && zeros b 0x190 112

/-- What the boot ROM finds in the bytes written to a slot of 128 MiB; the others are erased. -/
def FwSlot.ofBytes (written : Bytes) : FwSlot :=
  let h := erasedTail written 0x200
  let n := field h 8 4
  let b := if n ≤ 0x8000000 then erasedTail h n else h
  { bytes := b, headerOk := fwHeaderOk b, deviceType := field b 6 2, keyIndex := field b 0x80 1, sigOk := Config.signatureOk (Config.sha384 (b.take 0x130)) (slice b 0x130 48) (slice b 0x160 48) (field b 0x80 1)
    digestOk := Config.sha384 ((b.take n).drop 0x200) == slice b 0x100 48, unitSerial := BitVec.ofNat 64 (field b 0x10 8)
    version := field b 0x0C 4, components := (List.range 6).map fun c => (fwComponent b c).2.2.2 }

/-- Unit binding under R2 and R3. -/
def bindingOk (serial : Word) : Bool := serial == Config.serial || (serial == 0 && !Config.unitBound)

/-- The first failure of Table 18.4, 0 when the slot passes.
DEDUCED: notes/assumptions/17.md. -/
def FwSlot.check (x : FwSlot) : Nat :=
  if !x.headerOk then bcBAD_HEADER
  else if x.deviceType ≠ 0xF512 then bcWRONG_DEVICE
  else if 4 ≤ x.keyIndex ∨ Config.keyRevoked x.keyIndex then bcKEY_REVOKED
  else if !x.sigOk then bcBAD_SIGNATURE
  else if !x.digestOk then bcBAD_DIGEST
  else if !bindingOk x.unitSerial then bcUNIT_BINDING
  else 0

def Firmware.slot (f : Firmware) (i : Nat) : Option FwSlot := f.slots.get none i

/-- The check of a slot; an erased slot has no header. -/
def Firmware.slotCheck (f : Firmware) (i : Nat) : Nat := match f.slot i with
  | some x => x.check
  | none => bcBAD_HEADER

/-- The order in which the boot ROM tries slots (R400). -/
def Firmware.bootOrder (f : Firmware) : List Nat :=
  (if f.staged = 0xFF then [] else [f.staged]) ++ [f.active, 1 - f.active, 2]

/-- The first slot that passes. -/
def Firmware.bootSlot (f : Firmware) : Option Nat := f.bootOrder.find? fun i => f.slotCheck i == 0

/-- BOOT_RESULT: the code of the last slot rejected before `booted`. -/
def Firmware.rejectCode (f : Firmware) (booted : Nat) : Nat :=
  match (f.bootOrder.takeWhile (· != booted)).getLast? with
  | some i => f.slotCheck i
  | none => 0

/-! ### Directory (R398) -/

/-- All ones in `w` bytes less `n`. -/
def complement (w n : Nat) : Nat := 2 ^ (8 * w) - 1 - n

/-- The 64 bytes of a slot directory (Table 18.2). -/
def dirBytes (seq active staged : Nat) : Bytes :=
  let h := leBytes 4 0x52444E46 ++ leBytes 4 seq ++ leBytes 1 active ++ leBytes 1 staged ++ leBytes 6 0
  let b := h ++ leBytes 16 (complement 16 (leNat h)) ++ leBytes 28 0
  b ++ leBytes 4 (crc32c b)

/-- A copy is valid when its CRC and its complement hold. -/
def dirValid (b : Bytes) : Bool :=
  b.length == 64 && crc32c (b.take 60) == field b 0x3C 4 && field b 0x10 16 == complement 16 (field b 0 16)

/-- The valid copies, each with its place. -/
def Firmware.validDirs (f : Firmware) : List (Nat × Bytes) := ((List.range 2).map fun i => (i, f.dirs.getD i [])).filter fun e => dirValid e.2

/-- The MP reads the directory at boot: the valid copy with the higher SEQ. Without a valid copy nothing is staged and slot A counts as the last
booted.
DESIGN CHOICE: notes/assumptions/104.md. -/
def Firmware.readDirectory (f : Firmware) : Firmware :=
  match f.validDirs.foldl (fun acc e => match acc with
    | some x => if field x.2 4 4 < field e.2 4 4 then some e else acc
    | none => some e) none with
  | some (i, b) => { f with dirAt := i, dirSeq := field b 4 4, active := field b 8 1, staged := field b 9 1 }
  | none => { f with dirAt := 1, dirSeq := 0, active := 0, staged := 0xFF }

/-- A write of the slot directory: into the copy not in use, SEQ one higher. A change of STAGED is published (R42). -/
def State.writeDirectory (s : State) (active staged : Nat) : State :=
  let f := s.fw
  let s1 := { s with fw := { f with
    dirs := f.dirs.set (1 - f.dirAt) (dirBytes (f.dirSeq + 1) active staged), dirAt := 1 - f.dirAt
    dirSeq := f.dirSeq + 1, active := active, staged := staged } }
  if staged = f.staged then s1 else s1.calicoDirty

/-- The slot that STAGE writes: not the running one; when golden runs, the one not last booted. -/
def Firmware.spareSlot (f : Firmware) : Nat := if f.bootedSlot = 0 then 1 else if f.bootedSlot = 1 then 0 else 1 - f.active

/-! ### Staging (R401, R402) -/

def fwOK : Nat := 0x00
def fwADDRESS : Nat := 0x01
def fwBAD_MAGIC : Nat := 0x02
def fwWRONG_DEVICE : Nat := 0x03
def fwBASE_MISMATCH : Nat := 0x04
def fwBAD_DELTA : Nat := 0x05
def fwRESULT_MISMATCH : Nat := 0x06
def fwFLASH_VERIFY : Nat := 0x07
def fwNOT_READY : Nat := 0x08
def fwPOWER_INHIBIT : Nat := 0x0C

/-- The operation ends. -/
def State.fwEnd (s : State) (r : Nat) : State :=
  { s with fw := { s.fw with busy := false, done := true, waiting := none, result := r } }.attn atOP_DONE

/-- The bytes that an operation stream writes, none when it is not well formed. -/
def deltaGo (base : Bytes) : (fuel : Nat) → Bytes → Bytes → Option Bytes
  | 0, _, _ => none
  | k + 1, b, out =>
    let op := field b 0 1
    let n := field b 4 4
    if b.length < 8 ∨ field b 1 3 ≠ 0 then none
    else if op = 1 then
      let o := field b 8 8
      if b.length < 16 ∨ base.length < o + n then none else deltaGo base k (b.drop 16) (out ++ slice base o n)
    else if op = 2 then
      let p := roundUp n 8
      if b.length < 8 + p ∨ !zeros b (8 + n) (p - n) then none else deltaGo base k (b.drop (8 + p)) (out ++ slice b 8 n)
    else if op = 3 then deltaGo base k (b.drop 8) (out ++ List.replicate n 0)
    else if op = 0xFF ∧ n = 0 ∧ b.length = 8 then some out
    else none

/-- The target image of a delta: header of 128 bytes, then the stream, which ends at DELTA_LENGTH (Table 18.5). It writes TARGET_LENGTH bytes,
the target's IMAGE_LENGTH. -/
def deltaTarget (base b : Bytes) : Option Bytes :=
  match deltaGo base (b.length / 8 + 1) ((b.take (field b 8 4)).drop 128) [] with
  | some o => if o.length = field b 0x0C 4 ∧ field o 8 4 = o.length then some o else none
  | none => none

/-- Bytes of the running image. -/
def Firmware.running (f : Firmware) : Bytes := match f.slot f.bootedSlot with
  | some x => x.bytes.take (field x.bytes 8 4)
  | none => []

/-- Step 1 of a STAGE.
DEDUCED: notes/assumptions/17.md, notes/assumptions/71.md. -/
def State.deltaCheck (s : State) (b : Bytes) : Nat :=
  if field b 0 4 ≠ 0x4C444E46 then fwBAD_MAGIC
  else if field b 4 2 ≠ 1 then fwBAD_DELTA
  else if field b 6 2 ≠ 0xF512 then fwWRONG_DEVICE
  else if field b 8 4 < 128 ∨ 0x8000000 < field b 0x0C 4 ∨ !zeros b 0x70 16 then fwBAD_DELTA
  else if Config.sha384 s.fw.running ≠ slice b 0x10 48 then fwBASE_MISMATCH
  else fwOK

/-- Steps 2 to 5 on a copied delta. -/
def State.stageDelta (s : State) (b : Bytes) (nv : NvEnd) : State :=
  let base := s.fw.running
  let t := s.fw.spareSlot
  let s1 := s.writeDirectory s.fw.active 0xFF
  let slot (v : Option FwSlot) : State := { s1 with fw := { s1.fw with slots := s1.fw.slots.set none t v } }
  if nv.sag then (slot none).fwEnd fwPOWER_INHIBIT
  else match deltaTarget base b with
    | none => (slot none).fwEnd fwBAD_DELTA
    | some o =>
      if !nv.verifyOk then (slot none).fwEnd fwFLASH_VERIFY
      else if Config.sha384 o ≠ slice b 0x40 48 then (slot none).fwEnd fwRESULT_MISMATCH
      else ((slot (some (FwSlot.ofBytes o))).writeDirectory s.fw.active t).fwEnd fwOK

/-- STAGE from the delta at `a`; it waits while the memory it reads sleeps.
DEDUCED: notes/assumptions/71.md. -/
def State.runStage (s : State) (a : Nat) (nv : NvEnd) : State :=
  if !s.populated a 128 || s.touchesRetired a 128 then s.fwEnd fwADDRESS
  else
    let n := max 128 (field (s.readBytes a 128) 8 4)
    let ds := s.rangeDomains a (if (s.wakeFor a 128).isEmpty ∧ s.populated a n then n else 128)
    if !(s.asleep ds).isEmpty then { s with fw := { s.fw with busy := true, waiting := some (a, nv) } }.putOff (.mp 2 ds) ds
    else if !s.populated a n || s.touchesRetired a n then s.fwEnd fwADDRESS
    else
      let t := (s.touch ds).corrections nv.ces a n
      let c := t.deltaCheck (t.readBytes a 128)
      if c ≠ fwOK then t.fwEnd c else t.stageDelta (t.readBytes a n) nv

/-! ### The hand-over block (R406, Table 18.6) -/

/-- The configuration values that adoption compares: ID, INDEX, VALUE. -/
def State.handoverConfig (s : State) : List (Nat × Nat × Nat) :=
  ((List.range 64).map fun q => let x := s.sq q
    (0x04, q, b2n x.enable + b2n x.loc * 2 + x.sizeLog2 * 16 + x.cq * 2 ^ 16)) ++
  ((List.range 64).map fun q => let x := s.cq q; (0x05, q, b2n x.enable + b2n x.disRefused * 2 + x.sizeLog2 * 16)) ++
  ((List.range 8).map fun p => (0x07, p, s.lnkStatus p)) ++
  ((List.range 64).map fun q => (0x0C, q, (s.sq q).base)) ++ ((List.range 64).map fun q => (0x0D, q, (s.cq q).base))

/-- DAMASK_COPY: the offset of the copy in MP memory, a free value, and its IMAGE_CRC. -/
def copyValue (off : Word) (i : Option Image) : Nat := off.toNat % 2 ^ 32 + (i.elim 0 fun x => x.crc) * 2 ^ 32

/-- The other records: epochs, copies, GENERATION, queue pointers, lane maps, envelope,
deferred writes and units to reload. -/
def State.handoverOther (s : State) : List (Nat × Nat × Nat) :=
  [(0x01, 0, s.epochNow), (0x01, 1, s.epochPending), (0x02, 0, copyValue (Config.freeWord s.draws) s.dmk.inForce),
   (0x02, 1, copyValue (Config.freeWord (s.draws + 1)) s.dmk.pendingImage), (0x03, 0, s.calico.generation)] ++
  ((List.range 64).map fun q => (0x06, q, (s.sq q).ptrValue)) ++
  ((List.range 16).map fun i => (0x08, i, leNat (((s.laneRecord (i / 2)).1.drop (8 * (i % 2))).take 8 |>.map fun x => BitVec.ofNat 8 x))) ++
  [(0x09, 0, s.env.recorded + s.env.inForce * 8), (0x0A, 0, s.deferred.length)] ++
  ((List.range 6).map fun c => (0x0B, c, (s.fw.toReload.getD c []).length))

/-- Bytes 0x00 to 0x0F of the header. Of the widths, only those that the spec's offsets leave are open.
DEDUCED: notes/assumptions/72.md. -/
def Handover.head (h : Handover) : Bytes :=
  leBytes 4 h.magic ++ leBytes 2 h.format ++ leBytes 2 h.count ++ leBytes 4 h.version ++ leBytes 4 h.bootCount

/-- CRC-32C of bytes 0x00 to 0x3B. -/
def Handover.crcValue (h : Handover) : Nat := crc32c (h.head ++ leBytes 16 h.headN ++ leBytes 28 0)

/-- The 16 bytes of a record that its complement covers, as a number. -/
def recordValue (r : Nat × Nat × Nat) : Nat := r.1 % 2 ^ 32 + r.2.1 % 2 ^ 32 * 2 ^ 32 + r.2.2 % 2 ^ 64 * 2 ^ 64

/-- The block that firmware of this VERSION writes. -/
def Handover.of (version bootCount : Nat) (rs : List (Nat × Nat × Nat)) : Handover :=
  let h0 : Handover := { magic := 0x4F444E48, format := 1, count := rs.length, version := version, bootCount := bootCount, headN := 0, crc := 0
                         records := rs.map fun r => (r.1, r.2.1, r.2.2, complement 16 (recordValue r)) }
  let h1 := { h0 with headN := complement 16 (leNat h0.head) }
  { h1 with crc := h1.crcValue }

/-- Writes the block.
DEDUCED: notes/assumptions/72.md. -/
def State.writeHandover (s : State) : State :=
  { s with draws := s.draws + 2, handover := some (Handover.of (s.fw.versions.getD 0 0) s.bootCount (s.handoverConfig ++ s.handoverOther)) }

/-- A record agrees with the live value: of LINK, STATE and PARTNER are compared, and a loss during the restart is no disagreement
(Table 18.8). -/
def agrees (r live : Nat × Nat × Nat) : Bool :=
  r == live || (r.1 == 0x07 && live.1 == 0x07 && (bit live.2.2 3 ||
    (bits r.2.2 0 3 == bits live.2.2 0 3 && bits r.2.2 16 16 == bits live.2.2 16 16)))

/-- The first field of the header that fails, by its offset: the header itself, and BOOT_COUNT against the Calico value.
DEDUCED: notes/assumptions/72.md. -/
def State.headerFault (s : State) (h : Handover) : Option Nat :=
  if h.magic ≠ 0x4F444E48 then some 0
  else if h.format ≠ 1 then some 4
  else if h.count ≠ h.records.length then some 6
  else if h.headN ≠ complement 16 (leNat h.head) then some 0x10
  else if h.crc ≠ h.crcValue then some 0x3C
  else if h.bootCount ≠ s.bootCount then some 0xC
  else none

/-- Offset of record `i` in the block. -/
def recordAt (i : Nat) : Nat := 64 + 32 * i

/-- The first field that fails adoption, by its offset in the block: the header, a record's complement, a configuration value that differs from
the live one. A block that is not there fails at its start.
DEDUCED: notes/assumptions/72.md. -/
def State.handoverFault (s : State) : Option Nat :=
  match s.handover with
  | none => some 0
  | some h =>
    let rs := (List.range h.records.length).zip h.records
    (s.headerFault h).orElse fun _ =>
      ((rs.find? fun x => x.2.2.2.2 != complement 16 (recordValue (x.2.1, x.2.2.1, x.2.2.2.1))).map fun x => recordAt x.1 + 16).orElse fun _ =>
        ((rs.zip s.handoverConfig).find? fun x => !agrees (x.1.2.1, x.1.2.2.1, x.1.2.2.2.1) x.2).map fun x => recordAt x.1.1 + 8

/-! ### ACTIVATE, UNSTAGE and REVERT (R404, R409) -/

/-- An operation run by the MP is BUSY, or a rolling reload is under way (R404, R407). -/
def State.mpBusy (s : State) : Bool :=
  s.dmkBusy || s.retire.busy || s.seq.busy || s.fw.busy || s.fw.toReload.any (fun l => !l.isEmpty)

/-- ACTIVATE: the hand-over block is written and the MP restarts. The operation ends with the boot.
DEDUCED: notes/assumptions/71.md. -/
def State.activate (s : State) : State :=
  if s.fw.staged = 0xFF ∨ s.mpBusy then s.fwEnd fwNOT_READY
  else
    let s1 := s.deferRun.writeHandover
    { s1 with fw := { s1.fw with busy := true, restarting := true } }

/-- UNSTAGE. -/
def State.unstage (s : State) : State :=
  if s.nv then s.fwEnd fwPOWER_INHIBIT else (s.writeDirectory s.fw.active 0xFF).fwEnd fwOK

/-- REVERT. -/
def State.revert (s : State) : State :=
  let t := s.fw.spareSlot
  let ok := match s.fw.slot t with
    | some x => x.headerOk
    | none => false
  if s.nv then s.fwEnd fwPOWER_INHIBIT
  else if ok then (s.writeDirectory s.fw.active t).fwEnd fwOK
  else s.fwEnd fwNOT_READY

/-- The operation that FWU_CTRL names.
DEDUCED: notes/assumptions/65.md. -/
def State.runFirmware (s : State) (nv : NvEnd) : State :=
  match s.fw.op with
  | 0 => if s.nv then s.fwEnd fwPOWER_INHIBIT else s.runStage s.fw.src nv
  | 1 => s.activate
  | 2 => s.unstage
  | _ => s.revert

/-- A write of FWU_CTRL (Table 18.11). An ACTIVATE while a STAGE is BUSY is ignored, which sets REFUSED, and RESULT says why (R404).
DEDUCED: notes/assumptions/64.md. -/
def State.writeFwCtrl (s : State) (w : Wr) (nv : NvEnd) : State :=
  let s1 := { s with fw := { s.fw with op := w.upd 1 2 s.fw.op } }
  if !w.sets 0 then s1
  else if s.fw.busy || !s.mpTakes then
    { s1 with fw := { s1.fw with refused := true, result := if s1.fw.op = 1 ∧ s.mpTakes then fwNOT_READY else s1.fw.result } }
  else s1.runFirmware nv

/-- The write starts an operation `op`. -/
def fwGo (w : Wr) (op : Nat) : Bool := w.sets 0 && w.get? 1 2 == some op

/-- R402. -/
def execStage (w : Wr) (nv : NvEnd) (s : State) : Out := .next (s.bar0 (if fwGo w 0 then s.writeFwCtrl w nv else s))

/-- R404. -/
def execActivate (w : Wr) (s : State) : Out := .next (s.bar0 (if fwGo w 1 then s.writeFwCtrl w {} else s))

/-- R409. -/
def execUnstage (w : Wr) (s : State) : Out := .next (s.bar0 (if fwGo w 2 then s.writeFwCtrl w {} else s))

/-- R409. -/
def execRevert (w : Wr) (s : State) : Out := .next (s.bar0 (if fwGo w 3 then s.writeFwCtrl w {} else s))

/-! ### Rolling reload (R407) -/

/-- Units of a component: clusters of array groups, ports, stacks, tier units, present engines. -/
def State.reloadUnits (s : State) (c : Nat) : List Nat :=
  match c with
  | 1 => (List.range 512).filter fun n => s.groups.any fun g => g.clusters.testBit n
  | 2 => List.range 8
  | 3 => List.range 8
  | 4 => (List.range 18).map (· + 8)
  | 5 => (List.range 4).filter s.enginePresent
  | _ => []

/-- Domain of a unit of a component. -/
def reloadDomain (c u : Nat) : Nat :=
  match c with
  | 1 => u / 16
  | 2 => 32 + u
  | 3 => 50 + u
  | 4 => if u < 24 then 47 + (u - 8) / 8 else 49
  | _ => 40 + u

/-- The booted image's components are adopted: what differs is to be reloaded.
DEDUCED: notes/assumptions/73.md. -/
def State.planReload (s : State) (new : List Nat) : State :=
  { s with fw := { s.fw with
      toReload := (List.range 6).map fun c => if new.getD c 0 = s.fw.versions.getD c 0 then [] else s.reloadUnits c
      versions := new } }

/-- Unit `u` of component `c` runs its new image; the last one of a component asks for a publication (R42). -/
def State.reloaded (s : State) (c u : Nat) : State :=
  let l := s.fw.toReload.getD c []
  let l1 := l.filter (· != u)
  let s1 := { s with fw := { s.fw with toReload := s.fw.toReload.set c l1 } }
  if l1.isEmpty && !l.isEmpty then s1.calicoDirty else s1

/-- Units in a domain that wakes take the new image then. -/
def State.reloadAtWake (s : State) (d : Nat) : State :=
  (List.range 6).foldl (fun s c => ((s.fw.toReload.getD c []).filter fun u => reloadDomain c u == d).foldl (fun s u => s.reloaded c u) s) s

/-- A slot of unit `r` begins at this tick. -/
def slotTick (r t : Nat) : Bool := if r < 8 then t % 25000 == 3125 * r else decide (r < 24) && t % 2500 == 150 * (r - 8)

/-- Length of the slot that begins at tick `t`: a board channel's is long in every 320th period.
DEDUCED: notes/assumptions/81.md. -/
def slotLength (r t : Nat) : Nat := if r < 8 then 25 else if t / 2500 % 320 = 0 then 25 else 5

/-- A unit of component `c` is paused by its reload: those of one component reload one at a time (R407). -/
def State.reloadPaused (s : State) (c : Nat) : Bool := (s.reloadUnits c).any fun u => (c == 3 || c == 4) && (s.recal.get {} u : Recal).reloading

/-- The point of Table 18.7 has come for a unit.
DEDUCED: notes/assumptions/73.md. -/
def State.reloadPoint (s : State) (c u : Nat) : Bool :=
  let d := reloadDomain c u
  s.domOn d && !s.fw.restarting && !s.reloadPaused c &&
  (match c with
    | 1 => s.stepFree && (List.range 16).all (fun i => let c := s.core (16 * u + i); c.st == .idle || c.st == .halted) && (s.queuedAt (.array u) + s.queuedAt (.slice u) + s.queuedAt (.movers u) == 0)
    | 2 => (s.port u).rotation.isNone && (!s.calEnabled u || decide (s.fw.adoptedAt ≤ (s.port u).lastRotation))
    | 3 => slotTick u s.tick && !(s.recal.get {} u).inSlot
    | 4 => if u < 24 then slotTick u s.tick && slotLength u s.tick == 25 && !(s.recal.get {} u).inSlot
           else s.domIdle 49 && decide ((s.dom 49).idleSince + 250 ≤ s.tick)
    | _ => (s.eng u).run.isNone && (s.reading u).isNone && !s.folding u)

/-- A controller of a tier reloads: it serves no access meanwhile, as in the slot that its reload replaces (R263, Table 18.7). -/
def State.reloadPause (s : State) (c u : Nat) : State :=
  if c = 3 ∨ c = 4 then { s with recal := s.recal.set {} u { (s.recal.get {} u : Recal) with inSlot := true, reloading := true, startTick := s.tick, waited := 0 } }
  else s

/-- R407. -/
def execFirmwareReload (component unit : Nat) (s : State) : Out :=
  event ((s.fw.toReload.getD component []).contains unit && s.reloadPoint component unit) s ((s.reloaded component unit).reloadPause component unit)

/-! ### What a board programmer writes (R396, R438) -/

/-- Areas of the flash (Table 18.1): offset and size. -/
def areaDirectory : Nat × Nat := (0, 0x100000)
def areaMaps : Nat × Nat := (0x100000, 0x200000)
def areaSlot (i : Nat) : Nat × Nat := (0x1000000 + 0x8000000 * i, 0x8000000)
def areaLog : Nat × Nat := (0x19000000, 0x1000000)
def areaDamask (i : Nat) : Nat × Nat := (0x1A000000 + 0x1000000 * i, 0x1000000)

/-- Bytes of an area with the part of a write at flash offset `o` that falls into it; erased bytes read 0xFF. -/
def patchArea (old : Bytes) (area : Nat × Nat) (o : Nat) (b : Bytes) : Bytes :=
  let lo := max o area.1
  let hi := min (o + b.length) (area.1 + area.2)
  if hi ≤ lo then old
  else (old ++ List.replicate (lo - area.1 - old.length) 0xFF).take (lo - area.1) ++ slice b (lo - o) (hi - lo) ++ old.drop (hi - area.1)

/-- A write touches an area. -/
def inArea (area : Nat × Nat) (w : Nat × Bytes) : Bool := overlap area.1 area.2 w.1 w.2.length

/-- What is left of an area: nothing where every byte reads as erased. -/
def unlessErased (b : Bytes) : Option Bytes := if b.all (· == 0xFF) then none else some b

/-- The places of the fault log that a write touches hold the bytes that it leaves there (Table 16.5). -/
def Flash.overwriteLog (f : Flash) (w : Nat × Bytes) : Flash :=
  let lo := max areaLog.1 w.1
  let hi := min (areaLog.1 + areaLog.2) (w.1 + w.2.length)
  if hi ≤ lo then f
  else
    let first := (lo - areaLog.1) / 64
    let count := (hi - areaLog.1 + 63) / 64 - first
    { f with plogRaw := ((List.range count).map (first + ·)).foldl (fun m i =>
        SMap.put m i (patchArea (f.placeBytes i) (areaLog.1 + 64 * i, 64) w.1 w.2)) f.plogRaw }

/-- A write of the programmer: into directory copies, slots, Damask slots, the fault log, and the area of the maps and marks. The layout of the
last is not given: a write into it leaves no valid map, no mark and no remap entry.
DESIGN CHOICE: notes/assumptions/104.md. -/
def State.program (s : State) (w : Nat × Bytes) : State :=
  let f := s.fw
  let dirs := (List.range 2).map fun i => patchArea (f.dirs.getD i []) (0x80000 * i, 64) w.1 w.2
  let slots := (List.range 3).foldl (fun (m : SMap (Option FwSlot)) i =>
    if inArea (areaSlot i) w then m.set none i ((unlessErased (patchArea ((f.slot i).elim [] fun x => x.bytes) (areaSlot i) w.1 w.2)).map
      FwSlot.ofBytes) else m) f.slots
  let damask := (List.range 4).foldl (fun (m : SMap (Option Bytes)) i =>
    if inArea (areaDamask i) w then m.set none i (unlessErased (patchArea ((m.get none i).getD []) (areaDamask i) w.1 w.2)) else m) s.flash.damask
  let fl := { s.flash with damask := damask }
  let fl := if inArea areaMaps w then { fl with maps := [none, none], marks := {}, remaps := [] } else fl
  { s with fw := { f with dirs := dirs, slots := slots }, flash := fl.overwriteLog w }

end Sys2Proof.Machine
end

