-- ==== Sys2Proof/Machine/Faults.lean ====
section
/-! DEFINITION. Errors and faults (16): what the MP does with fault records, their persistence, uncorrectable errors and the
scrubbers. -/

namespace Sys2Proof.Machine

/-! ### Marks (R372, R246, R247) -/

/-- Logs a mark: KIND MARK, the unit marked, the causing record's LOCATION, and the kind marked. -/
def State.logMark (s : State) (r : FaultRec) (kind : Nat) : State :=
  s.logFault { kind := fkMARK, subject := s.node, unit := r.fid.unit, location := r.fid.location } 1 r.phys kind

def State.setMarks (s : State) (m : Marks) : State := { s with flash := { s.flash with marks := m } }

/-- Marks a physical cluster. -/
def State.markCluster (s : State) (r : FaultRec) : State :=
  let m := s.flash.marks
  if m.clusters.contains r.phys then s else ((s.setMarks { m with clusters := m.clusters ++ [r.phys] }).logMark r 1).calicoDirty

/-- Two records of one kind concern the same word of the same physical cluster's store. -/
def sameWord (x r : FaultRec) : Bool :=
  x.fid.kind == r.fid.kind && unitClass x.fid.unit == unitClass r.fid.unit && x.fid.location == r.fid.location && x.phys == r.phys

/-- The spare word behind a word that a remap entry redirects has failed (R247): two windows hold records of the word that are newer
than the loading of the entry. -/
def State.spareFailed (s : State) (r : FaultRec) (w : Nat × Nat × Nat) : Bool :=
  s.remaps.any fun x => x.1 == w && decide (x.2 < r.seq) && (s.log.slots.any fun (e : Nat × FaultRec) =>
    sameWord e.2 r && decide (x.2 < e.2.seq) && windowOf e.2.tick != windowOf r.tick)

/-- Fills a remap entry for the failing word; a bank that needs a ninth marks its cluster, and so does a spare word in use that fails
(R247). In a cluster already marked no further MARK is logged.
DESIGN CHOICE: notes/assumptions/46.md. -/
def State.markWord (s : State) (r : FaultRec) : State :=
  let w := (r.phys, bankOf r.fid.location, wordIndex r.fid.location)
  let mine := s.flash.remaps.filter fun x => x.1 == w.1 && x.2.1 == w.2.1
  if s.flash.remaps.contains w then (if s.spareFailed r w then s.markCluster r else s)
  else if 8 ≤ mine.length then s.markCluster r
  else
    let s1 : State := { s with flash := { s.flash with remaps := s.flash.remaps ++ [w] } }
    (if s.flash.marks.clusters.contains r.phys then s1 else s1.logMark r 3).calicoDirty

/-- Marks a physical Serge engine. -/
def State.markEngine (s : State) (r : FaultRec) : State :=
  let m := s.flash.marks
  if m.engines.contains r.phys then s else (s.setMarks { m with engines := m.engines ++ [r.phys] }).logMark r 4

/-- Marks a physical pseudo-channel. -/
def State.markPseudo (s : State) (r : FaultRec) : State :=
  let m := s.flash.marks
  let x := (unitIndex r.fid.unit, r.phys)
  if m.pseudo.contains x then s else (s.setMarks { m with pseudo := m.pseudo ++ [x] }).logMark r 5

/-- The same word was corrected in another window, under whatever NODE and logical cluster. -/
def State.seenAgain (s : State) (r : FaultRec) : Bool :=
  (s.flash.records ++ s.log.slots.map (fun e => e.2)).any fun x => sameWord x r && windowOf x.tick != windowOf r.tick

/-- What R372 asks for a record: nothing, or one of its marks.
DEDUCED: notes/assumptions/74.md. -/
def State.actOn (s : State) (r : FaultRec) : State :=
  let c := unitClass r.fid.unit
  if r.fid.kind = fkCE ∧ c = ucSTORE then (if s.seenAgain r then s.markWord r else s)
  else if r.fid.kind ≠ fkUE then s
  else if c = ucSTORE then s.markCluster r
  else if c = ucENGINE then s.markEngine r
  else if c = ucNEAR then s.markPseudo r
  else s

/-- Non-volatile writes of the MP are put off (R381, R405). -/
def State.nvHeld (s : State) : Bool := s.nv || s.fw.restarting

/-- Acts on a record now, or notes it for later when it would write flash. -/
def State.actOrDefer (s : State) (r : FaultRec) : State :=
  if !s.nvHeld then s.actOn r
  else if (s.actOn r).flash = s.flash ∨ s.deferred.contains (.mark r) then s
  else { s with deferred := s.deferred ++ [.mark r] }

/-- The MP acts on the records. -/
def State.actOnRecords (s : State) (all : Bool) : State := (s.closedRecords all).foldl (fun s r => s.actOrDefer r) s

/-- R372. -/
def execFaultWindowClose (s : State) : Out := event s.mpRunning s (s.actOnRecords false)

/-! ### Persistence (R371) -/

/-- Writes records to flash and reads them back. -/
def State.persistAll (s : State) (rs : List FaultRec) : State :=
  rs.foldl (fun s r => { s with flash := s.flash.persist r, log := { s.log with persistSeq := max s.log.persistSeq r.seq } }) s

/-- The run of a start begins: it is due for every record that the log holds (R371). -/
def State.persistStart (s : State) : State :=
  let u := { s with log := { s.log with runTo := s.log.lastSeq } }
  let t := if u.nvHeld then u.deferPersist else u
  { t with log := { t.log with persistBusy := !t.nvHeld && !t.toPersist.isEmpty } }

/-- A persistence run, or as much of it as this command carries out: PERSIST_BUSY is set while records of the run are left. A page
write in progress when NV takes effect finishes. -/
def State.persistSome (s : State) (part : Option Nat) : State :=
  let rs := s.toPersist
  let n := if s.nvHeld then min 1 (part.getD 1) else part.getD rs.length
  let s1 := s.persistAll (rs.take n)
  { s1 with log := { s1.log with persistBusy := !s.nvHeld && decide (n < rs.length) } }

/-- R371: `part` is the number of records that are written now, none for all of them. Under NV only a run in progress goes on, with its
page; a run that falls due is put off (R381).
DESIGN CHOICE: notes/assumptions/97.md. -/
def execFaultLogPersist (s : State) (part : Option Nat := none) : Out :=
  event s.mpRunning s (if s.nvHeld && !s.log.persistBusy then s.deferPersist else s.persistSome part)

/-! ### Uncorrectable errors (R364 to R367) -/

/-- One fatal record. -/
def State.logFatal (s : State) (e : FaultId × Nat × Nat) : State := s.logFault e.1 3 e.2.1 e.2.2

/-- Faults that are uncorrectable errors (R364). -/
def isUncorrectable (k : Nat) : Bool := k == fkUE || k == fkFAR_LINK || k == fkPOISON

/-- DETAIL of an error in memory: the code is that which protects the location under MEMORY section `m` (R358, Table 16.6). -/
def errorDetail (m : Option MemorySec) (i : FaultId) (detail : Nat) : Nat :=
  let c := unitClass i.unit
  if i.kind = fkCE ∨ i.kind = fkUE then detail / 4 * 4 + (if c = ucNEAR ∨ c = ucBOARD ∨ c = ucFAR then codeAt (codedRanges m) i.location else 0)
  else detail

/-- The records of tick 0 (R365, R367): one for each uncorrectable error, in ascending order of physical unit, then the correctable
ones, under the MEMORY section `m`. -/
def State.logErrors (s : State) (m : Option MemorySec) (errs : List (FaultId × Nat × Nat)) : State :=
  let es := (errs.filter fun e => isUncorrectable e.1.kind).mergeSort fun a b => decide (a.2.1 ≤ b.2.1)
  let s1 := es.foldl (fun s e => s.logFatal (e.1, e.2.1, errorDetail m e.1 e.2.2)) s
  (errs.filter fun e => e.1.kind == fkCE && errorDetail m e.1 e.2.2 % 4 != 2).foldl (fun s e => s.logFault e.1 1 e.2.1 (errorDetail m e.1 e.2.2)) s1

/-- A reset that another cause began in this tick is a fatal one (R367): its records are written, LAST_RESET names it, ERR_FATAL
follows, and the hand-over block is invalid. -/
def State.becomesFatal (s : State) (errs : List (FaultId × Nat × Nat)) : State :=
  let s1 := s.logErrors s.resetMemory errs
  { s1 with
    log := { s1.log with lastReset := lrFATAL, slots := s1.log.slots.map fun e => if s.log.lastSeq < e.2.seq then (e.1, { e.2 with reporter := s.resetNode, origin := s.resetNode }) else e }
    handover := none, hif := { s1.hif with attn := s.hif.attn, attnNow := s.hif.attnNow }.aerNote aeINTERNAL }

/-- A reset that is not a fatal one has begun in this tick (R367). -/
def State.resetHere (s : State) : Bool := s.flannelOn && decide (s.resetEnds = s.tick + 500) && s.log.lastReset != lrFATAL

/-- R364, R365, R367. -/
def execUncorrectableError (errs : List (FaultId × Nat × Nat)) (dt : Nat) (s : State) : Out :=
  if errs.all fun e => !isUncorrectable e.1.kind then .next s
  else if s.up then .next ((s.logErrors (s.dmk.inForce.bind (·.memory)) errs).fatalReset dt)
  else event s.resetHere s (s.becomesFatal errs)

/-- R260, R367. -/
def execFarLinkDown (port linkState dt : Nat) (s : State) : Out :=
  let f (node : Nat) : FaultId × Nat × Nat := ({ kind := fkFAR_LINK, subject := node, unit := faultUnit ucFAR port, location := 0 }, port, linkState)
  guarded (farOk port) (if s.up then (s.logFatal (f s.node)).fatalReset dt else if s.resetHere then s.becomesFatal [f s.resetNode] else s)

/-! ### Scrubbing (R361 to R363) -/

/-- Domain of a scrub unit's memory. -/
def scrubDomain (u : Nat) : Nat :=
  if u < 512 then u / 16 else if u < 520 then 32 + (u - 512) else if u < 524 then 40 + (u - 520)
  else if u < 532 then 50 + (u - 524) else if u < 548 then 47 + (u - 532) / 8 else 49

/-- Limit of a unit's lap in ticks (Table 16.9). -/
def State.scrubLimit (s : State) (u : Nat) : Nat :=
  let l := s.scrLimits
  (if u < 524 then l.1 else if u < 532 then l.2.1 else if u < 548 then l.2.2.1 else l.2.2.2) * 2 ^ 20

/-- The scrubber of a unit that no access has touched yet is in the lap that began with the start (R363). -/
def State.scrubOf (s : State) (u : Nat) : Scrub := s.scrub.get { lapStart := s.startedAt } u
def State.setScrub (s : State) (u : Nat) (x : Scrub) : State := { s with scrub := s.scrub.set { lapStart := s.startedAt } u x }

/-- The lowest location that scrub unit `u` walks: a store offset, or a local address (Table 16.6). -/
def scrubBase (u : Nat) : Nat :=
  if u < 512 then 0 else if u < 520 then linkBase (u - 512) else if u < 524 then workBase (u - 520) else tierBase (u - 524)

/-- A correctable error found by a scrub read in the group it has reached is logged and written back corrected: location, and DETAIL
without its SCRUB bit and its code. -/
def State.scrubFound (s : State) (u : Nat) (found : Nat × Nat) : State :=
  let lo := scrubBase u + (s.scrubOf u).pos * 64
  if lo ≤ found.1 ∧ found.1 < lo + 64 then s.correctedAt u found.1 (found.2 % 2 ^ 63 + 2 ^ 63) else s

/-- The lap ends: LAST_LAP, and WARN with SCRUB_LATE above the limit. -/
def State.lapEnds (s : State) (u : Nat) : State :=
  let x := s.scrubOf u
  let n := s.tick - x.lapStart
  let late := decide (s.scrubLimit u < n)
  let y := { x with pos := 0, lapStart := s.tick, overdue := false, warn := x.warn || late, lastLap := min (n / 1024) 0xFFFFFFFF }
  let s1 := s.setScrub u y
  if late then
    (s1.logFault { kind := fkSCRUB_LATE, subject := s.node, unit := faultUnit ucSCRUB u, location := 0 } 1 0xFFFF n).attn atSCRUB
  else s1

/-- Bytes that scrub unit `u` walks in a lap: the populated part of its memory (R361). -/
def State.scrubBytes (s : State) (u : Nat) : Nat :=
  if u < 512 then s.winSize (.store u) else if u < 520 then s.winSize (.link (u - 512)) else if u < 524 then s.winSize (.work (u - 520))
  else if u < 532 then s.winSize (.near (u - 524)) else if u < 548 then s.winSize (.board (u - 532)) else s.winSize (.far (u - 548))

/-- The scrubber of `u` can take a slot: its unit's memory is there, its domain is on, and no recalibration slot or link recovery
keeps accesses out (R260, R361). -/
def State.scrubMay (s : State) (u : Nat) : Bool :=
  decide (0 < s.scrubBytes u) && (s.dom (scrubDomain u)).st == .on && !(decide (524 ≤ u) && s.unitBusy (u - 524))

/-- One group is checked, with the errors found in its words; the lap ends with the highest. -/
def State.scrubGroup (s : State) (u : Nat) (found : List (Nat × Nat)) : State :=
  let s1 := found.foldl (fun s e => s.scrubFound u e) s
  let n := (s.scrubOf u).pos + 1
  if s.scrubBytes u ≤ n * 64 then s1.lapEnds u else s1.setScrub u { s1.scrubOf u with pos := n }

/-- R361, R362: `found` and `more` are the errors of the group's words, in the order in which the read meets them.
DESIGN CHOICE: notes/assumptions/46.md. DEDUCED: notes/assumptions/74.md. -/
def execScrubAccess (u : Nat) (found : Option (Nat × Nat)) (more : List (Nat × Nat)) (s : State) : Out :=
  guarded (scrubOk u) (if s.scrubMay u then s.scrubGroup u (found.toList ++ more) else s)

/-- R363: the lap in progress has run longer than its limit. -/
def execScrubOverdue (u : Nat) (s : State) : Out :=
  guarded (scrubOk u) (
    if s.up && decide (0 < s.scrubBytes u) && decide (s.scrubLimit u < s.tick - (s.scrubOf u).lapStart) then s.setScrub u { s.scrubOf u with overdue := true } else s)

end Sys2Proof.Machine
end

