-- ==== Sys2Proof/Machine/Start.lean ====
section
/-! DEFINITION. A start (17, 18): its conditions, the boot of the MP, the units as they are found, and the publications of the Calico
table. -/

namespace Sys2Proof.Machine

/-! ### The start begins (R392, R393) -/

/-- The clock of the flannel domain by its strap (R437).
DEDUCED: notes/assumptions/70.md. -/
def State.strapClock (s : State) (osc : Bool) : State :=
  if osc then { s with onOsc := true, refclkLost := true } else { s with onOsc := false }

/-- Tick 0 of a start: NV is in effect where VIN lies between 56 V and 62 V (R392), the PWR_ registers of the last sample read 0 until the next
(R395), an envelope forced by temperature is forced still (R439), BOOT_COUNT counts it, DRAM holds nothing known (R261), and the MP and PCIe domains
begin their wake.
DESIGN CHOICE: notes/assumptions/69.md. DEDUCED: notes/assumptions/70.md. -/
def State.beginStart (s : State) (pr : Probe) : State :=
  let s1 := { s with
    up := true, probe := pr, startedAt := s.tick, startPhase := 0, refclkLost := false, nv := s.nv || decide (s.vin ≤ 6200), vin := 0, pin := 0, iin := 0
    bootCount := (s.bootCount + 1) % 2 ^ 32, dramGen := s.dramGen + 1, mem := [], zeroed := []
    hif := s.hif.releaseBalls }
  (((s1.strapClock pr.clkSel).setDom 45 { s1.dom 45 with st := .wakeOff, wakeAt := s.tick }).setDom 46
    { s1.dom 46 with st := .wakeOff, wakeAt := s.tick }).checkEnv

/-- A start may begin: VIN_PG is asserted and VIN lies above 56 V, the reset inputs are released, and no reset sequence is in progress. -/
def State.mayBegin (s : State) : Bool :=
  s.flannelOn && !s.up && s.vinPg && decide (5600 < s.vin) && s.modResetN && s.perstN && decide (s.resetEnds ≤ s.tick)

/-- R392, R393.
DEDUCED: notes/assumptions/68.md. -/
def execModuleStart (pr : Probe) (s : State) : Out :=
  if !pr.wf then .fault .noSuchUnit else event s.mayBegin s (s.beginStart pr)

/-! ### Near stacks (R253) -/

/-- Pseudo-channels of stack `k` that are marked or fail the test, of 0 to 32. -/
def State.badPseudo (s : State) (k : Nat) : List Nat :=
  (List.range 33).filter fun i => (s.probe.stackFails.getD k []).contains i || s.flash.marks.pseudo.contains (k, i)

/-- The stack as a start finds it. -/
def State.foundStack (s : State) (k : Nat) : Stack :=
  let bad := s.badPseudo k
  let w := min 32 (33 - bad.length)
  if w < 24 then { w := 0, bad := bad, spareUsed := !bad.contains 32, state := 2 }
  else { w := w, bad := bad, spareUsed := bad.any (fun i => decide (i < 32)) && !bad.contains 32, state := 0 }

/-- Retired pages of a stack. -/
def State.stackPages (s : State) (k : Nat) : List Nat := s.flash.retired.filter fun p => p / 0x2000000000 == k

/-- The pseudo-channel of the failing location that page `p` of stack `k` was retired for: that of the newest record of an error in the
page, persisted or in the log. -/
def State.failedIn (s : State) (k p : Nat) : Option Nat :=
  (((s.flash.records ++ s.log.slots.map (fun e => e.2)).filter fun r =>
    (r.fid.kind == fkCE || r.fid.kind == fkUE) && r.fid.unit == faultUnit ucNEAR k && decide (p ≤ r.fid.location ∧ r.fid.location < p + 0x10000)).getLast?).map
    (·.phys)

/-- Every retired page of stack `k` leaves the map, each removal logged with the pseudo-channel of the failing location that it came
from; a free value where no record of an error in the page is left. W is noted for the next start.
DEDUCED: notes/assumptions/74.md. -/
def State.removePages (s : State) (k : Nat) : State :=
  let ps := s.stackPages k
  let s1 := ps.foldl (fun s p =>
    let d := s.draw
    d.2.logFault { kind := fkRETIRED_REMOVED, subject := s.node, unit := faultUnit ucNEAR k, location := p } 1 k
      ((s.failedIn k p).getD ((Config.freeWord d.1).toNat % 33))) s
  let f := s1.flash
  let s2 := { s1 with flash := { f.writeMap (f.retired.filter fun p => !ps.contains p) with
    stackW := f.stackW.set 32 k (s1.nearStacks.get {} k : Stack).w } }
  if ps.isEmpty then s2 else s2.calicoDirty

/-- Trains and tests a stack; its W is compared with that of the last start. Removals put off under NV leave that W as it was noted, so
that a start after a reset compares again. -/
def State.startStack (s : State) (k : Nat) : State :=
  let x := s.foundStack k
  let changed := s.flash.stackW.get 32 k != x.w
  let s1 := { s with nearStacks := s.nearStacks.set {} k x }
  if !changed then s1
  else if s.nvHeld then { s1 with deferred := s1.deferred ++ [.removePages k] }
  else s1.removePages k

/-! ### Board channels and far ports (R255, R256, R258, R259) -/

/-- Device width, density and ranks of Table 12.2: x4, 16, 24 or 32 Gb monolithic, 1 or 2 ranks. -/
def channelSupported (c : ChannelProbe) : Bool :=
  c.width == 4 && (c.density == 16 || c.density == 24 || c.density == 32) && !c.stacked && (c.ranks == 1 || c.ranks == 2)

/-- Capacity in GiB (Table 12.2): each rank has 16 data devices. -/
def channelGib (c : ChannelProbe) : Nat := c.ranks * c.density * 2

/-- The rate that BOARD_MT1 and BOARD_MT0 select for every board channel, in MT/s; 0b11 is read as 0b10 (R437). -/
def boardRate (mt : Nat) : Nat := if mt = 0 then 6400 else if mt = 1 then 5600 else 4800

/-- A channel as a start finds it (R256), at the rate that the straps select. -/
def foundChannel (mt : Nat) (c : Option ChannelProbe) : Tier := match c with
  | none => {}
  | some x =>
    if x.agree && x.trains && channelSupported x then { state := 0, size := channelGib x * 2 ^ 30, width := x.ranks, rate := boardRate mt }
    else { state := 2, width := x.ranks }

/-- Usable bytes of a far device. -/
def farUsable (c : Nat) : Nat := min (2 ^ 40) (c * 8 / 9 / 65536 * 65536)

/-- A far port as a start finds it: x4, x8 or x16. -/
def foundFar (c : Option (Nat × Nat × Bool)) : Tier := match c with
  | none => {}
  | some (cap, w, full) =>
    if w = 4 ∨ w = 8 ∨ w = 16 then { state := 0, size := farUsable cap, width := w, degraded := !full } else { state := 2 }

/-- Tier units 8 to 25. -/
def State.startTiers (s : State) : State :=
  { s with tiers := (List.range 18).foldl (fun (m : SMap Tier) i =>
      m.set {} (8 + i) (if i < 16 then foundChannel s.probe.boardMt (s.probe.channels.getD i none) else foundFar (s.probe.far.getD (i - 16) none))) s.tiers }

/-! ### Marks acted on at a start (Table 1.4) -/

/-- A marked engine goes onto the spare, or is absent; of two the lower logical number takes the spare.
DESIGN CHOICE: notes/assumptions/95.md. -/
def State.startEngine (s : State) (e : Nat) : State :=
  if !s.engineMarked e then s
  else
    let free := !s.engineMap.contains (some 4) && !s.flash.marks.engines.contains 4
    { s with engineMap := s.engineMap.set e (if free then some 4 else none) }

/-- Marked clusters, cores and engines are remapped, and the remap tables filled. -/
def State.startMarks (s : State) : State :=
  let s1 := (List.range 512).foldl State.swapCluster s
  let s2 := (List.range 512).foldl State.swapCores s1
  { (List.range 4).foldl State.startEngine s2 with remaps := s2.flash.remaps.map fun r => (r, s2.log.lastSeq) }

/-- Phase 2 of a start: persistence of the log begins, the records are acted on, the units of the module are found, and what Table 17.6 names wakes. -/
def State.unitStart (s : State) : State :=
  let s1 := s.persistStart.actOnRecords true
  let s2 := ((List.range 8).foldl State.startStack s1).startTiers.startMarks
  let ds := (List.range 11).map (47 + ·) ++ ((List.range 2).filter s2.enginePresent).map (40 + ·)
  { s2.wakeAll ds with startPhase := 2 }

/-! ### The boot of the MP (R400, R404, R406) -/

/-- The directory once a slot has booted (R400). -/
def State.directoryAfterBoot (s : State) (booted : Nat) : State :=
  if s.fw.staged = 0xFF then s
  else if s.nv then { s with deferred := s.deferred ++ [.directory] }
  else s.writeDirectory (if booted < 2 then booted else s.fw.active) 0xFF

/-- Carries out what was put off, in order (R381, R405). -/
def State.runDeferred (s : State) : State :=
  s.deferred.foldl (fun s d => match d with
    | .mark r => s.actOn r
    | .directory => s.writeDirectory (if s.fw.bootedSlot < 2 then s.fw.bootedSlot else s.fw.active) 0xFF
    | .removePages k => s.removePages k
    | .persist n => s.persistAll ((s.closedRecords true).filter fun r => decide (s.log.persistSeq < r.seq ∧ r.seq ≤ n))) { s with deferred := [] }

/-- Slot `b` boots: what FWU_STATUS then shows. -/
def State.bootFrom (s : State) (b code : Nat) (fellBack warm : Bool) : State :=
  let f := s.fw
  { s with mpRunning := true, fw := { f with bootedSlot := b, bootResult := code, fellBack := f.fellBack || fellBack, warm := warm } }

/-- The components of a slot. -/
def Firmware.componentsOf (f : Firmware) (b : Nat) : List Nat := match f.slot b with
  | some x => x.components
  | none => [0, 0, 0, 0, 0, 0]

/-- The boot ROM reads the valid copies of the slot directory and of the map of retired pages (R264, R398). -/
def State.readFlash (s : State) : State := { s with fw := s.fw.readDirectory, flash := s.flash.readMap }

/-- A cold boot: firmware runs, and the units start in the next tick. Without a valid slot the MP is held (Table 1.4).
DEDUCED: notes/assumptions/73.md. -/
def State.coldBoot (s : State) : State :=
  let s := s.readFlash
  match s.fw.bootSlot with
  | none => { s with fw := { s.fw with bootResult := s.fw.slotCheck 2 } }
  | some b =>
    let s1 := s.bootFrom b (s.fw.rejectCode b) (s.fw.staged != 0xFF && b != s.fw.staged) false
    { ({ s1 with fw := { s1.fw with versions := s1.fw.componentsOf b } }.directoryAfterBoot b) with startPhase := 1 }

/-- The slot that adopts at a warm restart: the staged firmware, unless it fails its check or its adoption. -/
def Firmware.warmSlot (f : Firmware) (adoptOk : Bool) : Option Nat :=
  let order := if adoptOk then f.bootOrder else f.bootOrder.filter (· != f.staged)
  order.find? fun i => f.slotCheck i == 0

/-- A warm boot: a hand-over block that disagrees with the live registers is a fatal error; else firmware adopts it and goes on.
DEDUCED: notes/assumptions/71.md. -/
def State.warmBoot (s : State) (adoptOk : Bool) : State :=
  match s.handoverFault with
  | some off => (s.logFatal ({ kind := fkUE, subject := s.node, unit := 0, location := off }, 0xFFFF, 0)).fatalReset 1
  | none =>
    let s := { s with fw := s.fw.readDirectory }
    match s.fw.warmSlot adoptOk with
    | none => { s with mpRunning := false, fw := { s.fw with restarting := false, busy := false, bootResult := s.fw.slotCheck 2 } }
    | some b =>
      let s1 := s.bootFrom b (s.fw.rejectCode b) (b != s.fw.staged) true
      let s2 := { s1 with
        handover := none
        fw := { s1.fw with restarting := false, busy := false, done := true, result := fwOK, adoptedAt := s.tick } }
      let s3 := (s2.directoryAfterBoot b).planReload (s2.fw.componentsOf b)
      ((if s3.nv then s3 else s3.runDeferred).calicoDirty).attn atOP_DONE

/-- R400, R404. `adoptOk`: the staged firmware adopts the hand-over block (R406).
DEDUCED: notes/assumptions/72.md. -/
def execMpBoot (adoptOk : Bool) (s : State) : Out :=
  if s.fw.restarting then .next (s.warmBoot adoptOk)
  else event (s.up && s.domOn 45 && !s.mpRunning && s.startPhase == 0) s s.coldBoot

/-! ### Publications (R40 to R43) -/

/-- A domain of the list is on its way up. -/
def State.waking (s : State) (d : Nat) : Bool := (s.dom d).st == .wakeOff || (s.dom d).st == .wakeRetain

/-- The units named by Table 17.6 have all started. -/
def State.unitsStarted (s : State) : Bool := ((List.range 18).map (40 + ·)).all fun d => d == 45 || d == 46 || !s.waking d

/-- A publication is due: the first of a start, or that of a change, GENERATION having been even before this tick (R43). -/
def State.publishDue (s : State) : Bool :=
  s.mpRunning && !s.fw.restarting && s.calico.generation % 2 == 0 &&
    ((s.startPhase == 2 && s.calico.generation == 0 && s.unitsStarted && (s.nvHeld || !s.log.persistBusy)) ||
      (s.calico.dirty && decide (3 ≤ s.startPhase) && decide (s.calico.evenTick < s.tick)))

/-- R42: GENERATION turns odd, and the table takes the changes made up to now. -/
def execCalicoRepublish (s : State) : Out :=
  event s.publishDue s { s with calico := { s.calico with generation := s.calico.generation + 1, dirty := false, view := some s.calicoNow } }

end Sys2Proof.Machine
end

