-- ==== Sys2Proof/Machine/Loss.lean ====
section
/-! DEFINITION. Lost links (13): their declaration, beacons (16), the transactions and collectives that they end or hold, and the
writes of LNK_STATUS and LNK_CTRL. -/

namespace Sys2Proof.Machine

/-! ### Beacons (R373 to R375) -/

/-- What a beacon carries from payload offset 0x20: ORIGIN, declaring port and node, the origin's TICK. -/
structure BeaconData where
  fid : FaultId
  origin : Nat
  port : Nat
  node : Nat
  tick : Nat

def BeaconData.ofPacket (k : Packet) : BeaconData :=
  { fid := faultIdOf k.hdr, origin := field k.data 0 2, port := field k.data 2 1, node := field k.data 4 2, tick := field k.data 8 8 }

/-- Sends a beacon by port `q` to the neighbour there. `cls` of a beacon that waits to leave names that port plus 1: the management
VC has no class (R284). -/
def State.sendBeacon (s : State) (q : Nat) (x : BeaconData) : State :=
  match s.topo.neighbour q with
  | some n => s.send
      { s.packet n kBEACON s.epochNow 0 (faultIdBytes x.fid)
          (leBytes 2 x.origin ++ leBytes 1 x.port ++ leBytes 1 0 ++ leBytes 2 x.node ++ leBytes 2 0 ++ leBytes 8 x.tick) with cls := q + 1 }
  | none => s

/-- Sends a beacon by every UP port but `p`. -/
def State.sendBeacons (s : State) (p : Nat) (x : BeaconData) : State :=
  ((List.range 8).filter fun q => q != p && (s.port q).st == pUP).foldl (fun s q => s.sendBeacon q x) s

/-! ### What a lost link ends (R282, R293, R322) -/

/-- A transaction's request or response crosses the link (R293). -/
def State.crosses (s : State) (link : Nat × Nat) (t : Txn) : Bool :=
  (s.topo.route s.node t.dst).contains link || (s.topo.route t.dst s.node).contains link

/-- Every outstanding transaction that crosses the link fails with NODE_LOST. One whose packet is queued and not started is turned
instead (R285). -/
def State.failLink (s : State) (link : Nat × Nat) : State :=
  (s.txns.filter fun t => !t.queued && s.crosses link t).foldl (fun s t => s.respond t.txn stNODE_LOST 0 0 []) s

/-- The module has already heard of this loss: it knows a declaration of the link within a telemetry window of this one.
DEDUCED: notes/assumptions/98.md. -/
def State.knowsLoss (s : State) (link : Nat × Nat) (t : Nat) : Bool :=
  s.lostLinks.any fun e => e.1 == link && decide (e.2 < t + 25000) && decide (t < e.2 + 25000)

/-- Notes a loss declared at tick `t`. -/
def State.noteLoss (s : State) (link : Nat × Nat) (t : Nat) : State :=
  { s with lostLinks := s.lostLinks.filter (fun e => e.1 != link) ++ [(link, t)] }

/-- The module learns of a lost link from a beacon: once for each loss (R293). -/
def State.learnLoss (s : State) (link : Nat × Nat) (t : Nat) : State :=
  if s.knowsLoss link t then s else (s.noteLoss link t).failLink link

/-- The holding module of roots and the sender of reservations is lost. -/
def State.dropHolder (s : State) (n : Nat) : State :=
  ({ s with factors := s.factors.map fun (e : Nat × Factor) =>
      (e.1, { e.2 with holds := e.2.holds.filter fun h => h.2.1 != n, reserved := e.2.reserved.filter fun r => r.src != n }) }).retryLocal

/-- What this module does for a partner once every link to it is lost. -/
def State.losePartner (s : State) (n : Nat) : State := if s.partnerLost n then (s.holdLost).dropHolder n else s

/-! ### The declaration (R291, R292) -/

/-- Causes of Table 13.8. -/
def lcSILENCE : Nat := 1
def lcLOS : Nat := 2
def lcREPLAY : Nat := 3
def lcLANES : Nat := 4

/-- A port whose link is lost. -/
def Port.lose (x : Port) (cause : Nat) : Port :=
  { x with
    st := pDOWN, lost := true, cause := cause, width := 0, timeLocked := false, lockRun := 0, replay := [], rxPart := [], rotation := none
    rotateNext := [], failedDuring := [], actions := [], nakDue := none, resend := [], widthNext := none, widening := none, badAt := [] }

/-- The LINK_LOSS record, and its beacon when the record is a new one with ROLE PRIMARY. -/
def State.logLoss (s : State) (p cause partner : Nat) : State :=
  let f : FaultId := { kind := fkLINK_LOSS, subject := partner, unit := 0, location := 0 }
  let s1 := s.logFault f 2 0xFFFF (cause + p * 256) true
  if (s.faultSlot f).isSome then s1
  else match (s1.faultSlot f).bind (SMap.find? s1.log.slots) with
    | some r => if r.role = 1 then s1.sendBeacons p { fid := f, origin := s.node, port := p, node := s.node, tick := r.tick } else s1
    | none => s1

/-- Port `p` declares its link lost. -/
def State.declareLost (s : State) (p cause : Nat) : State :=
  let n := (s.topo.neighbour p).getD 0xFFFF
  let s1 := ((s.setPort p ((s.port p).lose cause)).attn atLINK).logLoss p cause n
  let link := s.topo.portLink s.node p
  (((s1.losePartner n).noteLoss link s.tick).failLink link).advance

/-! ### LNK_STATUS and LNK_CTRL (Tables 13.8, 13.9) -/

/-- The module's port registers accept writes while the L-tile is on. -/
def State.portOn (s : State) (p : Nat) : Bool := s.domOn (32 + p)

/-- W1C of LOST and TIME_FAULT. A HELD port whose LOST clears carries data again (R287); one that is DOWN stays so, and packets for it wait there.
DESIGN CHOICE: notes/assumptions/135.md. -/
def State.writeLnkStatus (s : State) (p : Nat) (w : Wr) : State :=
  let x := s.port p
  if !s.portOn p then s
  else
    s.setPort p
      { x with
        lost := x.lost && !w.sets 3, timeFault := x.timeFault && !w.sets 14
        st := if w.sets 3 ∧ x.lost ∧ x.st = pHELD then pUP else x.st }

/-- Completes the collectives held on port `p` with NODE_LOST (R292); the FINAL ends its switch attempt (R356). -/
def State.releaseHeld (s : State) (p : Nat) : State :=
  ((s.heldBy p).foldl (fun s d =>
    let s1 : State := { s with txns := s.txns.filter fun t => t.use != .desc d.id }
    if dType d.bytes = tyPERMUTE then s1.endAttempt 3 stNODE_LOST 0
    else
      let s2 := if dType d.bytes = tyRACC then { s1 with grad := { s1.grad with passes := s1.grad.passes.erase (Rc.bucket d.bytes) } } else s1
      s2.setWork d.id (.done stNODE_LOST (s.flagsSoFar d) 0)) s).advance

/-- Logical lane `l` joins the lanes named for calibration (R294). -/
def Port.nameLane (x : Port) (l : Nat) : Port := if x.rotateNext.contains l then x else { x with rotateNext := x.rotateNext ++ [l] }

/-- Puts logical lane `l` next for calibration at the master, or asks the master for it (R294). -/
def State.calibrateNext (s : State) (p l : Nat) : State :=
  if p % 2 = 0 then s.setPort p ((s.port p).nameLane l) else s.queueAction p { code := 5, arg0 := l, arg1 := 0 }

/-- RETRAIN (R286). -/
def State.retrain (s : State) (p : Nat) : State :=
  let x := s.port p
  if s.portUsed p && (x.st == pDOWN || x.st == pMISMATCH) then s.train p else s

/-- A write of LNK_CTRL. -/
def State.writeLnkCtrl (s : State) (p : Nat) (w : Wr) : State :=
  if !s.portOn p then s
  else
    let x := s.port p
    let lane := w.upd 1 4 x.ctlLane
    let s1 := s.setPort p { x with ctlLane := lane }
    let s2 := if w.sets 0 then s1.calibrateNext p lane else s1
    let s3 := if w.sets 5 then s2.releaseHeld p else s2
    if w.sets 6 then s3.retrain p else s3

/-- R294. -/
def execCalNow (p : Nat) (w : Wr) (s : State) : Out := guarded (portOk p) (s.bar0 (if w.sets 0 then s.writeLnkCtrl p w else s))

/-- R292. -/
def execReleaseHeld (p : Nat) (w : Wr) (s : State) : Out := guarded (portOk p) (s.bar0 (if w.sets 5 then s.writeLnkCtrl p w else s))

/-- R286. -/
def execRetrain (p : Nat) (w : Wr) (s : State) : Out := guarded (portOk p) (s.bar0 (if w.sets 6 then s.writeLnkCtrl p w else s))

/-- R287. -/
def execLostClear (p : Nat) (w : Wr) (s : State) : Out := guarded (portOk p) (s.bar0 (if w.sets 3 then s.writeLnkStatus p w else s))

/-! ### Beacons that arrive (R374, R375) -/

/-- Remembers a FAULT_ID until the end of the window after this one.
DEDUCED: notes/assumptions/62.md. -/
def State.seeFault (s : State) (f : FaultId) (origin : Nat) : State :=
  let till := (windowOf s.tick + 2) * 25000
  let l := s.log
  let held := l.seen.filter fun e => e.1 != f || decide (s.tick < e.2.2)
  let seen := if held.any (·.1 == f) then held.map fun e => if e.1 = f then (e.1, e.2.1, till) else e else held ++ [(f, origin, till)]
  { s with log := { l with seen := seen } }

/-- A beacon of this module's own for fault `f` that has not left yet. -/
def State.ownBeacon (s : State) (f : FaultId) (k : Packet) : Bool :=
  k.kind == kBEACON && (BeaconData.ofPacket k).fid == f && (BeaconData.ofPacket k).origin == s.node

/-- Of two PRIMARY records of one window the lower pair of TICK and rank stays; this module's turns CONFIRM otherwise, and its
own beacon is forwarded no more: copies that wait to leave are dropped with it. -/
def State.settlePrimary (s : State) (x : BeaconData) : State :=
  match s.faultSlot x.fid with
  | none => s
  | some i => match SMap.find? s.log.slots i with
    | none => s
    | some r =>
      let theirs := s.topo.rank x.origin
      let mine := s.topo.rank s.node
      let lower := decide (x.tick < r.tick) || (x.tick == r.tick && decide (theirs < mine))
      if r.role = 1 ∧ x.origin ≠ s.node ∧ lower then
        { s with egress := s.egress.filter fun k => !s.ownBeacon x.fid k, log := { s.log with
          slots := SMap.put s.log.slots i { r with role := 2, origin := x.origin }
          silenced := s.log.silenced.filter (fun e => e != (x.fid, windowOf r.tick)) ++ [(x.fid, windowOf r.tick)] } }
      else s

/-- Forwards a beacon once for each FAULT_ID and ORIGIN in a window; its own, for a record that turned CONFIRM, no more, whenever it comes back
(R375).
DEDUCED: notes/assumptions/62.md. -/
def State.forwardBeacon (s : State) (p : Nat) (x : BeaconData) : State :=
  let w := windowOf s.tick
  let mine := x.origin == s.node && s.log.silenced.contains (x.fid, windowOf x.tick)
  if s.log.forwarded.contains (x.fid, x.origin, w) || mine then s
  else
    let s1 : State := { s with log := { s.log with forwarded := s.log.forwarded.filter (fun e => e.2.2 == w) ++ [(x.fid, x.origin, w)] } }
    s1.sendBeacons p x

/-- R374, R375, R293. -/
def execBeacon (p : Nat) (k : Packet) (s : State) : Out :=
  if !(portOk p && k.wf) then .fault .noSuchUnit
  else
    let x := BeaconData.ofPacket k
    event (s.up && k.kind == kBEACON && s.arrived.contains k) s
      ((((((s.take k).settlePrimary x).seeFault x.fid x.origin).forwardBeacon p x).learnLoss (s.topo.portLink x.node x.port) x.tick).advance.returnSlots)

/-- R374. -/
def execBeaconSeenExpiry (i : FaultId) (s : State) : Out :=
  .next { s with log := { s.log with seen := s.log.seen.filter fun e => !(e.1 == i && decide (e.2.2 ≤ s.tick)) } }

end Sys2Proof.Machine
end

