-- ==== Sys2Proof/Machine/Gauze.lean ====
section
/-! DEFINITION. Gauze flits, lanes and packets on the move (13): what a port receives and sends, its lane actions, calibration and
failures, training, telemetry, and the forwarding of packets. -/

namespace Sys2Proof.Machine

/-! ### Data flits (R273 to R275, R278) -/

/-- Flits that each credit count starts with: request and collective 1,024 for each class, response 512, management 128 (R278). -/
def bufferSizes : List Nat := [1024, 1024, 512, 512, 1024, 1024, 128]

/-- Adds `n` to entry `i` of a list of counts modulo 2^16. -/
def addAt (l : List Nat) (i n : Nat) : List Nat := l.set i ((l.getD i 0 + n) % 65536)

/-- A NAK for the expected SEQ falls due, unless one was sent within 25 ticks.
DEDUCED: notes/assumptions/59.md. -/
def Port.nakNow (x : Port) (tick : Nat) : Port :=
  let recent := match x.nakAt with
    | some (q, t) => q == x.rxSeq && decide (tick < t + 25)
    | none => false
  if recent then x else { x with nakDue := some x.rxSeq }

/-- The counts move to the window of `tick` (R298). -/
def Port.roll (x : Port) (tick : Nat) : Port :=
  if x.telNow.win = windowOf tick then x else { x with telLast := x.telNow, telNow := { win := windowOf tick } }

/-- Adds to the counts of the window of `tick`: data flits sent and accepted, ticks stalled, packets turned. -/
def Port.tally (x : Port) (tick tx rx stall turned : Nat) : Port :=
  let y := x.roll tick
  let c := y.telNow
  { y with telNow := { c with tx := c.tx + tx, rx := c.rx + rx, stall := c.stall + stall, turned := c.turned + turned } }

/-- A flit is accepted in order: its payload joins its packet, which arrives with its TAIL and holds its buffer slots until it has left.
DEDUCED: notes/assumptions/59.md. -/
def State.acceptFlit (s : State) (p : Nat) (b : Bytes) : State :=
  let x := (s.port p).tally s.tick 0 1 0 0
  let ix := creditIx (flVc b) (flClass b)
  let part := (if flHead b then [] else x.rxPart.get [] ix) ++ [(b.drop 3).take 58]
  let y := { x with rxSeq := (x.rxSeq + 1) % 65536, nakDue := none }
  if flTail b then
    let k := s.asQueued p (pkOfWire (flClass b) part.flatten)
    (s.setPort p { y with rxPart := y.rxPart.set [] ix [], holding := y.holding ++ [(k, ix, part.length)] }).arrive k
  else s.setPort p { y with rxPart := y.rxPart.set [] ix part }

/-- Uncorrectable codeword number `c` of physical lane `i` (R295): it counts once, with the first of its flits, and the codewords of the last
25 ticks are kept.
DEDUCED: notes/assumptions/61.md. -/
def Port.badCodeword (x : Port) (i c tick : Nat) : Port :=
  let recent := x.badAt.filter fun e => decide (tick < e.2.2 + 25)
  if recent.any fun e => e.1 == i && e.2.1 == c then x
  else { x with fecUncorr := min (x.fecUncorr + 1) 0xFFFF, badAt := recent ++ [(i, c, tick)] }

/-- Four of them on one lane. -/
def Port.laneGivesUp (x : Port) (i : Nat) : Bool := decide (4 ≤ (x.badAt.filter fun e => e.1 == i).length) && (x.lane i).st != 3

/-- A data flit at a port. `bad`: the physical lane of the uncorrectable codeword in which it lies, and its number there. A HELD port carries
no data (R287).
DEDUCED: notes/assumptions/61.md. -/
def State.receiveData (s : State) (p : Nat) (b : Bytes) (bad : Option (Nat × Nat)) : State :=
  let x := s.port p
  let crcOk := flitCrcOk b && flKind b != 3
  let x0 : Port :=
    { x with lastValid := if crcOk then s.tick else x.lastValid, crcFail := if crcOk then x.crcFail else min (x.crcFail + 1) 0xFFFF }
  let x1 := match bad with
    | some e => x0.badCodeword e.1 e.2 s.tick
    | none => x0
  let s1 := s.setPort p x1
  if x.st ≠ pUP then s1
  else if crcOk && bad.isNone && flSeq b == x.rxSeq then s1.acceptFlit p b
  else s.setPort p (x1.nakNow s.tick)

/-- A valid idle flit. One that fails its CRC is counted. -/
def State.receiveIdle (s : State) (p : Nat) (b : Bytes) : State :=
  let x := s.port p
  s.setPort p (if flitCrcOk b then { x with lastValid := s.tick } else { x with crcFail := min (x.crcFail + 1) 0xFFFF })

/-! ### Failed lanes (R19, R295, R296) -/

/-- Lane failures found during a rotation wait for its end: a physical lane, or 32 plus the logical lane that the partner named. -/
def partnerFailed : Nat := 32

/-- After a lane has failed: the port narrows or is lost, and a changed map is due for publication. -/
def State.afterFailure (s old : State) (p : Nat) : State :=
  let x := s.port p
  if x.active = 0 then (s.declareLost p lcLANES).dirtyIfLanes old p
  else
    let w := min x.width (s.widthNow x)
    let s1 := if w < x.width then (s.setPort p (x.setWidth w)).queueAction p { code := 4, arg0 := w, arg1 := 0 } else s
    s1.dirtyIfLanes old p

/-- This end's receiver declares physical lane `i` failed. -/
def State.laneFails (s : State) (p i : Nat) : State :=
  let x := s.port p
  if (x.lane i).st = 3 then s
  else
    let l := (x.lane i).logical
    let y := x.failLane i
    let s1 := (s.setPort p { y with laneFails := min (y.laneFails + 1) 0xFFFF }).logFault
      { kind := fkLANE_FAIL, subject := s.node, unit := faultUnit ucPORT p, location := i } 2 p l
    (if l = 0x1F then s1 else s1.queueAction p { code := 3, arg0 := l, arg1 := 0 }).afterFailure s p

/-- The partner has declared the carrier of logical lane `l` failed. -/
def State.laneFailsThere (s : State) (p l : Nat) : State :=
  let x := s.port p
  match x.carrier l with
  | none => s
  | some i =>
    let y := x.failLane i
    (s.setPort p { y with laneFails := min (y.laneFails + 1) 0xFFFF }).afterFailure s p

/-- A failure that the end of a rotation lets be handled. -/
def State.handleFailure (s : State) (p e : Nat) : State :=
  if e < partnerFailed then s.laneFails p e else s.laneFailsThere p (e - partnerFailed)

/-- Handles a failure now, or after the rotation that runs.
DEDUCED: notes/assumptions/61.md. -/
def State.noteFailure (s : State) (p e : Nat) : State :=
  let x := s.port p
  if x.rotation.isNone then s.handleFailure p e
  else if x.failedDuring.contains e then s
  else s.setPort p { x with failedDuring := x.failedDuring ++ [e] }

/-! ### Rotations and lane actions (R294, R297, Table 13.7) -/

/-- A change of W; during a rotation it waits for its end (R297). An end that cannot take the width asked for says so.
DEDUCED: notes/assumptions/60.md. -/
def State.restripe (s : State) (p w : Nat) : State :=
  let x := s.port p
  if x.rotation.isSome then s.setPort p { x with widthNext := some w }
  else
    let v := min w (s.widthNow x)
    let s1 := s.setPort p { x.setWidth v with widthNext := none, widening := if v < s.widthNow x then x.widening else none }
    if v < w then s1.queueAction p { code := 4, arg0 := v, arg1 := 0 } else s1

/-- WIDTH from the partner. A width that neither end's LANES_OK nor this end's lanes explain tells the partner's ACTIVE_LANES (R271).
DEDUCED: notes/assumptions/60.md. -/
def State.takeWidth (s : State) (p w : Nat) : State :=
  let x := s.port p
  (if w = 8 ∧ x.width = 16 ∧ s.widthNow x = 16 then s.setPort p { x with partnerActive := 8 } else s).restripe p w

/-- W may rise: the lanes to be added begin to adapt, at the word of the calibration master.
DEDUCED: notes/assumptions/60.md. -/
def State.widen (s : State) (p : Nat) : State :=
  let x := s.port p
  if p % 2 == 0 && x.alive && x.rotation.isNone && x.widening.isNone && decide (x.width < s.widthNow x) then
    s.setPort p { x with widening := some (s.widthNow x) }
  else s

/-- The added lanes have adapted: the master sends WIDTH, and both ends restripe. -/
def State.endWidening (s : State) (p w : Nat) : State :=
  let x := s.port p
  let v := min w (s.widthNow x)
  if x.width < v then (s.setPort p { x with widening := none }).queueAction p { code := 4, arg0 := v, arg1 := 0 }
  else s.setPort p { x with widening := none }

/-- A rotation ends: p is free again, and what waited for it goes on. -/
def State.endRotation (s : State) (p : Nat) : State :=
  let x := s.port p
  let s1 := s.setPort p { x with rotation := none, failedDuring := [] }
  let s2 := x.failedDuring.foldl (fun s e => s.handleFailure p e) s1
  let y := s2.port p
  if y.alive then s2.restripe p (y.widthNext.getD y.width) else s2

/-- MOVE: both transmitters send the lane on both physical lanes, and this receiver switches and says so. -/
def State.doMove (s : State) (p lane phys : Nat) : State :=
  let x := s.port p
  let moved : Action := { code := 2, arg0 := lane, arg1 := 0 }
  match x.rotation with
  | none => match x.carrier lane with
    | some old => (s.setPort p { x with rotation := some { logical := lane, old := old, new := phys, phase := 2 } }).queueAction p moved
    | none => s
  | some r =>
    if r.logical = lane ∧ r.phase = 3 ∧ phys = r.old then (s.setPort p { x with rotation := some { r with phase := 4 } }).queueAction p moved
    else s

/-- MOVED: the partner's receiver has switched; the old lane is freed and adapts, or the rotation ends. -/
def State.doMoved (s : State) (p lane : Nat) : State :=
  let x := s.port p
  match x.rotation with
  | some r =>
    if r.logical ≠ lane then s
    else if r.phase = 2 then s.setPort p { x with rotation := some { r with phase := 3 } }
    else if r.phase = 4 then s.endRotation p
    else s
  | none => s

/-- DRIFT puts a lane next at the master.
DEDUCED: notes/assumptions/61.md. -/
def State.doDrift (s : State) (p lane : Nat) : State :=
  if p % 2 = 0 then s.setPort p ((s.port p).nameLane lane) else s

/-- A lane action (Table 13.3). -/
def State.laneAction (s : State) (p code a0 a1 : Nat) : State :=
  match code with
  | 1 => s.doMove p a0 a1
  | 2 => s.doMoved p a0
  | 3 => s.noteFailure p (partnerFailed + a0)
  | 4 => s.takeWidth p a0
  | 5 => s.doDrift p a0
  | _ => s

/-- R294. -/
def execMove (p lane phys : Nat) (s : State) : Out :=
  guarded (portOk p && laneOk lane && physOk phys) (if (s.port p).alive then s.doMove p lane phys else s)

/-- R294. -/
def execMoved (p lane : Nat) (s : State) : Out := guarded (portOk p && laneOk lane) (if (s.port p).alive then s.doMoved p lane else s)

/-- R295. -/
def execFailed (p lane : Nat) (s : State) : Out :=
  guarded (portOk p && laneOk lane) (if (s.port p).alive then s.noteFailure p (partnerFailed + lane) else s)

/-- R297. -/
def execWidth (p w : Nat) (s : State) : Out :=
  guarded (portOk p && (w == 4 || w == 8 || w == 16)) (if (s.port p).alive then s.takeWidth p w else s)

/-- R294. -/
def execDrift (p lane : Nat) (s : State) : Out := guarded (portOk p && laneOk lane) (if (s.port p).alive then s.doDrift p lane else s)

/-- The master may rotate a lane now: its time has come or a lane is named, calibration is enabled and a free trained lane exists. -/
def State.rotationDue (s : State) (p : Nat) : Bool :=
  let x := s.port p
  p % 2 == 0 && x.alive && x.rotation.isNone && x.widening.isNone && s.calEnabled p && !(x.lanesIn 1).isEmpty &&
    (!x.rotateNext.isEmpty || decide (x.lastRotation + 2500000 ≤ s.tick))

/-- Phase 1 of a rotation, at the master.
DEDUCED: notes/assumptions/60.md. -/
def State.rotate (s : State) (p : Nat) : State :=
  let x := s.port p
  let i := x.rotateNext.headD (if x.nextLane < x.width then x.nextLane else 0)
  let next := if x.rotateNext.isEmpty then (i + 1) % max 1 x.width else x.nextLane
  let y := { x with rotateNext := x.rotateNext.drop 1, lastRotation := s.tick, nextLane := next }
  match x.carrier i, (x.lanesIn 1).head? with
  | some old, some new =>
    ((s.setPort p { y with rotation := some { logical := i, old := old, new := new, phase := 2 } }).queueAction p
      { code := 1, arg0 := i, arg1 := new }).queueAction p { code := 2, arg0 := i, arg1 := 0 }
  | _, _ => s.setPort p y

/-- R294. -/
def execCalRotation (p : Nat) (s : State) : Out := guarded (portOk p) (if s.rotationDue p then s.rotate p else s)

/-- The freed lane has adapted: the master moves the stream back. -/
def State.moveBack (s : State) (p : Nat) : State :=
  let x := s.port p
  match x.rotation with
  | some r =>
    if p % 2 = 0 ∧ r.phase = 3 then
      ((s.setPort p { x with rotation := some { r with phase := 4 } }).queueAction p { code := 1, arg0 := r.logical, arg1 := r.old }).queueAction p
        { code := 2, arg0 := r.logical, arg1 := 0 }
    else s
  | none => s

/-- The lanes of a rotation, or those of a widening, have adapted. -/
def State.adaptEnds (s : State) (p : Nat) : State :=
  let x := s.port p
  match x.rotation, x.widening with
  | none, some w => s.endWidening p w
  | _, _ => s.moveBack p

/-- R294, R297. -/
def execLaneAdaptEnd (p : Nat) (s : State) : Out := guarded (portOk p) (if (s.port p).alive then s.adaptEnds p else s)

/-- R295, R19. -/
def execLaneFailureDetect (p phys : Nat) (s : State) : Out :=
  guarded (portOk p && physOk phys) (if (s.port p).alive && ((s.port p).lane phys).st != 3 then s.noteFailure p phys else s)

/-- Four uncorrectable codewords within 25 ticks declare the lane failed. -/
def State.failsOnCodewords (s : State) (p : Nat) (bad : Option (Nat × Nat)) : State :=
  match bad with
  | some e => if (s.port p).alive && (s.port p).laneGivesUp e.1 then s.noteFailure p e.1 else s
  | none => s

/-- A control or idle flit lies in an uncorrectable codeword of lane `bad`. The flit counts as valid where it passes its CRC (R277). -/
def State.noteCodeword (s : State) (p : Nat) (bad : Option (Nat × Nat)) : State :=
  match bad with
  | some e => s.setPort p ((s.port p).badCodeword e.1 e.2 s.tick)
  | none => s

/-- R277, R295. A valid flit of another KIND is not this row's. -/
def execIdleFlitReceive (p : Nat) (s : State) (flit : Bytes := []) (badLane : Option (Nat × Nat) := none) : Out :=
  if !(portOk p && flit.length == 64 && badLane.all fun e => physOk e.1) then .fault .noSuchUnit
  else event ((s.port p).alive && (flKind flit == 2 || !flitCrcOk flit)) s
    (((s.noteCodeword p badLane).receiveIdle p flit).failsOnCodewords p badLane)

/-- R275, R295. A flit of another KIND is not this row's. -/
def execDataFlitReceive (p : Nat) (flit : Bytes) (badLane : Option (Nat × Nat)) (s : State) : Out :=
  if !(portOk p && flit.length == 64 && badLane.all fun e => physOk e.1) then .fault .noSuchUnit
  else event ((s.port p).alive && (flKind flit == 0 || flKind flit == 3 || !flitCrcOk flit)) s
    ((s.receiveData p flit badLane).failsOnCodewords p badLane)

/-- A drift alarm on physical lane `i`: its flag, and a DRIFT action for the lane that it carries. -/
def State.driftAlarm (s : State) (p i : Nat) : State :=
  let x := s.port p
  let l := (x.laneShown i).logical
  let s1 := s.setPort p (x.setLane i { x.lane i with drift := true })
  if l = 0x1F then s1 else (s1.doDrift p l).queueAction p { code := 5, arg0 := l, arg1 := 0 }

/-- R294: the margin of a lane falls below 32. -/
def execDriftAlarm (p phys margin : Nat) (s : State) : Out :=
  guarded (portOk p && physOk phys) (
    let x := s.port p
    if x.alive && decide (margin < 32) then (s.setPort p (x.setLane phys { x.lane phys with margin := margin })).driftAlarm p phys else s)

/-! ### Control flits (R276 to R278, R289, Table 13.3) -/

/-- ACK_SEQ frees replay entries up to and including it. -/
def Port.acked (x : Port) (a : Nat) : Port :=
  let kept := x.replay.dropWhile fun f => decide ((a + 65536 - f.seq) % 65536 < 32768)
  { x with
    replay := kept, resend := x.resend.filter kept.contains, ackedOut := a, nakRepeat := if kept.length < x.replay.length then (0, 0) else x.nakRepeat }

/-- Data flits go on the line: they are counted (R298). -/
def Port.sends (x : Port) (tick : Nat) (fs : List Flit) : Port :=
  let y := x.tally tick fs.length 0 0 0
  { y with line := y.line ++ fs.map Flit.bytes }

/-- A NAK is acted on: every unacknowledged flit from NAK_SEQ onward is to be sent again, in order (R275). The eighth for one SEQ says so. -/
def Port.naked (x : Port) (q : Nat) : Port × Bool :=
  let n := if x.nakRepeat.2 ≠ 0 ∧ x.nakRepeat.1 = q then x.nakRepeat.2 + 1 else 1
  ({ x with resend := x.replay.dropWhile fun f => f.seq != q, replays := min (x.replays + 1) 0xFFFF, nakRepeat := (q, n) }, decide (8 ≤ n))

/-- Credits of Table 13.3: buffer sizes plus what the partner has freed. -/
def creditsOf (c : List Nat) : List Nat := (bufferSizes.zip ((List.range 7).map fun i => c.getD i 0)).map fun e => (e.1 + e.2) % 65536

/-- The action that goes next: a WIDTH waits for a rotation (R297). -/
def Port.nextAction (x : Port) : Option Action := x.actions.find? fun a => a.code != 4 || x.rotation.isNone

/-- A control flit is due (R277). -/
def State.controlDue (s : State) (p : Nat) : Bool :=
  let x := s.port p
  decide (x.lastCtlSent + 25 ≤ s.tick) || decide (512 ≤ (x.rxSeq + 65536 - x.ackTold) % 65536) || x.nakDue.isSome || x.nextAction.isSome ||
    (x.freedRx.zip x.freedTold).any fun e => decide (256 ≤ (e.1 + 65536 - e.2) % 65536)

/-- The flits that a NAK asks for go on the line, behind a control flit that is due (R277). -/
def State.sendAgain (s : State) (p : Nat) : State :=
  let x := s.port p
  if s.controlDue p || x.resend.isEmpty then s else s.setPort p { x.sends s.tick x.resend with resend := [] }

/-- A valid control flit at a port that exchanges them. -/
def State.receiveControl (s : State) (p : Nat) (c : CtlFlit) : State :=
  let x := s.port p
  let x1 := { x with lastValid := s.tick, partnerLanes := c.lanesOk }
  if !x.alive then (s.setPort p x1).exchange p c
  else
    let x2 := { x1.acked c.ackSeq with creditTx := creditsOf c.credit }
    let x3 := match c.nak with
      | some q => x2.naked q
      | none => (x2, false)
    let s1 := ((s.setPort p x3.1).exchange p c).sendAgain p
    if x3.2 then s1.declareLost p lcREPLAY
    else if c.action = 0 ∨ x.actionIn = some c.actionId then s1.widen p
    else ((s1.setPort p { s1.port p with actionIn := some c.actionId }).laneAction p c.action c.arg0 c.arg1).widen p

/-- A flit that fails its CRC is counted and discarded, with no NAK (R275). -/
def State.controlOrFail (s : State) (p : Nat) (b : Bytes) : State :=
  if flitCrcOk b then s.receiveControl p (CtlFlit.ofBytes b) else s.setPort p { s.port p with crcFail := min ((s.port p).crcFail + 1) 0xFFFF }

/-- R275, R276, R278, R289, R295. A valid flit of another KIND is not this row's.
DEDUCED: notes/assumptions/59.md. -/
def execControlFlitReceive (p : Nat) (flit : Bytes) (badLane : Option (Nat × Nat)) (s : State) : Out :=
  if !(portOk p && flit.length == 64 && badLane.all fun e => physOk e.1) then .fault .noSuchUnit
  else event (((s.port p).alive || (s.port p).st == pTRAINING) && (flKind flit == 1 || !flitCrcOk flit)) s
    (((s.noteCodeword p badLane).controlOrFail p flit).failsOnCodewords p badLane)

/-- The control flit that the port sends now. -/
def State.controlFlit (s : State) (p : Nat) : CtlFlit :=
  let x := s.port p
  let a := x.nextAction.getD { code := 0, arg0 := 0, arg1 := 0 }
  { action := a.code, arg0 := a.arg0, arg1 := a.arg1, actionId := if a.code = 0 then x.actionOut else (x.actionOut + 1) % 256
    ackSeq := (x.rxSeq + 65535) % 65536, nak := x.nakDue, timeLocked := x.timeLocked, lanesOk := s.lanesOk, node := s.node
    podId := s.topo.podId, credit := x.freedRx, txTime := s.localTime % 2 ^ 64, echoTime := x.lastTxTime, echoRx := x.lastRxTime, port := p }

/-- Sends it. The end that sends WIDTH restripes (R297). -/
def State.sendControl (s : State) (p : Nat) : State :=
  let x := s.port p
  let c := s.controlFlit p
  let s1 := s.setPort p
    { x with
      sent := some c, line := x.line ++ [c.bytes], lastCtlSent := s.tick, ackTold := x.rxSeq, nakDue := none
      nakAt := match x.nakDue with
        | some q => some (q, s.tick)
        | none => x.nakAt
      freedTold := x.freedRx, actionOut := c.actionId
      actions := match x.nextAction with
        | some a => x.actions.erase a
        | none => x.actions }
  (if c.action = 4 then s1.restripe p c.arg0 else s1).sendAgain p

/-- R277. -/
def execControlFlitSend (p : Nat) (s : State) : Out :=
  guarded (portOk p) (if ((s.port p).alive || (s.port p).st == pTRAINING) && s.controlDue p then s.sendControl p else s)

/-! ### Losses and timeouts (R291, R293) -/

/-- A valid flit reaches port `p` with this command. -/
def validFlitAt (p : Nat) (c : Instr) : Bool := match c with
  | .dataFlitReceive q b _ => q == p && flitCrcOk b && flKind b != 3
  | .controlFlitReceive q b _ => q == p && flitCrcOk b
  | .idleFlitReceive q b _ => q == p && flitCrcOk b
  | _ => false

/-- 200 ticks have passed, and no valid flit arrives in the 200th (R291, R9).
DEDUCED: notes/assumptions/63.md. -/
def State.silent (s : State) (p : Nat) : Bool :=
  let x := s.port p
  x.alive && (s.overdue (x.lastValid + 200) || (decide (s.due (x.lastValid + 200) = s.tick) && !s.sameTick.any (validFlitAt p)))

/-- R291. -/
def execLinkSilence (p : Nat) (s : State) : Out := guarded (portOk p) (if s.silent p then s.declareLost p lcSILENCE else s)

/-- R291. -/
def execLossOfSignal (p lanes : Nat) (s : State) : Out :=
  guarded (portOk p && decide (lanes ≤ 18)) (if (s.port p).alive && decide ((s.port p).width < 2 * lanes) then s.declareLost p lcLOS else s)

/-- R293, R9: 250,000 ticks after the request was sent; a response in the last of them still counts.
DEDUCED: notes/assumptions/63.md. -/
def execTransactionTimeout (txn : Nat) (s : State) : Out :=
  match s.txns.find? (·.txn == txn) with
  | some t => event (!t.queued && s.runOut (t.sent + 250000)) s (s.respond txn stNODE_LOST 0 0 []).advance
  | none => .next s

/-! ### Training (R286, R288) -/

/-- The partner found is the one of R269, by a port of the opposite parity. -/
def State.partnerOk (s : State) (p node pod port : Nat) : Bool :=
  s.topo.neighbour p == some node && pod == s.topo.podId && port % 2 != p % 2

/-- Training ends with the lanes that failed adaptation out of use.
DEDUCED: notes/assumptions/61.md. -/
def State.endTraining (s : State) (p node pod port active : Nat) (failed : List Nat) : State :=
  let x := failed.foldl (fun (x : Port) i => if (x.lane i).st = 3 then x else x.failLane i) { (s.port p).allLanes with partnerActive := active }
  if x.active = 0 then ((s.setPort p x).declareLost p lcLANES).dirtyIfLanes s p
  else
    let ok := s.partnerOk p node pod port
    let w := if ok then s.widthNow x else 0
    let y := if ok then x.setWidth w else { x with width := 0 }
    (s.setPort p
      { y with
        st := if !ok then pMISMATCH else if x.lost then pHELD else pUP
        partner := node, lastValid := s.tick, lastRotation := s.tick, lastCtlSent := s.tick }).dirtyIfLanes s p

/-- R286. -/
def execTrainingEnd (p partnerNode partnerPod partnerPort : Nat) (failedLanes : List Nat) (s : State) (partnerActive : Nat := 16) : Out :=
  guarded (portOk p && portOk partnerPort && (partnerActive == 8 || partnerActive == 16) && failedLanes.all physOk)
    (if (s.port p).st = pTRAINING then (s.endTraining p partnerNode partnerPod partnerPort partnerActive failedLanes).advance else s)

/-! ### Telemetry (R298, R294) -/

/-- A window has ended whose counts the telemetry fields do not show yet (R10, R298). -/
def State.windowEnded (s : State) (p : Nat) : Bool := decide (1 ≤ windowOf s.tick) && decide ((s.port p).telNext < windowOf s.tick)

/-- The counts of the window that has ended last. -/
def Port.counts (x : Port) (tick : Nat) : Tel :=
  let y := x.roll tick
  if y.telLast.win + 1 = windowOf tick then y.telLast else {}

/-- Loads the counts of the window that has ended last; of the lanes, what their receivers counted and measured. -/
def Port.load (x : Port) (tick : Nat) (fec margin : List Nat) : Port :=
  let k := windowOf tick
  let c := x.counts tick
  let z : Port :=
    { x.roll tick with
      telStart := (k - 1) * 25000, telTx := c.tx, telRx := c.rx, telStall := c.stall, telTurned := min c.turned 0xFFFF, telNext := k }
  (List.range 18).foldl (fun (x : Port) i =>
    let l := x.lane i
    let v := { l with fecCorr := min (fec.getD i 0) 0xFFFF, margin := margin.getD i l.margin % 256 }
    if v = l then x else x.setLane i v) z

/-- Lane `i` raises a drift alarm at a window's end: 1,024 corrected symbols in it, or a margin that has fallen below 32 (R294). -/
def driftsAt (x : Port) (fec margin : List Nat) (i : Nat) : Bool :=
  decide (1024 ≤ fec.getD i 0) || (decide (margin.getD i 255 < 32) && decide (32 ≤ (x.lane i).margin))

/-- The telemetry fields of the window that has ended, and the drift alarms that its counts raise. -/
def State.loadTelemetry (s : State) (p : Nat) (fec margin : List Nat) : State :=
  let x := s.port p
  ((List.range 18).filter (driftsAt x fec margin)).foldl (fun s i => s.driftAlarm p i) (s.setPort p (x.load s.tick fec margin))

/-- R298. The command names the window's counts of flits and stalled ticks; one that names others than the port has counted is no event
of this port.
DESIGN CHOICE: notes/assumptions/103.md. -/
def execTelemetryWindowEnd (p txData rxData stallTicks : Nat) (fecCorr margin : List Nat) (s : State) : Out :=
  let c := (s.port p).counts s.tick
  guarded (portOk p) (if s.portOn p && s.windowEnded p && (txData == c.tx && rxData == c.rx && stallTicks == c.stall) then s.loadTelemetry p fecCorr margin else s)

/-! ### Forwarding (R278, R279, R284, R285) -/

/-- The port by which a waiting packet leaves, and the packet as it then stands. -/
def State.exit? (s : State) (k : Packet) : Option (Nat × Packet) :=
  if k.kind = kBEACON ∧ 0 < k.cls then some (k.cls - 1, { k with cls := 0 })
  else match s.nextHop k with
    | .send p q => some (p, q)
    | _ => none

/-- The port holds credits for the whole packet (R278). -/
def Port.hasCredit (x : Port) (k : Packet) : Bool :=
  let ix := creditIx (kindVc k.kind) k.cls
  decide (pkFlits k ≤ (x.creditTx.getD ix 0 + 65536 - x.sentTx.getD ix 0) % 65536)

/-- The port holds credits and replay entries for the whole packet. -/
def Port.takes (x : Port) (k : Packet) : Bool := x.st == pUP && x.hasCredit k && decide (x.replay.length + pkFlits k ≤ 8192)

/-- Packets that leave by port `p`, each with its place in `egress`, oldest first of every VC and class. -/
def State.headsFor (s : State) (p : Nat) : List (Nat × Packet) :=
  let all := ((List.range s.egress.length).zip s.egress).filterMap fun e => match s.exit? e.2 with
    | some (q, k) => if q = p then some (e.1, k) else none
    | none => none
  all.filter fun e => !all.any fun f => decide (f.1 < e.1) && creditIx (kindVc f.2.kind) f.2.cls == creditIx (kindVc e.2.kind) e.2.cls

/-- VCs of a port in the order of R279.
DEDUCED: notes/assumptions/62.md. -/
def Port.vcOrder (x : Port) : List Nat := [3, 1] ++ (if x.turn = 0 then [2, 0] else [0, 2])

/-- The packet at place `i` of `egress` is the one that port `p` starts now. A control flit that is due goes first (R277). -/
def State.chosen (s : State) (p i : Nat) : Bool :=
  !s.controlDue p &&
  let ready := (s.headsFor p).filter fun e => (s.port p).takes e.2
  let vc := (s.port p).vcOrder.find? fun v => ready.any fun e => kindVc e.2.kind == v
  ready.any fun e => e.1 == i && some (kindVc e.2.kind) == vc

/-- The transaction of a packet of this module's own is under way from its start (R293). -/
def State.noteSent (s : State) (k : Packet) : State :=
  if k.src = s.node ∧ isRequest k.kind then
    { s with txns := s.txns.map fun t => if t.txn = k.txn ∧ t.queued then { t with queued := false, sent := s.tick } else t }
  else s

/-- The port has turned the packet: it leaves turned, and it came unturned or turned on another axis (R285). -/
def turnsHere (was k : Packet) : Bool := pkTurned k && !(pkTurned was && bits was.rflags 1 3 == bits k.rflags 1 3)

/-- Sends a packet by port `p`: its flits enter the replay buffer and go on the line. -/
def State.startPacket (s : State) (p i : Nat) (was k : Packet) : State :=
  let x := s.port p
  let vc := kindVc k.kind
  let fs := pkToFlits k k.cls x.txSeq
  let y := (x.sends s.tick fs).tally s.tick 0 0 0 (b2n (turnsHere was k))
  (({ s with egress := s.egress.eraseIdx i }.noteSent k).setPort p
    { y with
      replay := x.replay ++ fs, txSeq := (x.txSeq + pkFlits k) % 65536, sentTx := addAt x.sentTx (creditIx vc k.cls) (pkFlits k)
      turn := if vc = 0 ∨ vc = 2 then vc else x.turn }).returnSlots

/-- A request that cannot be sent is answered with NODE_LOST; a response or a beacon is dropped.
DEDUCED: notes/assumptions/43.md. -/
def State.refuseLost (s : State) (k : Packet) : State :=
  if k.kind = kREAD_RESP ∨ k.kind = kACK ∨ k.kind = kBEACON then s
  else if k.src = s.node then s.respond k.txn stNODE_LOST 0 0 []
  else s.send { dst := k.src, src := s.node, kind := if k.kind = kREAD_REQ then kREAD_RESP else kACK, epoch := k.epoch, txn := k.txn
                hdr := opHeader k.addr 0 0 stNODE_LOST 0 0 }

/-- The packet at place `i` of `egress` leaves, if it may. -/
def State.forwardPacket (s : State) (i : Nat) : State :=
  match s.egress[i]? with
  | none => s
  | some k => match s.exit? k with
    | some (p, q) => if s.chosen p i then s.startPacket p i k q else s
    | none =>
      let s1 := { s with egress := s.egress.eraseIdx i }
      if s.nextHop k = .deliver then { s1 with arrived := s1.arrived ++ [k] }.noteSent k else (s1.refuseLost k).advance.returnSlots

/-- R278, R279, R284, R285. -/
def execPacketForward (i : Nat) (s : State) : Out := .next (s.forwardPacket i)

/-! ### A tick (R277, R298) -/

/-- A packet that is ready for port `p` waits for credits. -/
def State.creditStall (s : State) (p : Nat) : Bool :=
  (s.port p).st == pUP && (s.headsFor p).any fun e => !(s.port p).hasCredit e.2

/-- At a port, the tick that ends counts as stalled where a ready packet has waited for credits, and the next one begins. -/
def State.portTick (s : State) (p : Nat) : State :=
  let x := s.port p
  let y := if s.creditStall p then x.tally s.tick 0 0 1 0 else x
  s.setPort p { y with line := [] }

/-- Every port of a used pair. -/
def State.portsTick (s : State) : State := ((List.range 8).filter fun p => (s.port p).st != pUNUSED).foldl State.portTick s

/-- What port `p` has sent in this tick: its flits, or idle flits when it has nothing else to send (R277). -/
def State.onLine (s : State) (p : Nat) : List Bytes :=
  if !(s.port p).alive then [] else if (s.port p).line.isEmpty then [idleFlit] else (s.port p).line

end Sys2Proof.Machine
end

