-- ==== Sys2Proof/Machine/Steps.lean ====
section
/-! DEFINITION. The gate's registers (14): GBL_STEP and GBL_GATE_CTRL, and the exchange of fingerprints. -/

namespace Sys2Proof.Machine

/-! ### GBL_STEP (Table 14.13) -/

/-- A write of OPEN_STEP, or its refusal. The stage queues take the step of their next message from it.
DEDUCED: notes/assumptions/117.md. -/
def State.writeStep (s : State) (w : Wr) : State :=
  match w.get? 0 64 with
  | some v =>
    if s.stepFree then
      { s with
        grad := { s.grad with openStep := v }
        shard := { s.shard with queues := s.shard.queues.map fun e => (e.1, { e.2 with step := none }) } }
    else { s with grad := { s.grad with stepRefused := true } }
  | none => s

/-- R300. -/
def execGblStepWrite (w : Wr) (s : State) : Out := .next (s.bar0 (s.writeStep w))

/-! ### GBL_GATE_CTRL (R335) -/

/-- CANCEL: the GATE ends with ABORTED unless it is held or has ended. -/
def State.cancelGate (s : State) : State :=
  match s.gateDesc with
  | some d => match d.work with
    | .queued => s.setWork d.id (.done stABORTED 0 0)
    | .gate => s.setWork d.id (.done stABORTED (s.flagsSoFar d) 0)
    | _ => s
  | none => s

/-- One bucket cleared: buffer, counts and faults, what is left of a pass, and reopened at OPEN_STEP. The sticky bits of GBL_BKT_STATUS stay.
DEDUCED: notes/assumptions/77.md. -/
def State.clearBucket (s : State) (b : Nat) : State :=
  let x := s.bkt b
  let y : Bkt := { step := s.grad.openStep, misstep := x.misstep, overcount := x.overcount, damaged := x.damaged, stickyPf := x.stickyPf,
                   pfBusy := x.pfBusy, pfStale := x.pfBusy, wbBusy := x.wbBusy, stalePf := x.runningPf, wb := x.wb }
  let s1 := (s.zeroBuffer b).setBkt b y
  { s1 with grad := { s1.grad with fps := s1.grad.fps.erase b, passes := s1.grad.passes.erase b } }.checkPrefetch b

/-- CLEAR_BUCKETS, ignored while a GATE is accepted. -/
def State.clearBuckets (s : State) : State :=
  if s.gateDesc.isSome then s else s.bucketsHere.foldl (fun s b => s.clearBucket b) s

/-- Both sides disagree with their own running fingerprint: the resolution has failed (R333, step 4). -/
def FpState.bothFailed (f : FpState) : Bool :=
  match f.own, f.peer, f.ownAgain, f.peerAgain with
  | some o, some p, some o', some p' => o' != o && p' != p
  | _, _, _, _ => false

/-- UNHOLD: the primary writes its shard over the mirror's, and the buckets leave HELD once that is done. The correctable errors that the reading
of the shard meets are logged (R360).
DEDUCED: notes/assumptions/77.md. -/
def State.unholdBuckets (s : State) (ces : List (Nat × Nat) := []) : State :=
  (s.bucketsHere.filter fun b => s.role b == some false && (s.bkt b).st == .held && (s.fp b).bothFailed).foldl (fun s b =>
    (s.corrections ces (s.fp b).src (s.fp b).bytes).overwritePeer b) s

/-- A write of GBL_GATE_CTRL. -/
def State.writeGateCtrl (s : State) (w : Wr) (ces : List (Nat × Nat) := []) : State :=
  let s1 := if w.sets 0 then s.cancelGate else s
  let s2 := if w.sets 1 then s1.clearBuckets else s1
  (if w.sets 2 then s2.unholdBuckets ces else s2).advance

/-- R335. -/
def execCancel (w : Wr) (s : State) : Out := .next (s.bar0 (if w.sets 0 then s.writeGateCtrl w else s))

/-- R335. -/
def execClearBuckets (w : Wr) (s : State) : Out := .next (s.bar0 (if w.sets 1 then s.writeGateCtrl w else s))

/-- R335. -/
def execUnhold (w : Wr) (s : State) (ces : List (Nat × Nat) := []) : Out := .next (s.bar0 (if w.sets 2 then s.writeGateCtrl w ces else s))

/-! ### Fingerprints that arrive (R333) -/

/-- The overwritten side recomputes its fingerprint; when it matches, both sides leave HELD (step 5). -/
def State.overwritten (s : State) (b : Nat) (again : Word) : State :=
  let f := s.fp b
  let now := s.readAgain b
  let t := { s with draws := s.draws + 1 }
  if now = again then (t.sendFp b fpMATCH (f.own.getD 0) now).unhold b else t

/-- What an FPRINT packet says. -/
def State.takeFp (s : State) (b flags : Nat) (run again : Word) (src : Nat) : State :=
  let f := s.fp b
  if flags.testBit 3 then s.unhold b
  else if flags.testBit 2 then s.overwritten b again
  else if flags.testBit 1 then (s.setFp b { f with peer := some run, peerAgain := some again, peerSrc := src }).resolve b
  else (s.setFp b { f with peer := some run, peerSrc := src }).compareFp b

end Sys2Proof.Machine
end

