-- ==== Sys2Proof/Machine/Registers.lean ====
section
/-! DEFINITION. The register map (19): which register a BAR0 offset names, what it reads, and what a write or a clearing read of it
does. -/

namespace Sys2Proof.Machine

/-! ### Offsets (Tables 19.3 to 19.12) -/

/-- The registers, each by the index that the spec gives it. `calico` is an offset in the Calico region, `rlog` one in FLT_RLOG. -/
inductive Reg where
  | gblId | attn | bar2Base | hifStatus
  | dmkSrc | dmkCtrl | dmkStatus | dmkEpoch | seqSrc | seqCtrl
  | step | gateStatus | gateCtrl | pfBase | bktSel | bktStatus | collCount | reshard
  | stash (g : Nat) | stageq (q : Nat) | stageStall (g : Nat)
  | arrStatus (n : Nat) | arrUtil (n : Nat) | storeStatus (n : Nat) | seqCore (k : Nat) | counter (n c : Nat)
  | sqBase (q : Nat) | sqCfg (q : Nat) | sqPtr (q : Nat) | cqBase (q : Nat) | cqCfg (q : Nat) | cqPtr (q : Nat)
  | pwrStatus | pwrEnv | domState (d : Nat) | domCtrl (d : Nat)
  | lnkStatus (p : Nat) | lnkCtrl (p : Nat) | lnkErr (p : Nat) | telWindow (p : Nat) | telFlits (p : Nat) | telStall (p : Nat)
  | lnkTime (p : Nat) | lnkLane (p i : Nat)
  | logStatus | plogSel | plogData (i : Nat) | retireAddr | retireCtrl | rlog (off : Nat)
  | srgStatus (e : Nat) | srgCount (e : Nat)
  | fwStatus | fwSrc | fwCtrl | tick
  | scrCtrl | scrStatus (u : Nat) | calMem (r : Nat)
  | calico (off : Nat)
  | reserved
  deriving DecidableEq, Repr

/-- GBL_ block (Table 19.4). -/
def gblReg (o : Nat) : Reg :=
  match o with
  | 0x0 => .gblId
  | 0x8 => .attn
  | 0x10 => .bar2Base
  | 0x18 => .hifStatus
  | 0x100 => .dmkSrc
  | 0x108 => .dmkCtrl
  | 0x110 => .dmkStatus
  | 0x118 => .dmkEpoch
  | 0x200 => .seqSrc
  | 0x208 => .seqCtrl
  | 0x300 => .step
  | 0x308 => .gateStatus
  | 0x310 => .gateCtrl
  | 0x318 => .pfBase
  | 0x320 => .bktSel
  | 0x328 => .bktStatus
  | 0x330 => .collCount
  | 0x400 => .reshard
  | _ =>
    if 0x1000 ≤ o ∧ o < 0x1200 then .stash ((o - 0x1000) / 8)
    else if 0x1200 ≤ o ∧ o < 0x1400 then .stageq ((o - 0x1200) / 8)
    else if 0x1400 ≤ o ∧ o < 0x1600 then .stageStall ((o - 0x1400) / 8)
    else if 0x4000 ≤ o ∧ o < 0x8000 then
      let n := (o - 0x4000) / 0x20
      if o % 0x20 = 0 then .arrStatus n else if o % 0x20 = 8 then .arrUtil n else if o % 0x20 = 0x10 then .storeStatus n else .reserved
    else if 0x10000 ≤ o ∧ o < 0x20000 then .seqCore ((o - 0x10000) / 8)
    else if 0x40000 ≤ o ∧ o < 0x80000 then .counter ((o - 0x40000) / 0x200) ((o - 0x40000) % 0x200 / 8)
    else .reserved

/-- HQ_ block (Table 8.13). -/
def hqReg (o : Nat) : Reg :=
  let q := o / 0x40
  match o % 0x40 with
  | 0x00 => .sqBase q
  | 0x08 => .sqCfg q
  | 0x10 => .sqPtr q
  | 0x20 => .cqBase q
  | 0x28 => .cqCfg q
  | 0x30 => .cqPtr q
  | _ => .reserved

/-- PWR_ block (Table 19.6). -/
def pwrReg (o : Nat) : Reg :=
  if o = 0 then .pwrStatus
  else if o = 8 then .pwrEnv
  else if 0x100 ≤ o ∧ o < 0x100 + 58 * 8 then .domState ((o - 0x100) / 8)
  else if 0x400 ≤ o ∧ o < 0x400 + 58 * 8 then .domCtrl ((o - 0x400) / 8)
  else .reserved

/-- LNK_ block of port `p` (Table 19.7). -/
def lnkReg (p o : Nat) : Reg :=
  match o with
  | 0x00 => .lnkStatus p
  | 0x08 => .lnkCtrl p
  | 0x10 => .lnkErr p
  | 0x18 => .telWindow p
  | 0x20 => .telFlits p
  | 0x28 => .telStall p
  | 0x30 => .lnkTime p
  | _ => if 0x100 ≤ o ∧ o < 0x100 + 18 * 8 then .lnkLane p ((o - 0x100) / 8) else .reserved

/-- FLT_ block (Table 19.8). -/
def fltReg (o : Nat) : Reg :=
  if o = 0 then .logStatus
  else if o = 8 then .plogSel
  else if 0x40 ≤ o ∧ o < 0x80 then .plogData ((o - 0x40) / 8)
  else if o = 0x80 then .retireAddr
  else if o = 0x88 then .retireCtrl
  else if 0x4000 ≤ o ∧ o < 0x8000 then .rlog (o - 0x4000)
  else .reserved

/-- The register at an 8-byte-aligned BAR0 offset. -/
def regAt (o : Nat) : Reg :=
  if o < 0x100000 then gblReg o
  else if o < 0x200000 then .calico (o - 0x100000)
  else if o < 0x201000 then hqReg (o - 0x200000)
  else if o < 0x202000 then pwrReg (o - 0x201000)
  else if 0x210000 ≤ o ∧ o < 0x218000 then lnkReg ((o - 0x210000) / 0x1000) ((o - 0x210000) % 0x1000)
  else if 0x220000 ≤ o ∧ o < 0x228000 then fltReg (o - 0x220000)
  else if 0x230000 ≤ o ∧ o < 0x234000 then
    let e := (o - 0x230000) / 0x1000
    if o % 0x1000 = 0 then .srgStatus e else if o % 0x1000 = 8 then .srgCount e else .reserved
  else if 0x240000 ≤ o ∧ o < 0x241000 then
    (if o = 0x240000 then .fwStatus else if o = 0x240008 then .fwSrc else if o = 0x240010 then .fwCtrl else .reserved)
  else if o = 0x241000 then .tick
  else if 0x250000 ≤ o ∧ o < 0x254000 then
    (if o = 0x250000 then .scrCtrl else if 0x251000 ≤ o ∧ o < 0x251000 + 550 * 8 then .scrStatus ((o - 0x251000) / 8) else .reserved)
  else if 0x260000 ≤ o ∧ o < 0x260000 + 26 * 8 then .calMem ((o - 0x260000) / 8)
  else .reserved

/-- The switched domain that holds a register, none for the host interface, the MP and the flannel domain. -/
def Reg.domain : Reg → Option Nat
  | .arrStatus n => some (n / 16)
  | .arrUtil n => some (n / 16)
  | .storeStatus n => some (n / 16)
  | .seqCore k => some (k / 256)
  | .counter n _ => some (n / 16)
  | .lnkStatus p => some (32 + p)
  | .lnkCtrl p => some (32 + p)
  | .lnkErr p => some (32 + p)
  | .telWindow p => some (32 + p)
  | .telFlits p => some (32 + p)
  | .telStall p => some (32 + p)
  | .lnkTime p => some (32 + p)
  | .lnkLane p _ => some (32 + p)
  | .srgStatus e => some (40 + e)
  | .srgCount e => some (40 + e)
  | .calMem r => some (if r < 8 then 50 + r else if r < 24 then 47 + (r - 8) / 8 else 49)
  | _ => none

/-! ### Values -/

/-- GBL_ID (Table 19.13). -/
def gblIdValue : Nat := 0xF512 + Config.deviceStep.toNat * 2 ^ 16 + b2n Config.unitBound * 2 ^ 32 + Config.vendorId.toNat * 2 ^ 48

/-- GBL_HIF_STATUS (Table 19.16). -/
def State.hifStatus (s : State) : Nat :=
  let h := s.hif
  h.speed % 8 + h.width % 32 * 2 ^ 3 + b2n h.flitMode * 2 ^ 8 + b2n h.d3hot * 2 ^ 9 + h.bar2Ur % 65536 * 2 ^ 16 +
    min 4096 s.outstanding * 2 ^ 32

/-- GBL_DMK_CTRL and GBL_DMK_STATUS (Tables 3.13, 3.14). -/
def State.dmkCtrlValue (s : State) : Nat :=
  s.dmk.op * 2 + s.dmk.source * 2 ^ 3 + s.dmk.slot * 2 ^ 4 + s.flash.bootSlot * 2 ^ 8 + b2n s.flash.bootSet * 2 ^ 10

def State.dmkStatusValue (s : State) : Nat :=
  let d := s.dmk
  b2n s.dmkBusy + b2n d.done * 2 + b2n d.pendingImage.isSome * 2 ^ 2 + b2n d.refused * 2 ^ 3 + b2n d.wBubbles * 2 ^ 4 + d.result % 256 * 2 ^ 8 +
    d.section_ % 65536 * 2 ^ 16 + d.offset % 2 ^ 32 * 2 ^ 32

/-- GBL_SEQ_CTRL (Table 8.11). -/
def State.seqCtrlValue (s : State) : Nat :=
  let q := s.seq
  q.op * 2 + b2n q.busy * 2 ^ 3 + b2n q.done * 2 ^ 4 + b2n q.refused * 2 ^ 5 + q.cluster % 512 * 2 ^ 8 + q.result % 256 * 2 ^ 24 +
    q.mask % 65536 * 2 ^ 32 + q.count % 16384 * 2 ^ 48

/-- GBL_GATE_STATUS (Table 14.14). -/
def State.gateStatusValue (s : State) : Nat :=
  let g := s.grad
  let held := match s.gateDesc with
    | some d => match d.work with
      | .held _ _ => true
      | _ => false
    | none => false
  b2n s.gateDesc.isSome + b2n held * 2 + g.lastDecision % 4 * 2 ^ 2 + g.lastCause % 8 * 2 ^ 4 + b2n g.stepRefused * 2 ^ 7 +
    g.lastStep % 2 ^ 48 * 2 ^ 16

/-- GBL_BKT_STATUS of the selected bucket (Table 14.17). -/
def State.bktStatusValue (s : State) : Nat :=
  let x := s.bkt s.grad.bktSel
  match s.role s.grad.bktSel with
  | none => 0
  | some m =>
    let st := match x.st with
      | .opened => 1
      | .complete => 2
      | .decided => 3
      | .released => 4
      | .held => 5
    st + b2n m * 2 ^ 3 + b2n x.misstep * 2 ^ 4 + b2n x.overcount * 2 ^ 5 + b2n x.damaged * 2 ^ 6 + b2n x.stickyPf * 2 ^ 7 +
      b2n (x.pfBusy || x.pfDue || x.wbBusy) * 2 ^ 8 + x.count % 65536 * 2 ^ 16 + x.step % 2 ^ 32 * 2 ^ 32

/-- GBL_COLL_COUNT (Table 14.18). -/
def State.collCountValue (s : State) : Nat :=
  let g := s.grad
  g.stray % 65536 + g.rescales % 65536 * 2 ^ 16 + g.bf16Blocks % 65536 * 2 ^ 32 + g.diverged % 256 * 2 ^ 48 + g.skips % 256 * 2 ^ 56

/-- PERMUTEs accepted and not completed. -/
def State.permutes (s : State) : List Desc := s.descs.filter fun d => dType d.bytes == tyPERMUTE

/-- A PERMUTE or FINAL waits for a drain. -/
def State.draining (s : State) : Bool := s.permutes.any fun d => match d.work with
  | .queued => !s.drainedInTime d
  | .final _ => !s.shard.begun
  | _ => false

/-- GBL_RESHARD_STATUS (Table 15.7). -/
def State.reshardValue (s : State) : Nat :=
  let x := s.shard
  b2n x.begun + b2n s.draining * 2 + x.lastOutcome % 4 * 2 ^ 2 + min 255 s.permutes.length * 2 ^ 8 + x.staleRefused % 65536 * 2 ^ 16 +
    x.lastEpoch % 2 ^ 32 * 2 ^ 32

/-- GBL_STASH_STATUS (Table 7.7). -/
def State.stashValue (s : State) (g : Nat) : Nat :=
  let x := s.stashOf g
  let size (k : Nat) : Nat := match s.stashRegion g k with
    | some r => r.size
    | none => 0
  ceilDiv (x.near.used (size 1)) 65536 % 2 ^ 24 + ceilDiv (x.ovf.used (size 2)) 65536 % 2 ^ 24 * 2 ^ 24 +
    (x.near.live + x.ovf.live) % 2 ^ 13 * 2 ^ 48 + b2n x.full * 2 ^ 61 + b2n x.overflowed * 2 ^ 62

/-- GBL_STAGEQ_STATUS (Table 15.8). -/
def State.stageqValue (s : State) (q : Nat) : Nat :=
  let x := s.shard.queues.get {} q
  x.heldBytes % 2 ^ 26 + b2n (decide (q < s.pipe.queues.length)) * 2 ^ 26 + x.messages % 65536 * 2 ^ 32

/-- GBL_STORE_STATUS (Table 11.5). -/
def State.storeValue (s : State) (n : Nat) : Nat :=
  let c := s.cluster n
  let mine : List (Nat × Nat × Nat) := match s.physCluster n with
    | some p => (s.remaps.map (·.1)).filter (·.1 == p)
    | none => []
  let full := mine.any fun (r : Nat × Nat × Nat) => decide (8 ≤ (mine.filter fun (x : Nat × Nat × Nat) => x.2.1 == r.2.1).length)
  c.lostWrites % 65536 + c.droppedWords % 65536 * 2 ^ 16 + c.ceCount % 65536 * 2 ^ 32 + c.ceLastBank % 32 * 2 ^ 48 + b2n full * 2 ^ 53

/-- GBL_SEQ_CORE (Table 8.12). -/
def Core.seqValue (c : Core) : Nat :=
  let st := match c.st with
    | .idle => 0
    | .run => 1
    | .wait => 2
    | .halted => 3
    | .fault => 4
  st + c.pc % 8192 * 2 ^ 8 + c.cause % 16 * 2 ^ 24

/-- PWR_STATUS (Table 17.7). -/
def State.pwrStatusValue (s : State) : Nat :=
  s.vin % 65536 + s.pin % 4096 * 2 ^ 16 + s.iin % 256 * 2 ^ 28 + b2n s.nv * 2 ^ 36 + b2n s.lowForced * 2 ^ 37 + b2n s.throttled * 2 ^ 38 +
    b2n s.refclkLost * 2 ^ 39 + s.startPhase % 8 * 2 ^ 40 + s.throttles % 65536 * 2 ^ 48

/-- PWR_ENV (Table 17.8). -/
def State.pwrEnvValue (s : State) : Nat :=
  let e := s.env
  e.recorded % 8 + e.inForce % 8 * 2 ^ 3 + b2n (e.phase != .steady) * 2 ^ 6 + b2n s.sergeDrain * 2 ^ 7 + e.lastSwitch % 2 ^ 32 * 2 ^ 16 +
    e.switches % 65536 * 2 ^ 48

/-- PWR_DOM_STATE (Table 17.9). -/
def State.domStateValue (s : State) (d : Nat) : Nat :=
  let x := s.dom d
  let st := match x.st with
    | .off => 0
    | .retain => 1
    | .on => 2
    | _ => 3
  st + b2n (s.keptOn d) * 2 ^ 2 + b2n (s.envOff d) * 2 ^ 3 + x.wakes % 2 ^ 24 * 2 ^ 8 + x.wakeFails % 65536 * 2 ^ 32

/-- PWR_DOM_CTRL (Table 17.10). -/
def State.domCtrlValue (s : State) (d : Nat) : Nat :=
  let x := s.dom d
  x.force % 4 + x.retainAfter % 65536 * 2 ^ 16 + x.offAfter % 2 ^ 32 * 2 ^ 32

/-- LNK_ registers (Tables 13.10 to 13.12). -/
def Port.errValue (x : Port) : Nat := x.crcFail % 65536 + x.replays % 65536 * 2 ^ 16 + x.fecUncorr % 65536 * 2 ^ 32 + x.laneFails % 65536 * 2 ^ 48
def Port.timeValue (x : Port) : Nat := x.offset.toNat + x.delay % 65536 * 2 ^ 32 + x.steps % 65536 * 2 ^ 48
/-- DEDUCED: notes/assumptions/60.md. -/
def Port.laneValue (x : Port) (i : Nat) : Nat :=
  let l := x.laneShown i
  l.st % 4 + (if l.st = 0 then l.logical % 32 else 0x1F) * 2 ^ 2 + b2n l.drift * 2 ^ 7 + l.fecCorr % 65536 * 2 ^ 8 + l.margin % 256 * 2 ^ 24

/-- FLT_LOG_STATUS (Table 16.7).
DEDUCED: notes/assumptions/77.md. -/
def State.logStatusValue (s : State) : Nat :=
  let l := s.log
  let waiting := (List.filter (fun (e : Nat × FaultRec) => decide (l.persistSeq < e.2.seq)) l.slots).length
  l.writeIndex % 256 + b2n l.overwrote * 2 ^ 8 + b2n s.nv * 2 ^ 9 + b2n l.persistBusy * 2 ^ 10 + l.lastReset % 16 * 2 ^ 12 +
    waiting * 2 ^ 16 + l.lastSeq % 2 ^ 32 * 2 ^ 32

/-- The 16 KiB of the retained log (R368). -/
def State.rlogByte (s : State) (o : Nat) : Byte :=
  let l := s.log
  if o < 64 then
    let w := 0x474F4C46 + l.writeIndex * 2 ^ 32 + l.lastReset * 2 ^ 40
    (leBytes 8 w ++ leBytes 8 (2 ^ 64 - 1 - w) ++ leBytes 8 l.persistSeq ++ leBytes 4 l.overwritten).getD o 0
  else match SMap.find? l.slots ((o - 64) / 64) with
    | some r => r.bytes.getD (o % 64) 0
    | none => 0

/-- NEWEST: the place of the newest record that was persisted whole, 0 when there is none (Table 16.8). -/
def Flash.newest (f : Flash) : Nat :=
  let cut := (f.entries.reverse.takeWhile (·.isNone)).length
  if f.plogCount ≤ cut then 0 else (f.plogCount - cut - 1) % 262144

/-- FLT_PLOG_SEL with selection `sel`, and FLT_PLOG_DATA (Table 16.8).
DEDUCED: notes/assumptions/77.md. -/
def State.plogSelValue (s : State) (sel : Nat) : Nat :=
  sel % 2 ^ 18 + s.flash.newest * 2 ^ 32

def State.plogDataValue (s : State) (sel i : Nat) : Nat := field (s.flash.placeBytes sel) (8 * i) 8

/-- FLT_RETIRE_CTRL (Table 12.8). -/
def State.retireCtrlValue (s : State) : Nat :=
  let x := s.retire
  x.op * 2 + b2n x.busy * 2 ^ 2 + b2n x.done * 2 ^ 3 + b2n x.refused * 2 ^ 4 + x.result % 256 * 2 ^ 8 + s.flash.retired.length % 2 ^ 15 * 2 ^ 16

/-- SRG_STATUS and SRG_COUNT (Tables 10.11, 10.12).
DEDUCED: notes/assumptions/77.md. -/
def State.srgStatusValue (s : State) (e : Nat) : Nat :=
  let x := s.eng e
  let read := s.reading e
  let queued := (s.engineQueue e).length - b2n read.isSome
  let phase (v : Solve) : Nat := match v.phase with
    | .wait => 1
    | .read => 2
    | .start => 3
    | .compute => 4
    | .choose => 5
    | .writeback => 6
  let now := match x.run with
    | some v => b2n (v.phase != .wait) * 2 + phase v * 2 ^ 8 + v.factor % 4096 * 2 ^ 16 + (if v.method = 1 then v.iters % 256 else 0) * 2 ^ 32
    | none => match read with
      | some d => 2 + 2 * 2 ^ 8 + So.factor d.bytes % 4096 * 2 ^ 16
      | none => if queued = 0 then 0 else 2 ^ 8
  b2n ((s.dom (40 + e)).st == .on) + b2n (s.folding e) * 2 ^ 2 + min 16 queued * 2 ^ 3 + now + b2n (s.engineMarked e) * 2 ^ 11 + b2n x.underrun * 2 ^ 12 + x.done % 2 ^ 24 * 2 ^ 40

def Engine.countValue (x : Engine) : Nat :=
  x.ok % 65536 + x.deadlines % 65536 * 2 ^ 16 + x.warmRejects % 65536 * 2 ^ 32 + x.aborts % 65536 * 2 ^ 48

/-- FWU_STATUS (Table 18.9). -/
def Firmware.statusValue (f : Firmware) : Nat :=
  b2n f.busy + b2n f.done * 2 + b2n f.refused * 2 ^ 2 + b2n f.restarting * 2 ^ 3 + b2n f.fellBack * 2 ^ 4 + b2n f.warm * 2 ^ 5 +
    f.result % 256 * 2 ^ 8 + f.bootResult % 256 * 2 ^ 16 + f.bootedSlot % 4 * 2 ^ 24

/-- SCR_CTRL (Table 16.9). -/
def State.scrCtrlValue (s : State) : Nat :=
  let l := s.scrLimits
  l.1 % 65536 + l.2.1 % 65536 * 2 ^ 16 + l.2.2.1 % 65536 * 2 ^ 32 + l.2.2.2 % 65536 * 2 ^ 48

/-- SCR_STATUS (Table 16.10). -/
def State.scrValue (s : State) (u : Nat) : Nat :=
  let x := s.scrubOf u
  let n := s.scrubBytes u
  (if n = 0 then 0 else min 65535 (x.pos * 64 * 65536 / n)) + b2n x.overdue * 2 ^ 16 + b2n x.warn * 2 ^ 17 +
    b2n ((s.dom (scrubDomain u)).st == .on) * 2 ^ 18 + x.lastLap % 2 ^ 32 * 2 ^ 32

/-- CAL_MEM_STATUS (Table 12.10). -/
def State.calMemValue (s : State) (r : Nat) : Nat :=
  let c := s.recal.get {} r
  let d := if r < 8 then 50 + r else if r < 24 then 47 + (r - 8) / 8 else 49
  let x := s.tiers.get {} r
  b2n ((s.dom d).st == .on) + b2n c.inSlot * 2 + b2n (decide (24 ≤ r) && x.degraded) * 2 ^ 2 + (if r < 8 then (s.nearStacks.get {} r).w else x.width) % 64 * 2 ^ 8 +
    c.slots % 65536 * 2 ^ 16 + c.slotWait % 65536 * 2 ^ 32

/-- What a register holds. Fields that only take writes read 0; the Calico region reads bytes. -/
def State.regValue (s : State) : Reg → Nat
  | .gblId => gblIdValue
  | .attn => s.hif.attn % 128
  | .bar2Base => s.hif.bar2Base
  | .hifStatus => s.hifStatus
  | .dmkSrc => s.dmk.src
  | .dmkCtrl => s.dmkCtrlValue
  | .dmkStatus => s.dmkStatusValue
  | .dmkEpoch => s.epochNow + s.epochPending * 2 ^ 32
  | .seqSrc => s.seq.src
  | .seqCtrl => s.seqCtrlValue
  | .step => s.grad.openStep % 2 ^ 64
  | .gateStatus => s.gateStatusValue
  | .gateCtrl => 0
  | .pfBase => s.grad.pfBase
  | .bktSel => s.grad.bktSel
  | .bktStatus => s.bktStatusValue
  | .collCount => s.collCountValue
  | .reshard => s.reshardValue
  | .stash g => s.stashValue g
  | .stageq q => s.stageqValue q
  | .stageStall g => let x := s.shard.stall.get (0, 0) g; x.1 % 2 ^ 32 + x.2 % 2 ^ 32 * 2 ^ 32
  | .arrStatus n => s.arrStatus n
  | .arrUtil n => s.arrUtil n
  | .storeStatus n => s.storeValue n
  | .seqCore k => (s.core k).seqValue
  | .counter n c => (s.counter n c).toNat
  | .sqBase q => (s.sq q).base
  | .sqCfg q => (s.sq q).cfgValue
  | .sqPtr q => (s.sq q).ptrValue
  | .cqBase q => (s.cq q).base
  | .cqCfg q => (s.cq q).cfgValue
  | .cqPtr q => (s.cq q).ptrValue
  | .pwrStatus => s.pwrStatusValue
  | .pwrEnv => s.pwrEnvValue
  | .domState d => s.domStateValue d
  | .domCtrl d => s.domCtrlValue d
  | .lnkStatus p => s.lnkStatus p
  | .lnkCtrl p => (s.port p).ctlLane % 16 * 2
  | .lnkErr p => (s.port p).errValue
  | .telWindow p => (s.port p).telStart
  | .telFlits p => (s.port p).telTx % 2 ^ 32 + (s.port p).telRx % 2 ^ 32 * 2 ^ 32
  | .telStall p => (s.port p).telStall % 2 ^ 32 + (s.port p).telTurned % 65536 * 2 ^ 32
  | .lnkTime p => (s.port p).timeValue
  | .lnkLane p i => (s.port p).laneValue i
  | .logStatus => s.logStatusValue
  | .plogSel => s.plogSelValue s.log.sel
  | .plogData i => s.plogDataValue s.log.sel i
  | .retireAddr => s.retire.page
  | .retireCtrl => s.retireCtrlValue
  | .rlog o => leNat ((List.range 8).map fun i => s.rlogByte (o + i))
  | .srgStatus e => s.srgStatusValue e
  | .srgCount e => (s.eng e).countValue
  | .fwStatus => s.fw.statusValue
  | .fwSrc => s.fw.src
  | .fwCtrl => s.fw.op * 2
  | .tick => s.tick % 2 ^ 64
  | .scrCtrl => s.scrCtrlValue
  | .scrStatus u => s.scrValue u
  | .calMem r => s.calMemValue r
  | .calico o => leNat (s.calicoBytes o 8)
  | .reserved => 0

/-! ### Reads (R394, R412, R413) -/

/-- Registers that keep their contents across a start: GBL_ID, the fault log's and the tick. -/
def Reg.early : Reg → Bool
  | .gblId => true
  | .logStatus => true
  | .plogSel => true
  | .plogData _ => true
  | .rlog _ => true
  | .tick => true
  | .calico _ => true
  | _ => false

/-- The domain of the register is off, a wake from off in progress included. -/
def State.regOff (s : State) (r : Reg) : Bool := match r.domain with
  | some d => (s.dom d).st == .off || (s.dom d).st == .wakeOff
  | none => false

/-- What a read of a register returns: its reset value while its domain is off.
DEDUCED: notes/assumptions/75.md. -/
def State.regSee (s : State) (r : Reg) : Nat := if s.regOff r then State.reset.regValue r else s.regValue r

/-- The module with every register at its reset value; what comes from flash stays.
DEDUCED: notes/assumptions/76.md. -/
def State.asReset (s : State) : State := { State.reset with flash := s.flash }

/-- What a read through BAR0 returns: reset values until the first publication (R394).
DEDUCED: notes/assumptions/76.md. -/
def State.hostSee (s : State) (r : Reg) : Nat :=
  if decide (s.startPhase < 3) && !r.early then s.asReset.regValue r else s.regSee r

/-- A read of all 8 bytes clears the RC fields of the register. -/
def State.regClear (s : State) : Reg → State
  | .hifStatus => { s with hif := { s.hif with bar2Ur := 0 } }
  | .collCount => { s with grad := { s.grad with stray := 0, rescales := 0, bf16Blocks := 0, diverged := 0, skips := 0 } }
  | .reshard => { s with shard := { s.shard with staleRefused := 0 } }
  | .stageq q => { s with shard := { s.shard with queues := s.shard.queues.set {} q { (s.shard.queues.get {} q : StageQ) with messages := 0 } } }
  | .stageStall g => { s with shard := { s.shard with stall := s.shard.stall.set (0, 0) g (0, 0) } }
  | .arrUtil n => s.clearArrUtil n
  | .storeStatus n => s.setCluster n { s.cluster n with lostWrites := 0, droppedWords := 0, ceCount := 0 }
  | .pwrStatus => { s with throttles := 0 }
  | .pwrEnv => { s with env := { s.env with switches := 0 } }
  | .domState d => s.setDom d { s.dom d with wakes := 0, wakeFails := 0 }
  | .lnkErr p => s.setPort p { s.port p with crcFail := 0, replays := 0, fecUncorr := 0, laneFails := 0 }
  | .lnkTime p => s.setPort p { s.port p with steps := 0 }
  | .srgCount e => s.setEng e { s.eng e with ok := 0, deadlines := 0, warmRejects := 0, aborts := 0 }
  | .calMem r => { s with recal := s.recal.set {} r { (s.recal.get {} r : Recal) with slots := 0, slotWait := 0 } }
  | _ => s

/-- The read clears: the register shows what it holds.
DEDUCED: notes/assumptions/76.md. -/
def State.clears (s : State) (r : Reg) : Bool := decide (3 ≤ s.startPhase) && !s.regOff r

/-- The half of a register that a read covers. -/
def Half.part (h : Half) (v : Nat) : Nat := match h with
  | .both => v
  | .lo => v % 2 ^ 32
  | .hi => v / 2 ^ 32

/-! ### Writes (R412, R413) -/

/-- Bits of a W1C field that a write clears, from a word of flags at `lo`. -/
def w1c (w : Wr) (lo : Nat) (old : Bool) : Bool := old && !w.sets lo

/-- GBL_ATTN: bits whose source event has come in the tick of the write stay (R419); one that comes after it in that tick sets its bit again. -/
def State.writeAttn (s : State) (w : Wr) : State :=
  let here := if s.hif.attnNow.1 = s.tick then s.hif.attnNow.2 else 0
  let keep := (List.range 7).foldl (fun a i => a + (if s.hif.attn.testBit i && (here.testBit i || !w.sets i) then 2 ^ i else 0)) 0
  { s with hif := { s.hif with attn := keep } }

/-- GBL_COUNTER: at once, or after the wake of its half (R413).
DEDUCED: notes/assumptions/75.md. -/
def State.writeCounter (s : State) (n c : Nat) (w : Wr) : State :=
  match w.get? 0 32 with
  | none => s
  | some v =>
    if s.domOn (n / 16) then s.setCounter n c (BitVec.ofNat 32 v)
    else (s.park (.counter n c (BitVec.ofNat 32 v))).wake (n / 16)

/-- PWR_DOM_CTRL (R386). -/
def State.writeDomCtrl (s : State) (d : Nat) (w : Wr) : State :=
  if 44 ≤ d ∧ d ≤ 46 then s
  else
    let x := s.dom d
    let s1 := s.setDom d { x with force := w.upd 0 2 x.force, retainAfter := w.upd 16 16 x.retainAfter, offAfter := w.upd 32 32 x.offAfter }
    match w.get? 0 2 with
    | some 1 => s1.wake d
    | some 2 => s1.settleForce d
    | some 3 => s1.settleForce d
    | _ => s1

/-- GBL_BKT_STATUS: sticky bits of the selected bucket. -/
def State.writeBktStatus (s : State) (w : Wr) : State :=
  let b := s.grad.bktSel
  if (s.role b).isNone then s
  else
    let x := s.bkt b
    s.setBkt b { x with misstep := w1c w 4 x.misstep, overcount := w1c w 5 x.overcount, damaged := w1c w 6 x.damaged, stickyPf := w1c w 7 x.stickyPf }

/-- A write of a register. RO fields and reserved offsets ignore it.
DESIGN CHOICE: notes/assumptions/32.md, notes/assumptions/78.md. DEDUCED: notes/assumptions/75.md. -/
def State.regWrite (s : State) (r : Reg) (w : Wr) : State :=
  match r with
  | .attn => s.writeAttn w
  | .bar2Base => { s with hif := { s.hif with bar2Base := w.upd 16 32 (s.hif.bar2Base / 65536) * 65536 } }
  | .dmkSrc => { s with dmk := { s.dmk with src := w.upd 6 58 (s.dmk.src / 64) * 64 } }
  | .dmkCtrl => s.writeDmkCtrl w {}
  | .dmkStatus => { s with dmk := { s.dmk with done := w1c w 1 s.dmk.done, refused := w1c w 3 s.dmk.refused } }
  | .seqSrc => { s with seq := { s.seq with src := w.upd 3 61 (s.seq.src / 8) * 8 } }
  | .seqCtrl => s.writeSeqCtrl w
  | .step => s.writeStep w
  | .gateStatus => { s with grad := { s.grad with stepRefused := w1c w 7 s.grad.stepRefused } }
  | .gateCtrl => s.writeGateCtrl w
  | .pfBase => { s with grad := { s.grad with pfBase := w.upd 6 58 (s.grad.pfBase / 64) * 64 } }
  | .bktSel => { s with grad := { s.grad with bktSel := w.upd 0 14 s.grad.bktSel } }
  | .bktStatus => s.writeBktStatus w
  | .stash g =>
    let x := s.stashOf g
    s.setStash g { x with full := w1c w 61 x.full, overflowed := w1c w 62 x.overflowed }
  | .counter n c => s.writeCounter n c w
  | .sqBase q => s.writeSqBase q w
  | .sqCfg q => s.writeSqCfg q w
  | .sqPtr q => s.writeSqPtr q w
  | .cqBase q => s.writeCqBase q w
  | .cqCfg q => s.writeCqCfg q w
  | .cqPtr q => s.writeCqPtr q w
  | .pwrStatus => if s.probe.clkSel then s else { s with refclkLost := w1c w 39 s.refclkLost }
  | .domCtrl d => s.writeDomCtrl d w
  | .lnkStatus p => s.writeLnkStatus p w
  | .lnkCtrl p => s.writeLnkCtrl p w
  | .lnkLane p i =>
    if !s.portOn p then s
    else
      let x := s.port p
      let l := x.lane i
      if l.drift && w.sets 7 then s.setPort p (x.setLane i { l with drift := false }) else s
  | .logStatus => { s with log := { s.log with overwrote := w1c w 8 s.log.overwrote } }
  | .plogSel => { s with log := { s.log with sel := w.upd 0 18 s.log.sel } }
  | .retireAddr => { s with retire := { s.retire with page := w.upd 16 32 (s.retire.page / 65536) * 65536 } }
  | .retireCtrl => s.writeRetireCtrl w {}
  | .srgStatus e =>
    if !s.domOn (40 + e) then s
    else let x := s.eng e; s.setEng e { x with underrun := w1c w 12 x.underrun }
  | .fwStatus =>
    { s with fw := { s.fw with done := w1c w 1 s.fw.done, refused := w1c w 2 s.fw.refused, fellBack := w1c w 4 s.fw.fellBack } }
  | .fwSrc => { s with fw := { s.fw with src := w.upd 6 58 (s.fw.src / 64) * 64 } }
  | .fwCtrl => s.writeFwCtrl w {}
  | .scrCtrl =>
    let l := s.scrLimits
    { s with scrLimits := (w.upd 0 16 l.1, w.upd 16 16 l.2.1, w.upd 32 16 l.2.2.1, w.upd 48 16 l.2.2.2) }
  | .scrStatus u => let x := s.scrubOf u; s.setScrub u { x with warn := w1c w 17 x.warn }
  | _ => s

/-! ### Meanings -/

/-- R416. -/
def execGblBar2BaseWrite (w : Wr) (s : State) : Out := .next (s.bar0 (s.regWrite .bar2Base w))

/-- R413. -/
def execGblCounterWrite (n c : Nat) (w : Wr) (s : State) : Out :=
  guarded (clusterOk n && decide (c < 64)) (s.bar0 (s.writeCounter n c w))

/-- R386: the write sets FORCE to 0. -/
def execForcePolicy (d : Nat) (w : Wr) (s : State) : Out :=
  guarded (domainOk d) (s.bar0 (if w.get? 0 2 = some 0 then s.writeDomCtrl d w else s))

/-- R386: the write sets FORCE to 1. -/
def execForceOn (d : Nat) (w : Wr) (s : State) : Out :=
  guarded (domainOk d) (s.bar0 (if w.get? 0 2 = some 1 then s.writeDomCtrl d w else s))

/-- R386: the write sets FORCE to 2. -/
def execForceRetain (d : Nat) (w : Wr) (s : State) : Out :=
  guarded (domainOk d) (s.bar0 (if w.get? 0 2 = some 2 then s.writeDomCtrl d w else s))

/-- R386: the write sets FORCE to 3. -/
def execForceOff (d : Nat) (w : Wr) (s : State) : Out :=
  guarded (domainOk d) (s.bar0 (if w.get? 0 2 = some 3 then s.writeDomCtrl d w else s))

/-- R419. -/
def execAttnClear (w : Wr) (_ : Nat) (s : State) : Out := .next (s.bar0 (s.writeAttn w))

/-- The register and the half of it that an access covers (R412): `h` counts from the access's own offset. None for an access that is not naturally
aligned.
DEDUCED: notes/assumptions/107.md. -/
def barAccess (off : Nat) (h : Half) : Option (Nat × Half) :=
  if off % 8 = 0 then some (off, h)
  else if off % 8 ≠ 4 then none
  else match h with
    | .both => none
    | .lo => some (off - 4, .hi)
    | .hi => some (off + 4, .lo)

/-- An access to BAR0 at any offset: `f` on the register and half that it covers, or Completer Abort (R412). -/
def State.barOn (s : State) (off : Nat) (h : Half) (f : Nat → Half → State) : State := match barAccess off h with
  | some x => f x.1 x.2
  | none => s.refuse .completerAbort aeCA

/-- R412, R413: a write at any offset of BAR0. -/
def execRegisterWrite (off : Nat) (w : Wr) (s : State) (_ : Nat := 0) : Out :=
  guarded (regOffOk off) (s.bar0 (s.barOn off w.half fun o h => s.regWrite (regAt o) (w.placed h)))

/-- A read of a register through BAR0: the reply, and what a read of 8 bytes clears. -/
def State.hostRead (s : State) (r : Reg) (h : Half) : State :=
  let v := Half.part h (s.hostSee r)
  let torn := match r with
    | .calico _ => 1
    | _ => 0
  let s1 := { s with draws := s.draws + torn, hif := { s.hif with reply := .value (BitVec.ofNat 64 v) } }
  if h = .both ∧ s.clears r = true then s1.regClear r else s1

/-- R412, R413. -/
def execRegisterReadClear (off : Nat) (h : Half) (s : State) : Out :=
  guarded (regOffOk off) (s.bar0 (s.barOn off h fun o h => s.hostRead (regAt o) h))

end Sys2Proof.Machine
end

