-- ==== Sys2Proof/Machine/Deliver.lean ====
section
/-! DEFINITION. Packets that are whole at their destination (13, 14, 15): the epoch check, the wake of the memory that a packet
reaches, its effect and its answer. -/

namespace Sys2Proof.Machine

/-! ### Waiting for a wake (R131, R166, R188) -/

/-- `t` when every domain of `ds` serves accesses; else the packet waits for their wakes.
DEDUCED: notes/assumptions/87.md. -/
def State.orWait (s : State) (k : Packet) (m : Meets) (ds : List Nat) (t : State) : State :=
  if (s.asleep ds).isEmpty then t.touch ds else s.putOff (.packet k ds m) ds

/-- A write of an arriving packet at the movement port (R240, R241): the words of `m` lose as many contests as it says, and one that loses 16
stays unwritten. The status that follows.
DESIGN CHOICE: notes/assumptions/20.md. -/
def State.portWrite (s : State) (m : Meets) (a : Nat) (b : Bytes) : State × Nat :=
  let ws := m.lost.filter fun e => (wordsOf a b.length).contains e.1 && inStore e.1
  let gone := (ws.filter fun e => decide (16 ≤ e.2)).map (·.1)
  let s1 := if gone.isEmpty then s.writeBytes a b
    else ((List.range b.length).zip b).foldl (fun s x => if gone.contains ((a + x.1) / 8 * 8) then s else s.write8 (a + x.1) x.2) s
  (ws.foldl (fun s e => s.countLosses e.1 e.2) s1, if gone.isEmpty then stOK else stBANK_CONFLICT)

/-- What R28 and R265 say of a range here: BAD_DESCRIPTOR, then RETIRED_PAGE. The Calico table may be read.
DEDUCED: notes/assumptions/87.md. -/
def State.rangeStatus (s : State) (a n : Nat) (calico : Bool) : Nat :=
  if !(s.populated a n || (calico && inCalico a n)) then stBAD_DESCRIPTOR
  else if s.touchesRetired a n then stRETIRED_PAGE
  else stOK

/-! ### Memory packets (R280, R281, R128, R129, R166) -/

/-- A READ_RESP. -/
def State.respondRead (s : State) (k : Packet) (status : Nat) (data : Bytes) : State :=
  s.send { dst := k.src, src := s.node, kind := kREAD_RESP, epoch := k.epoch, txn := k.txn
           hdr := opHeader k.addr data.length 0 status 0 0, data := data }

/-- READ_REQ. One that waited here meets its checks again as it is served, under the retirement map that it reached (R28, R265). -/
def State.serveRead (s : State) (k : Packet) (m : Meets) : State :=
  let st := s.rangeStatus k.addr k.bytes true
  let t := s.corrections m.ces k.addr k.bytes
  if st ≠ stOK then s.respondRead k st []
  else s.orWait k m (s.rangeDomains k.addr k.bytes) ((t.respondRead k stOK (t.readSrc k.addr k.bytes)).afterRead k.addr k.bytes)

/-- The write of a packet's bytes, with what it meets, and its answer. -/
def State.writeAnswered (s : State) (k : Packet) (m : Meets) (a : Nat) (b : Bytes) : State :=
  let w := (s.writeCorrections m.ces a b.length).portWrite m a b
  w.1.answer k w.2 0

/-- WRITE.
DEDUCED: notes/assumptions/90.md. -/
def State.serveWrite (s : State) (k : Packet) (m : Meets) : State :=
  let st := s.rangeStatus k.addr k.data.length false
  if st ≠ stOK then s.answer k st 0
  else s.orWait k m (s.rangeDomains k.addr k.data.length) (s.writeAnswered k m k.addr k.data)

/-- OP of an RACC packet without the voile bit (R307).
DESIGN CHOICE: notes/assumptions/35.md. -/
def racPktOp (k : Packet) : Nat := k.op % 128

/-- Elements of an RACC packet: as they travel, or decoded from voile.
DESIGN CHOICE: notes/assumptions/23.md, notes/assumptions/35.md. -/
def racPktElements (k : Packet) : List Bytes :=
  if k.op.testBit 7 then
    let last := field k.hdr 14 2
    (voilePacket k.data (if last = 0 then 256 else last)).map (leBytes 4)
  else chunks (racSrc (racPktOp k)) k.data

/-- The answers to an RACC packet that has been applied: a SWAP's old values in a READ_RESP of its transaction, then the ACK.
DESIGN CHOICE: notes/assumptions/35.md. -/
def Applied.answer (a : Applied) (k : Packet) : State :=
  (if a.old.isEmpty then a.st else a.st.respondRead k stOK a.old).answer k a.status a.flags

/-- RACC: step 6 of R127 for the packet's range, then its elements.
DESIGN CHOICE: notes/assumptions/35.md. DEDUCED: notes/assumptions/87.md. -/
def State.serveRacc (s : State) (k : Packet) (m : Meets) : State :=
  let op := racPktOp k
  let els := racPktElements k
  let n := els.length * racDst op
  if !(decide (op ≤ 5) && racWindow k.addr && s.inOneWindow k.addr n) then s.answer k stBAD_DESCRIPTOR 0
  else
    let a := applyElements (s.corrections m.ces k.addr n) op k.addr els
    s.orWait k m (s.rangeDomains k.addr n) (a.answer k)

/-- SIGNAL: ADDR holds cluster × 64 + counter. -/
def State.serveSignal (s : State) (k : Packet) : State :=
  let n := k.addr / 64
  if !s.clusterPresent n then s.answer k stUNSUPPORTED 0
  else s.orWait k {} [n / 16] ((s.addCounter n (k.addr % 64) (BitVec.ofNat 32 (field k.data 0 4))).answer k stOK 0)

/-! ### Delta packets (R282) -/

/-- HEADER_N and LENGTH of a delta packet agree with its bytes. -/
def deltaWhole (p : Bytes) : Bool := field p 8 8 == 2 ^ 64 - 1 - field p 0 8 && field p 0x24 4 == p.length

/-- The whole packet enters its ring, or its check fails. -/
def State.landDelta (s : State) (k : Packet) (m : Meets) (f : Nat) (p : Bytes) : State :=
  if !deltaWhole p then s.answer k stBAD_DESCRIPTOR 0
  else if s.ringRetired f p then s.answer k stRETIRED_PAGE 0
  else
    let t := (s.ringPieces f (s.factor f).tail p).foldl (fun s x => s.writeCorrections m.ces x.1 x.2.length) s
    s.orWait k m (s.rangeDomains (s.ringBase f) p.length) ((t.enterRing f p).answer k stOK 0)

/-- Segment 0: the destination checks of Table 9.2, then the reservation. -/
def State.firstSegment (s : State) (k : Packet) (m : Meets) : State :=
  let b := k.data
  let f := field b 0 2
  let len := field b 0x24 4
  if !s.deltaRecordOk f (field b 2 1) (field b 6 2) then s.answer k stBAD_DESCRIPTOR 0
  else
    let x := s.factor f
    let go : State :=
      if !x.hasRoom len then s.answer k stOK 0 1
      else if len ≤ b.length then s.landDelta k m f b
      else (s.setFactor f { x with reserved := x.reserved ++ [{ src := k.src, txn := k.txn, since := s.tick, len := len, got := b }] }).answer k stOK 0
    s.orWait k m (s.rangeDomains (s.ringBase f) len) go

/-- The reservations of sender `src` that the segment at packet offset `off` may continue, with their factors.
DESIGN CHOICE: notes/assumptions/38.md. -/
def State.openReserves (s : State) (src off : Nat) : List (Nat × Reserve) :=
  s.factors.flatMap fun (e : Nat × Factor) => (e.2.reserved.filter fun r => r.src == src && r.got.length == off).map fun r => (e.1, r)

/-- The oldest of them.
DEDUCED: notes/assumptions/88.md. -/
def State.reserveFor (s : State) (src off : Nat) : Option (Nat × Reserve) :=
  (s.openReserves src off).foldl (fun acc x => match acc with
    | none => some x
    | some y => if x.2.since < y.2.since then some x else some y) none

/-- Takes a reservation away. -/
def State.dropReserve (s : State) (f : Nat) (r : Reserve) : State :=
  s.setFactor f { s.factor f with reserved := (s.factor f).reserved.erase r }

/-- A later segment lands in its reservation; the last one lets the packet enter the ring.
DEDUCED: notes/assumptions/88.md. -/
def State.laterSegment (s : State) (k : Packet) (m : Meets) : State :=
  match s.reserveFor k.src k.addr with
  | none => s.answer k stBAD_DESCRIPTOR 0
  | some (f, r) =>
    let got := r.got ++ k.data
    let ds := s.rangeDomains (s.ringBase f) r.len
    if r.len ≤ got.length ∧ !(s.asleep ds).isEmpty then s.putOff (.packet k ds m) ds
    else if r.len ≤ got.length then ((s.dropReserve f r).landDelta k m f got).retryLocal
    else
      let x := s.factor f
      (s.setFactor f { x with reserved := x.reserved.map fun y => if y = r then { r with got := got } else y }).answer k stOK 0

/-- DELTA. -/
def State.serveDelta (s : State) (k : Packet) (m : Meets) : State := if k.addr = 0 then s.firstSegment k m else s.laterSegment k m

/-! ### Buckets, gates and rings (R302, R310, R311, R315, R317) -/

/-- BUCKET: always acknowledged with OK (R302).
DEDUCED: notes/assumptions/40.md. -/
def State.serveBucket (s : State) (k : Packet) : State :=
  (s.countBucket (field k.hdr 0 4) (field k.hdr 4 2) (field k.hdr 8 8)).answer k stOK 0

/-- Which child of this module `node` is: 0, 1, or none. -/
def State.childIndex (s : State) (node : Nat) : Option Nat :=
  let r := s.topo.rank s.node
  let c := s.topo.rank node
  if c = 2 * r + 1 then some 0 else if c = 2 * r + 2 then some 1 else none

/-- GATE_UP. With a decision the primaries' buffers are read for their mirrors, and the correctable errors met there are logged (R360).
DEDUCED: notes/assumptions/89.md. -/
def State.serveGateUp (s : State) (k : Packet) (m : Meets) : State :=
  let r := GateRec.ofBytes (coStep k) k.data
  let g := s.grad.gate
  let put (g : Gate) : State := { s with grad := { s.grad with gate := g } }
  ((match s.childIndex k.src with
    | some 0 => (put { g with child0 := some r }).tryCombine
    | some _ => (put { g with child1 := some r }).tryCombine
    | none => s).forwardErrors s m.ces).answer k stOK 0

/-- GATE_DOWN.
DEDUCED: notes/assumptions/89.md. -/
def State.serveGateDown (s : State) (k : Packet) (m : Meets) : State :=
  let x := Decision.ofBytes k.data
  ((match s.openGate with
    | some d => if Gt.step d.bytes = x.step then s.applyDecision d x else s
    | none => s).forwardErrors s m.ces).answer k stOK 0

/-- Blocks of a bucket. -/
def BucketRec.blocks (r : BucketRec) : Nat := ceilDiv r.elements 64

/-- The owner has the maxima of every block: it sends the codes to the member at distance 1 (R310). -/
def State.ringScale (s : State) (b : Nat) (r : BucketRec) (step : Nat) : State :=
  let p := s.pass b
  let h := match s.coll with
    | some c => (c.liveFor (s.bkt b).step).headroom
    | none => 0
  if p.maxIn.length < r.blocks then s
  else
    (s.sendBytes s.ringNext skRING_SCALE b step (p.maxIn.map fun m => BitVec.ofNat 8 (ringCode (signed 8 m.toNat) h))).setPass b
      { p with maxIn := [] }

/-- Domains and tier units of a member's own part of the pass: what its blocks read, and the residuals they leave (R311). -/
def State.passDomains (s : State) (b : Nat) : List Nat := match s.ringDesc b with
  | some d => s.rangeDomains (Rc.src d.bytes) (4 * Rc.count d.bytes)
  | none => []

/-- RING_MAX.
DEDUCED: notes/assumptions/90.md. -/
def State.serveRingMax (s : State) (k : Packet) : State :=
  let b := coSubject k
  match s.bucketRec b with
  | none => s.answer k stBAD_DESCRIPTOR 0
  | some r =>
    let s1 := s.setPass b { s.pass b with maxIn := (s.pass b).maxIn ++ k.data }
    if r.owner = s.node then (s1.ringScale b r (coStep k)).answer k stOK 0
    else s.orWait k {} (s.passDomains b) ((s1.ringAdvance b).answer k stOK 0)

/-- RING_SCALE. -/
def State.serveRingScale (s : State) (k : Packet) : State :=
  let b := coSubject k
  s.orWait k {} (s.passDomains b) (((s.setPass b { s.pass b with scale := (s.pass b).scale ++ k.data }).ringAdvance b).answer k stOK 0)

/-- The blocks in a RING_DATA payload. -/
def ringBlocksGo : (fuel : Nat) → Bytes → List Bytes
  | 0, _ => []
  | f + 1, b => if b.length < 4 ∨ b.length < ringBlockLen b then [] else b.take (ringBlockLen b) :: ringBlocksGo f (b.drop (ringBlockLen b))

/-- The owner adds blocks into the buffer, in the order of their arrival.
DEDUCED: notes/assumptions/37.md. -/
def State.ownerBlocks (s : State) (b : Nat) (r : BucketRec) (bs : List Bytes) : Applied :=
  bs.foldl (fun (acc : Applied) x =>
    let t := acc.st
    let i := (t.pass b).taken
    let n := min 64 (r.elements - 64 * i)
    let a := applyElements t 0 ((t.bktBuf b).1 + 256 * i) (((ringDecode x).take n).map (leBytes 4))
    let next := if r.blocks ≤ i + 1 then 0 else i + 1
    { st := a.st.setPass b { a.st.pass b with taken := next }, status := worse acc.status a.status, flags := acc.flags ||| a.flags }) { st := s }

/-- RING_DATA.
PRESUMED: notes/assumptions/36.md. DEDUCED: notes/assumptions/37.md. -/
def State.serveRingData (s : State) (k : Packet) (m : Meets) : State :=
  let b := coSubject k
  match s.bucketRec b with
  | none => s.answer k stBAD_DESCRIPTOR 0
  | some r =>
    if r.owner = s.node then
      let buf := s.bktBuf b
      let a := (s.corrections m.ces buf.1 buf.2).ownerBlocks b r (ringBlocksGo (k.data.length / 4) k.data)
      s.orWait k m (s.bucketDomains b) (a.st.answer k a.status a.flags)
    else s.orWait k m (s.passDomains b)
      (((s.setPass b { s.pass b with waiting := (s.pass b).waiting ++ k.data }).ringAdvance b).answer k stOK 0)

/-! ### Mirrors and fingerprints (R331, R333) -/

/-- `n` bytes of the forward of `step` have landed at a mirror: of the step at hand, or of the one after it while the bucket has not passed its
BCAST (R301). -/
def State.noteForward (s : State) (b step n : Nat) : State :=
  let x := s.bkt b
  if (x.eff ≠ .opened ∨ x.mirrorDue) ∧ x.step < step then s.setBkt b { x with fwdNext := x.fwdNext + n }
  else s.setBkt b { x with fwdBytes := x.fwdBytes + n, fwdDone := decide ((s.bktBuf b).2 ≤ x.fwdBytes + n) }

/-- MIRROR_FWD: the offset in the buffer, then the bytes.
PRESUMED: notes/assumptions/36.md. DEDUCED: notes/assumptions/90.md. -/
def State.serveMirror (s : State) (k : Packet) (m : Meets) : State :=
  let b := coSubject k
  let off := field k.data 0 8
  let data := k.data.drop 8
  let buf := s.bktBuf b
  let a := buf.1 + off
  if s.role b ≠ some true ∨ buf.2 < off + data.length then s.answer k stBAD_DESCRIPTOR 0
  else if s.touchesRetired a data.length then s.answer k stRETIRED_PAGE 0
  else
    let t := (s.writeCorrections m.ces a data.length).writeBytes a data
    s.orWait k m (s.rangeDomains a data.length) (((t.noteForward b (coStep k) data.length).settleMirror b).answer k stOK 0)

/-- FPRINT. -/
def State.serveFp (s : State) (k : Packet) (m : Meets) : State :=
  let b := coSubject k
  let f := s.fp b
  let t := (s.corrections m.ces f.src f.bytes).takeFp b (coFlags k) (BitVec.ofNat 64 (field k.data 0 8)) (BitVec.ofNat 64 (field k.data 8 8)) (field k.data 16 8)
  s.orWait k m (if f.own.isSome then s.rangeDomains f.src f.bytes else []) (t.answer k stOK 0)

/-! ### Parameters (R328, R329) -/

/-- A stream to the next module: its transaction is this module's own, on behalf of the relay. -/
def State.openStream (s : State) (r : Relay) (x : Nat × Nat × Nat) : State × (Nat × Nat × Nat × Nat × Nat) :=
  let n := s.nextTxn
  let dst := s.topo.step s.node x.1 x.2.1
  let t : Txn := { txn := n, use := .relay r.src r.txn, kind := kCOLL, sub := skBCAST_DATA, dst := dst, sent := s.tick, addr := 0, len := 0, off := 0 }
  ({ s with nextTxn := (n + 1) % 2 ^ 32, txns := s.txns ++ [t] }, (n, dst, x.1, x.2.1, x.2.2))

/-- The relay of a BCAST_DATA packet, opened by its first. -/
def State.relayFor (s : State) (k : Packet) : State × Relay :=
  match s.relay? k.src k.txn with
  | some r => (s, r)
  | none =>
    let x := coB13 k
    let r0 : Relay := { src := k.src, txn := k.txn, total := field k.data 8 4, landed := 0, bucket := coSubject k, step := coStep k
                        status := stOK, down := [], open_ := [] }
    let xs := s.topo.relayStreams (coB12 k) (x % 4) (x / 4 % 2) (x / 8)
    let o := xs.foldl (fun (acc : State × List (Nat × Nat × Nat × Nat × Nat)) y =>
      let t := acc.1.openStream r0 y
      (t.1, acc.2 ++ [t.2])) (s, [])
    let r : Relay := { r0 with down := o.2, open_ := o.2.map (·.1) }
    ({ o.1 with grad := { o.1.grad with relays := o.1.grad.relays ++ [r] } }, r)

/-- Sends a packet on along one stream. -/
def State.passOn (s : State) (k : Packet) (x : Nat × Nat × Nat × Nat × Nat) : State :=
  s.send (s.packet x.2.1 kCOLL k.epoch x.1
    (collHeader skBCAST_DATA 0 (coB12 k) (streamByte (x.2.2.1, x.2.2.2.1, x.2.2.2.2)) (coSubject k) (coStep k)) k.data)

/-- BCAST_DATA: the bytes are written and sent on; the ACK waits for the end (R328).
PRESUMED: notes/assumptions/36.md. -/
def State.serveBcast (s : State) (k : Packet) (m : Meets) : State :=
  let dst := field k.data 0 8 % 2 ^ 48
  let a := dst + field k.data 12 4
  let piece := k.data.drop 16
  let st := if !s.populated dst (field k.data 8 4) then stBAD_DESCRIPTOR
    else if s.touchesRetired a piece.length then stRETIRED_PAGE else stOK
  let r := s.relayFor k
  let s1 := r.2.down.foldl (fun s x => s.passOn k x) r.1
  let w := if st = stOK then (s1.writeCorrections m.ces a piece.length).portWrite m a piece else (s1, st)
  let r1 := { r.2 with landed := r.2.landed + piece.length, status := worse r.2.status w.2, own := worse r.2.own w.2 }
  let s2 := w.1
  s.orWait k m (if st = stOK then s.rangeDomains a piece.length else []) ((s2.setRelay r1).endRelay r1)

/-- A PARAM_DATA answer: SUBFLAGS bit 0 is NOT_READY.
PRESUMED: notes/assumptions/36.md. -/
def State.paramData (s : State) (k : Packet) (notReady : Bool) (data : Bytes) : State :=
  s.send { dst := k.src, src := s.node, kind := kCOLL, epoch := k.epoch, txn := k.txn
           hdr := collHeader skPARAM_DATA (b2n notReady) 0 0 (coSubject k) (coStep k), data := data }

/-- PARAM_READ: the address and the length; a range that fails is answered by an ACK. -/
def State.serveParamRead (s : State) (k : Packet) (m : Meets) : State :=
  let a := field k.data 0 8 % 2 ^ 48
  let n := field k.data 8 4
  let st := s.rangeStatus a n true
  let t := s.corrections m.ces a n
  if st ≠ stOK then s.answer k st 0
  else if s.grad.paramStep.get 0 (coSubject k) < coStep k then s.paramData k true []
  else s.orWait k m (s.rangeDomains a n) ((t.paramData k false (t.readSrc a n)).afterRead a n)

/-- PARAM_DATA: the bytes at their place, or a repeat 25 ticks later (R329).
DEDUCED: notes/assumptions/90.md. -/
def State.takeParam (s : State) (k : Packet) : State :=
  match s.txns.find? fun t => t.txn == k.txn && t.sub == skPARAM_READ with
  | none => s
  | some t =>
    let s1 := { s with txns := s.txns.filter (·.txn != k.txn) }
    match t.use with
    | .desc id => match s1.work? id with
      | some (.gather st retry) =>
        if (coFlags k).testBit 0 then s1.setWork id (.gather st (retry ++ [(t.off, t.len, s.tick + 25)]))
        else (s1.updDesc id fun d => { d with got := d.got ++ [(t.addr, k.data)] }).gatherEnd id
      | _ => s1
    | _ => s1

/-! ### Root holds (R321, R322) -/

/-- ROOT_HOLD: the slot held comes back in the ACK; headers on a retired page are not read (R266).
PRESUMED: notes/assumptions/36.md. DESIGN CHOICE: notes/assumptions/44.md. -/
def State.serveHold (s : State) (k : Packet) (m : Meets) : State :=
  let f := coSubject k
  if (s.factorRec f).isNone then s.answer k stBAD_DESCRIPTOR 0
  else if s.controlRetired f then s.answer k stRETIRED_PAGE 0
  else
    let t := (s.corrections m.ces (s.factorBase f) controlSize).takeHold f (field k.data 0 4) k.src
    s.orWait k m s.sergeDomains { t.1.answer k stOK 0 0 (t.1.rootAnswer f t.2) with draws := s.draws + 2 }

/-- ROOT_DROP. -/
def State.serveDrop (s : State) (k : Packet) : State := (s.dropHold (coSubject k) (field k.data 0 4) k.src).answer k stOK 0

/-! ### Stage queues (R340, R343 to R346) -/

/-- Key of a stage queue at its sender. -/
def stageKey (stage dir : Nat) : Nat := 2 * stage + dir

/-- The module that holds a stage: this one's coordinates with the stage's on the pipeline axis (R338). -/
def State.stageNode (s : State) (stage : Nat) : Nat := match s.topo.cutAxis 2 with
  | some a => setCoord s.node a (stage % s.topo.size a)
  | none => s.node

/-- The PIPELINE record of a queue here. -/
def State.queueOf (s : State) (stage dir : Nat) : Option (Nat × QueueRec) :=
  ((List.range s.pipe.queues.length).zip s.pipe.queues).find? fun e => e.2.stage == stage && e.2.dir == dir

/-- Where a stage may take bytes in (R342): the stores of its groups' clusters here, and the groups' stash regions, as address and size. -/
def State.intakePlaces (s : State) (stage : Nat) : List (Nat × Nat) :=
  ((List.range s.groups.length).zip s.groups).flatMap fun e =>
    if e.2.stage = stage then
      ((List.range 512).filter fun n => e.2.clusters.testBit n && s.clusterPresent n).map (fun n => (storeBase n, storeSize)) ++
        (s.regions.filter fun r => (r.kind == 1 || r.kind == 2) && r.group == e.1).map fun r => (r.base, r.size)
    else []

/-- The domains of those places. -/
def State.intakeDomains (s : State) (stage : Nat) : List Nat := ((s.intakePlaces stage).flatMap fun p => s.rangeDomains p.1 p.2).eraseDups

/-- A stage's write of what it takes in, at the movement port (R240, R241): words on a retired page are refused (R266), and a word that loses 16
contests stays unwritten.
DESIGN CHOICE: notes/assumptions/20.md, notes/assumptions/110.md. -/
def State.intakeWrite (s : State) (m : Meets) (a : Nat) (b : Bytes) : State :=
  let t := s.writeCorrections m.ces a b.length
  if !s.touchesRetired a b.length then (t.portWrite m a b).1
  else ((chunks 8 b).foldl (fun (x : State × Nat) c =>
    (if x.1.touchesRetired x.2 c.length then x.1 else (x.1.portWrite m x.2 c).1, x.2 + c.length)) (t, a)).1

/-- Moves a segment's bytes to where the stage's schedule takes them in: a free place among those.
DESIGN CHOICE: notes/assumptions/99.md. -/
def State.intake (s : State) (stage : Nat) (b : Bytes) (m : Meets) : State :=
  match s.intakePlaces stage with
  | [] => s
  | p :: ps =>
    let q := (p :: ps).getD ((Config.freeWord s.draws).toNat % (ps.length + 1)) p
    { s.intakeWrite m (q.1 + (Config.freeWord (s.draws + 1)).toNat % ((q.2 - b.length) / 8 + 1) * 8) b with draws := s.draws + 2 }

/-- Takes in the segments that have arrived, in ring order, and frees their bytes (R342, R344). -/
def State.takeIn (i : Nat) (r : QueueRec) (m : Meets) : (fuel : Nat) → State → State
  | 0, s => s
  | f + 1, s =>
    let q := s.shard.queues.get {} i
    match q.segs.find? fun e => e.1 == q.freed - q.carried with
    | some e =>
      let a := linkBase r.lTile + r.bufOff + q.freed % max 1 r.credit
      let s1 := (s.corrections m.ces a e.2).intake r.stage (s.readBytes a e.2) m
      let q1 : StageQ := { q with segs := q.segs.erase e, freed := q.freed + e.2, heldBytes := q.heldBytes - e.2 }
      State.takeIn i r m f { s1 with shard := { s1.shard with queues := s1.shard.queues.set {} i q1 } }
    | none => s

/-- The message is taken in whole. -/
def StageQ.ends (q : StageQ) : Bool := q.lastAt == some (q.freed - q.carried)

/-- FREED of the sender of a queue; a segment that waits for it may start (`trySends`). -/
def State.takeCredit (s : State) (stage dir freed : Nat) : State :=
  let x := s.shard.tx.get {} (stageKey stage dir)
  { s with shard := { s.shard with tx := s.shard.tx.set {} (stageKey stage dir) { x with freed := freed } } }

/-- A STAGE_CREDIT packet, or its effect here when the sender is this module.
DEDUCED: notes/assumptions/50.md. -/
def State.giveCredit (s : State) (src stage dir step freed : Nat) : State :=
  if src = s.node then s.takeCredit stage dir freed else s.sendColl src skSTAGE_CREDIT dir stage 0 0 step (leBytes 8 freed)

/-- A segment is placed in its ring, and the stage takes it in (R342, R343).
DEDUCED: notes/assumptions/50.md. -/
def State.placeSegment (s : State) (i : Nat) (r : QueueRec) (src o step : Nat) (last : Bool) (data : Bytes) (m : Meets) : State :=
  let q := s.shard.queues.get {} i
  let s1 := s.writeBytes (linkBase r.lTile + r.bufOff + (q.carried + o) % max 1 r.credit) data
  let q1 : StageQ :=
    { q with
      heldBytes := q.heldBytes + data.length, step := some (q.step.getD step), segs := q.segs ++ [(o, data.length)]
      lastAt := if last then some (o + data.length) else q.lastAt }
  let t := ({ s1 with shard := { s1.shard with queues := s1.shard.queues.set {} i q1 } }).touch [32 + r.lTile]
  let t1 := State.takeIn i r m (q1.segs.length + 1) t
  let q2 := t1.shard.queues.get {} i
  let whole := q2.ends
  let next := (q2.microBatch + 1) % max 1 t1.pipe.microBatches
  let q3 : StageQ := if whole then { q2 with messages := min (q2.messages + 1) 0xFFFF, carried := q2.freed, lastAt := none, microBatch := next
                                             step := q2.step.map fun x => if next = 0 then x + 1 else x } else q2
  let due := whole || decide (65536 ≤ q3.freed - q3.lastCredit)
  let q4 : StageQ := if due then { q3 with lastCredit := q3.freed } else q3
  let s2 := { t1 with shard := { t1.shard with queues := t1.shard.queues.set {} i q4 } }
  if due then s2.giveCredit src r.stage r.dir step (q4.freed % 2 ^ 64) else s2

/-- STAGE_DATA.
DEDUCED: notes/assumptions/90.md. -/
def State.serveStage (s : State) (k : Packet) (m : Meets) : State :=
  match s.queueOf (coB12 k) (coFlags k % 2) with
  | none => s.answer k stBAD_DESCRIPTOR 0
  | some (i, r) =>
    s.orWait k m ((32 + r.lTile) :: s.intakeDomains r.stage)
      ((s.placeSegment i r k.src (64 * coSubject k) (coStep k) ((coFlags k).testBit 1) k.data m).answer k stOK 0)

/-- CREDIT_BYTES of the queue that a segment goes to: that of the record where the queue is this module's own, else what its sender knows.
DEDUCED: notes/assumptions/50.md. -/
def State.sendCredit (s : State) (g : StageSeg) : Nat :=
  if s.stageNode g.stage = s.node then match s.queueOf g.stage g.dir with
    | some (_, r) => r.credit
    | none => 0
  else g.credit

/-- R344: the segment has no credit. -/
def State.lacksCredit (s : State) (g : StageSeg) : Bool :=
  let x := s.shard.tx.get {} (stageKey g.stage g.dir)
  decide (s.sendCredit g < (x.sent + 2 ^ 64 - x.freed) % 2 ^ 64 + g.len)

/-- The domains that a segment's start needs: those of its bytes, and of the queue and its stage where they are here. -/
def State.sendDomains (s : State) (g : StageSeg) : List Nat :=
  s.rangeDomains g.src g.len ++ (if s.stageNode g.stage = s.node then match s.queueOf g.stage g.dir with
    | some (_, r) => (32 + r.lTile) :: s.intakeDomains r.stage
    | none => [] else [])

/-- Starts a segment: its bytes count in SENT and leave.
DEDUCED: notes/assumptions/50.md. -/
def State.startSegment (s : State) (g : StageSeg) : State :=
  let key := stageKey g.stage g.dir
  let x := s.shard.tx.get {} key
  let s0 := s.corrections g.meets.ces g.src g.len
  let s1 := ({ s0 with shard := { s.shard with tx := s.shard.tx.set {} key { x with sent := (x.sent + g.len) % 2 ^ 64 } } }).touch
    (s.rangeDomains g.src g.len)
  let data := s.readBytes g.src g.len
  if s.stageNode g.stage = s.node then match s.queueOf g.stage g.dir with
    | some (i, r) => s1.placeSegment i r s.node g.off g.step g.last data g.meets
    | none => s1
  else s1.sendColl (s.stageNode g.stage) skSTAGE_DATA (g.dir + 2 * b2n g.last) g.stage g.microBatch (g.off / 64) g.step data

/-- Starts, of the segments of a list, those that can start: the first of its queue, with credit and its domains awake. The rest remain, one
whose bytes lie on a retired page among them, since their read is refused (R265).
DESIGN CHOICE: notes/assumptions/110.md. -/
def State.sendsGo : State → (blocked : List Nat) → List StageSeg → State × List StageSeg
  | s, _, [] => (s, [])
  | s, blocked, g :: gs =>
    let key := stageKey g.stage g.dir
    let off := s.asleep (s.sendDomains g)
    if blocked.contains key || s.lacksCredit g || s.touchesRetired g.src g.len then
      let r := State.sendsGo s (key :: blocked) gs
      (r.1, g :: r.2)
    else if off.isEmpty then State.sendsGo (s.startSegment g) blocked gs
    else
      let r := State.sendsGo (s.putOff (.segment key (s.sendDomains g)) (s.sendDomains g)) (key :: blocked) gs
      (r.1, g :: r.2)

/-- The waiting segments that can start do, but for those into the queues `blocked`. -/
def State.trySends (s : State) (blocked : List Nat := []) : State :=
  let r := s.sendsGo blocked s.shard.sends
  { r.1 with shard := { r.1.shard with sends := r.2 } }

/-- The waiting segments into the queue `key` that can start do. -/
def State.trySend (s : State) (key : Nat) : State :=
  s.trySends ((s.shard.sends.map fun g => stageKey g.stage g.dir).filter (· != key))

/-- STAGE_CREDIT. -/
def State.serveCredit (s : State) (k : Packet) : State :=
  ((s.takeCredit (coB12 k) (coFlags k % 2) (field k.data 0 8)).answer k stOK 0).trySends

/-! ### Re-sharding (R352, R354) -/

/-- PERMUTE_DATA: bytes 0x18 to 0x1F hold the destination. -/
def State.servePermute (s : State) (k : Packet) (m : Meets) : State :=
  let a := gaLocal (coStep k)
  let st := s.rangeStatus a k.data.length false
  if st ≠ stOK then s.answer k st 0
  else s.orWait k m (s.rangeDomains a k.data.length) (s.writeAnswered k m a k.data)

/-- RESHARD_UP.
DEDUCED: notes/assumptions/90.md. -/
def State.serveVote (s : State) (k : Packet) : State :=
  let v := field k.data 4 1
  if field k.data 0 4 ≠ s.epochPending then s.answer k stOK 0
  else
    (match s.childIndex k.src with
      | some 0 => { s with shard := { s.shard with vote0 := some v } }.tryVote
      | some _ => { s with shard := { s.shard with vote1 := some v } }.tryVote
      | none => s).answer k stOK 0

/-- RESHARD_DOWN. A held switch does not go on (R356). -/
def State.serveSwitch (s : State) (k : Packet) : State :=
  let t := s.answer k stOK 0
  if s.shard.begun && !s.switchHeld && field k.data 0 4 == s.epochPending then t.decideSwitch (field k.data 4 1) else t

/-! ### Serving a packet -/

/-- The correctable errors that data of transaction `txn` meet where they are to be placed here (R359, R360).
DESIGN CHOICE: notes/assumptions/46.md. -/
def State.dataErrors (s : State) (txn n : Nat) (m : Meets) : State := match s.txns.find? (·.txn == txn) with
  | some t => if s.isSelf (gaNode t.addr) then s.writeCorrections m.ces (gaLocal t.addr) n else s
  | none => s

/-- Those of a PARAM_DATA packet, whose place is a local address. -/
def State.paramErrors (s : State) (k : Packet) (m : Meets) : State := match s.txns.find? fun t => t.txn == k.txn && t.sub == skPARAM_READ with
  | some t => s.writeCorrections m.ces (gaLocal t.addr) k.data.length
  | none => s

/-- The effect of a packet that has been admitted, at once or after the wakes it waited for. -/
def State.serveColl (s : State) (k : Packet) (m : Meets) : State :=
  match coSub k with
  | 0x01 => s.serveGateUp k m
  | 0x02 => s.serveGateDown k m
  | 0x03 => s.serveRingMax k
  | 0x04 => s.serveRingScale k
  | 0x05 => s.serveRingData k m
  | 0x06 => s.serveMirror k m
  | 0x07 => s.serveFp k m
  | 0x08 => s.serveBcast k m
  | 0x09 => s.serveParamRead k m
  | 0x0A => (s.paramErrors k m).takeParam k
  | 0x0B => s.serveHold k m
  | 0x0C => s.serveDrop k
  | 0x40 => s.serveStage k m
  | 0x41 => s.serveCredit k
  | 0x42 => s.servePermute k m
  | 0x43 => s.serveVote k
  | 0x44 => s.serveSwitch k
  | _ => s

/-- Data bytes of a COLL packet of this length: what its flits hold beyond them is padding (R280). Where the spec gives no length, it follows from
the range that the packet fills, or from bytes 0x12 and 0x13.
PRESUMED: notes/assumptions/36.md. -/
def State.collLen (s : State) (k : Packet) : Nat :=
  let b := coSubject k
  let buf := s.bktBuf b
  let blocks := match s.bucketRec b with
    | some r => r.blocks
    | none => 0
  let upTo (a off total most : Nat) : Nat := min most (min (total - off) (2048 - (a + off) % 2048))
  match coSub k with
  | 0x01 => 24
  | 0x02 => 64
  | 0x03 => min 2048 (blocks - (s.pass b).maxIn.length)
  | 0x04 => min 2048 (blocks - (s.pass b).scale.length)
  | 0x05 => ((ringBlocksGo (k.data.length / 4) k.data).map List.length).sum
  | 0x06 => 8 + upTo buf.1 (field k.data 0 8) buf.2 2040
  | 0x07 => 28
  | 0x08 => 16 + upTo (field k.data 0 8) (field k.data 12 4) (field k.data 8 4) 2032
  | 0x09 => 12
  | 0x0A => match s.txns.find? (·.txn == k.txn) with
    | some t => t.len
    | none => 0
  | 0x0B => 4
  | 0x0C => 4
  | 0x40 => k.data.length / 64 * 64
  | 0x41 => 8
  | 0x42 => coB12 k + 256 * coB13 k
  | 0x43 => 5
  | 0x44 => 5
  | _ => k.data.length

/-- The packet without the padding of its last flit. -/
def State.unpadded (s : State) (k : Packet) : Packet := if k.kind = kCOLL then { k with data := k.data.take (s.collLen k) } else k

def State.servePacket (s : State) (k : Packet) (m : Meets) : State :=
  match k.kind with
  | 0x01 => s.serveRead k m
  | 0x02 =>
    let t := s.dataErrors k.txn k.data.length m
    if s.swapTxn k.txn then t.takeOld k.txn k.data else t.respond k.txn k.status k.numFlags k.respFlags k.data
  | 0x03 => s.serveWrite k m
  | 0x05 => s.serveRacc k m
  | 0x07 => s.serveSignal k
  | 0x09 => s.serveDelta k m
  | 0x0B => s.serveBucket k
  | 0x0F => s.respond k.txn k.status k.numFlags k.respFlags k.data
  | 0x10 => s.serveColl (s.unpadded k) m
  | _ => s

/-- Kinds under the epoch check (R348). -/
def epochChecked (kind : Nat) : Bool := kind == kRACC || kind == kBUCKET || kind == kDELTA || kind == kCOLL

/-- A PARAM_DATA refused under R348: the request that it answers ends with EPOCH_STALE. -/
def State.refuseParam (s : State) (k : Packet) : State := s.countStale.respond k.txn stEPOCH_STALE 0 0 []

/-- The epoch check, then the packet's effect. -/
def State.admitPacket (s : State) (k : Packet) (m : Meets) : State :=
  if !epochChecked k.kind then s.servePacket k m
  else if k.kind = kCOLL ∧ coSub k = skPARAM_DATA ∧ s.epochCheck kCOLL k.epoch = .stale then s.refuseParam k
  else
    let a := s.letIn k
    if a.2 then a.1.servePacket k m else a.1

/-- A packet that some row of the table serves. -/
def servable (k : Packet) : Bool :=
  k.kind == kREAD_REQ || k.kind == kREAD_RESP || k.kind == kWRITE || k.kind == kRACC || k.kind == kSIGNAL || k.kind == kDELTA || k.kind == kBUCKET ||
    k.kind == kACK || k.kind == kBEACON || (k.kind == kCOLL && (decide (1 ≤ coSub k ∧ coSub k ≤ 12) || decide (0x40 ≤ coSub k ∧ coSub k ≤ 0x44)))

/-- No packet of the same source and VC that was sent earlier still waits; a turned one keeps no order (R283).
DEDUCED: notes/assumptions/62.md. -/
def State.firstOfItsVc (s : State) (k : Packet) : Bool :=
  pkTurned k || !(s.arrived.takeWhile (· != k)).any fun e =>
    e.src == k.src && kindVc e.kind == kindVc k.kind && !pkTurned e && servable e

/-- A segment belongs to the message under way in its queue, by its micro-batch and its step; one of a later message, which has overtaken, waits
for it (R343).
DEDUCED: notes/assumptions/117.md. -/
def State.stageTurn (s : State) (k : Packet) : Bool :=
  !(k.kind == kCOLL && coSub k == skSTAGE_DATA && s.epochCheck kCOLL k.epoch == .accept) || (match s.queueOf (coB12 k) (coFlags k % 2) with
    | some (i, _) => let q := s.shard.queues.get {} i; coB13 k == q.microBatch && (q.step.isNone || q.step == some (coStep k))
    | none => true)

/-- A packet whole at this module, of the row's kind, in the order of its source and VC. -/
def deliver (isRow : Bool) (k : Packet) (m : Meets) (s : State) : Out :=
  if !k.wf then .fault .noSuchUnit
  else event (s.up && isRow && s.arrived.contains k && s.firstOfItsVc k && s.stageTurn k) s (((s.take k).admitPacket k m).advance.returnSlots)

/-- A COLL packet of subkind `sub`. -/
def isColl (sub : Nat) (k : Packet) : Bool := k.kind == kCOLL && coSub k == sub

/-! ### Meanings -/

/-- R280. -/
def execReadReq (k : Packet) (s : State) (m : Meets := {}) : Out := deliver (k.kind == kREAD_REQ) k m s

/-- R280. -/
def execReadResp (k : Packet) (s : State) (m : Meets := {}) : Out := deliver (k.kind == kREAD_RESP) k m s

/-- R280. -/
def execWrite (k : Packet) (s : State) (m : Meets := {}) : Out := deliver (k.kind == kWRITE) k m s

/-- R128, R129, R281. -/
def execRaccPacket (k : Packet) (s : State) (m : Meets := {}) : Out := deliver (k.kind == kRACC) k m s

/-- R166. -/
def execSignalPacket (k : Packet) (s : State) : Out := deliver (k.kind == kSIGNAL) k {} s

/-- R282. -/
def execDelta (k : Packet) (s : State) (m : Meets := {}) : Out := deliver (k.kind == kDELTA) k m s

/-- R302, R304. -/
def execBucket (k : Packet) (s : State) : Out := deliver (k.kind == kBUCKET) k {} s

/-- R280. -/
def execAck (k : Packet) (s : State) : Out := deliver (k.kind == kACK) k {} s

/-- R315. -/
def execGateUp (k : Packet) (s : State) (m : Meets := {}) : Out := deliver (isColl skGATE_UP k) k m s

/-- R316, R317. -/
def execGateDown (k : Packet) (s : State) (m : Meets := {}) : Out := deliver (isColl skGATE_DOWN k) k m s

/-- R310. -/
def execRingMax (k : Packet) (s : State) : Out := deliver (isColl skRING_MAX k) k {} s

/-- R310. -/
def execRingScale (k : Packet) (s : State) : Out := deliver (isColl skRING_SCALE k) k {} s

/-- R311. -/
def execRingData (k : Packet) (s : State) (m : Meets := {}) : Out := deliver (isColl skRING_DATA k) k m s

/-- R331. -/
def execMirrorFwd (k : Packet) (s : State) (m : Meets := {}) : Out := deliver (isColl skMIRROR_FWD k) k m s

/-- R333. -/
def execFprint (k : Packet) (s : State) (m : Meets := {}) : Out := deliver (isColl skFPRINT k) k m s

/-- R328. -/
def execBcastData (k : Packet) (s : State) (m : Meets := {}) : Out := deliver (isColl skBCAST_DATA k) k m s

/-- R329. -/
def execParamRead (k : Packet) (s : State) (m : Meets := {}) : Out := deliver (isColl skPARAM_READ k) k m s

/-- R329. -/
def execParamData (k : Packet) (s : State) (m : Meets := {}) : Out := deliver (isColl skPARAM_DATA k) k m s

/-- R321, R322. -/
def execRootHold (k : Packet) (s : State) (m : Meets := {}) : Out := deliver (isColl skROOT_HOLD k) k m s

/-- R322. -/
def execRootDrop (k : Packet) (s : State) : Out := deliver (isColl skROOT_DROP k) k {} s

/-- R343. -/
def execStageData (k : Packet) (s : State) (m : Meets := {}) : Out := deliver (isColl skSTAGE_DATA k) k m s

/-- R344. -/
def execStageCredit (k : Packet) (s : State) : Out := deliver (isColl skSTAGE_CREDIT k) k {} s

/-- R352. -/
def execPermuteData (k : Packet) (s : State) (m : Meets := {}) : Out := deliver (isColl skPERMUTE_DATA k) k m s

/-- R354. -/
def execReshardUp (k : Packet) (s : State) : Out := deliver (isColl skRESHARD_UP k) k {} s

/-- R354, R355. -/
def execReshardDown (k : Packet) (s : State) : Out := deliver (isColl skRESHARD_DOWN k) k {} s

/-- R282: a reservation whose segments have not all arrived 250,000 ticks after segment 0 is released. -/
def execDeltaReservationTimeout (f txn : Nat) (s : State) : Out :=
  guarded (factorOk f) (match (s.factor f).reserved.find? fun r => r.txn == txn && s.runOut (r.since + 250000) with
    | some r => ((s.dropReserve f r).retryLocal).advance
    | none => s)

/-- R318: the next bucket is released once its conditions hold, and the cluster it is signalled to serves. -/
def State.releaseNext (s : State) (ces : List (Nat × Nat)) : State :=
  match s.nextRelease with
  | some (l, b) => if s.domOn (l.n / 16) then (s.release l b ces).advance else s.wake (l.n / 16)
  | none => s

/-- R318. -/
def execBucketRelease (s : State) (ces : List (Nat × Nat) := []) : Out := .next (s.releaseNext ces)

/-! ### Sending into a stage queue (R340, R343 to R346) -/

/-- Whose queue the sending group feeds: forward output to the next stage, backward output to the one before (R340). -/
def State.feeds (s : State) (g : StageSeg) : Bool := match s.groups[g.group]? with
  | some r => decide (g.stage < s.pipe.stageCount) && (if g.dir = 0 then g.stage == r.stage + 1 else g.stage + 1 == r.stage)
  | none => false

/-- The segment follows those its stage has offered before (R343): the next bytes of the message under way, or the start of the next
micro-batch's; whole in a ring that exists, from bytes that exist.
DEDUCED: notes/assumptions/50.md. -/
def State.follows (s : State) (g : StageSeg) : Bool :=
  let x := s.shard.tx.get {} (stageKey g.stage g.dir)
  let c := s.sendCredit g
  g.len % 64 == 0 && decide (64 ≤ g.len ∧ g.len ≤ 2048) && g.off == x.off && g.microBatch == x.microBatch && decide (0 < c) &&
    decide ((x.carried + g.off) % c + g.len ≤ c) && s.populated g.src g.len

/-- What the stage has offered into a queue, with this segment. -/
def StageTx.offered (x : StageTx) (g : StageSeg) (microBatches : Nat) : StageTx :=
  if g.last then { x with carried := x.carried + g.off + g.len, off := 0, microBatch := (g.microBatch + 1) % microBatches }
  else { x with off := g.off + g.len }

/-- R340, R343 to R346. A segment without credit waits. -/
def execStageSend (g : StageSeg) (s : State) : Out :=
  guarded g.wf (
    if !(s.up && s.feeds g && s.follows g) then s
    else
      let key := stageKey g.stage g.dir
      let x := s.shard.tx.get {} key
      { s with shard := { s.shard with
        tx := s.shard.tx.set {} key (x.offered g (max 1 s.pipe.microBatches)), sends := s.shard.sends ++ [g] } }.trySends)

/-- A tick in which a send waits for credit counts at its group (R345, Table 15.9). -/
def State.countStall (s : State) (e : Nat × Nat) : State :=
  let x := s.shard.stall.get (0, 0) e.1
  let y := if e.2 = 0 then (min (x.1 + 1) 0xFFFFFFFF, x.2) else (x.1, min (x.2 + 1) 0xFFFFFFFF)
  { s with shard := { s.shard with stall := s.shard.stall.set (0, 0) e.1 y } }

/-- The stalls of the tick that ends. -/
def State.stageTick (s : State) : State :=
  (((s.shard.sends.filter s.lacksCredit).map fun g => (g.group, g.dir)).eraseDups).foldl State.countStall s

end Sys2Proof.Machine
end

