-- ==== Sys2Proof/Machine/Hif.lean ====
section
/-! DEFINITION. The host interface beside its registers (19): BAR2, the PCIe function, the I3C port and the test port. -/

namespace Sys2Proof.Machine

/-! ### BAR0 accesses of a wrong size (R412) -/

/-- R412: 4 or 8 bytes, naturally aligned; any other access is refused, and a write of that kind changes nothing. -/
def execBar0BadAccess (off size : Nat) (_write : Bool) (s : State) : Out :=
  event (!((size == 4 || size == 8) && off % size == 0)) s (s.bar0 (s.refuse .completerAbort aeCA))

/-! ### BAR2 (R414 to R416) -/

/-- Every byte of a range may be reached through BAR2 (R414). Control space counts as unpopulated. -/
def State.bar2Reaches (s : State) (a n : Nat) : Bool := decide (a + n ≤ 2 ^ 48) && s.populated a n && !s.touchesRetired a n

/-- A request refused under R414. -/
def State.bar2Refuse (s : State) : State :=
  { s with hif := { s.hif with bar2Ur := min (s.hif.bar2Ur + 1) 0xFFFF } }.refuse .unsupported aeUR

/-- An earlier BAR2 write to some byte of [a, a + n) still waits.
DEDUCED: notes/assumptions/80.md. -/
def State.behindWrite (s : State) (a n : Nat) : Bool := s.hif.waiting.any fun w => match w.req with
  | .write x b _ _ => overlap a n x b.length
  | _ => false

/-- A BAR2 request on [a, a + n): `t` when its domains serve accesses, else it waits for them (R415). -/
def State.reach (s : State) (q : Waiting) (a n : Nat) (t : State) : State :=
  let ds := s.rangeDomains a n
  if (s.asleep ds).isEmpty && !s.behindWrite a n then t.touch ds else s.putOff q ds

/-- The correctable errors that a read meets are logged, and its data are the corrected ones (R360).
DESIGN CHOICE: notes/assumptions/46.md. -/
def State.bar2ReadNow (s : State) (a n : Nat) (ces : List (Nat × Nat)) : State :=
  let s1 := s.corrections ces a n
  s.reach (.read a n ces) a n { s1 with hif := { s1.hif with reply := .data (s.readBytes a n) } }

/-- The contests that a write loses at the movement port count at its store; it is repeated until it lands (R241, R415). A write of part of a
code unit reads, corrects and merges it (R359). -/
def State.bar2WriteNow (s : State) (a : Nat) (b : Bytes) (losses : Nat) (ces : List (Nat × Nat)) : State :=
  s.reach (.write a b losses ces) a b.length
    ((List.range losses).foldl (fun s _ => s.countLoss a false) ((s.writeCorrections ces a b.length).writeBytes a b))

/-- A BAR2 request: refused in D3hot (R411) and under R414, else made. -/
def State.bar2 (s : State) (a n : Nat) (t : State) : State :=
  if !s.hifOn then s
  else if s.hif.d3hot then s.refuse .unsupported aeUR
  else if !s.bar2Reaches a n then s.bar2Refuse
  else t

/-- R414 to R416. -/
def execBar2Read (a len : Nat) (ces : List (Nat × Nat)) (s : State) : Out :=
  let x := s.hif.bar2Base + a
  guarded (bar2Ok a len) (s.bar2 x len (s.bar2ReadNow x len ces))

/-- R414 to R416. -/
def execBar2Write (a : Nat) (b : Bytes) (losses : Nat) (s : State) (ces : List (Nat × Nat) := []) : Out :=
  let x := s.hif.bar2Base + a
  guarded (bar2Ok a b.length) (s.bar2 x b.length (s.bar2WriteNow x b losses ces))

/-! ### Requests that waited for a wake -/

/-- A Damask operation that waited for its source, or for the memory that it clears, goes on. -/
def State.resumeDamask (s : State) : State :=
  match s.dmk.copy with
  | some (b, held, _) => ({ s with dmk := { s.dmk with copy := none, busy := false } }.loadImage b held).bootEnds
  | none => match s.dmk.waking with
  | some (op, slot, a, nv) => { s with dmk := { s.dmk with waking := none } }.runFromMemory op slot a nv
  | none => s

/-- A sequencer operation goes on. -/
def State.resumeSeq (s : State) : State :=
  match s.seq.waiting with
  | some (op, n, mask, count, a) => { s with seq := { s.seq with waiting := none, ces := [] } }.runSeq op n mask count a s.seq.ces
  | none => s

/-- A STAGE goes on. -/
def State.resumeStage (s : State) : State :=
  match s.fw.waiting with
  | some (a, nv) => { s with fw := { s.fw with waiting := none } }.runStage a nv
  | none => s

/-- A BAR2 request that waited is refused where its range, by the time it is served, is not populated or lies on a retired page (R265, R414). -/
def State.bar2Again (s : State) (a n : Nat) (t : State) : State :=
  if (s.asleep (s.rangeDomains a n)).isEmpty && !s.behindWrite a n && !s.bar2Reaches a n then s.bar2Refuse else t

/-- An access of the module itself is made, or put off again. -/
def State.doTask (s : State) (t : Task) : State := match t with
  | .piece id off len => match s.desc? id, s.work? id with
    | some d, some (.gather _ _) => (s.gatherPiece d off len).gatherEnd id
    | _, _ => s
  | .table b => if (s.bkt b).pfDue then s.startPrefetch b else s
  | .zero a len =>
    let ds := s.rangeDomains a len
    if (s.asleep ds).isEmpty then s.zeroOutside a len else s.putOff (.task (.zero a len) ds) ds
  | .forward b step mirror =>
    if (s.bkt b).eff = .decided ∧ (s.bkt b).step = step ∧ (s.bkt b).fwdSent = false then s.forwardBuffer b step mirror else s
  | .overwrite b => s.overwritePeer b

/-- A fetch from device memory goes on, when its queue is still fetched from (R187) and the function is in D0 (R411). -/
def State.fetchAgain (s : State) (q : Nat) (m : OfferMeets) : State :=
  let x := s.sq q
  let t := s.setSq q { x with waking := false }
  if x.waking && !s.hif.d3hot && t.fetchable q && decide (t.outstanding < 4096) then t.fetchDevice q m else t

/-- Serves one request, or puts it off again when it must still wait. -/
def State.serveOne (s : State) (w : Waiting) : State :=
  match w with
  | .read a n ces => s.bar2Again a n (s.bar2ReadNow a n ces)
  | .write a b l ces => s.bar2Again a b.length (s.bar2WriteNow a b l ces)
  | .doorbell q t => s.ring q t
  | .counter n c v => if s.domOn (n / 16) then s.setCounter n c v else s.putOff w [n / 16]
  | .packet k _ m => s.servePacket k m
  | .place id _ => (s.finishRemote id).gatherEnd id
  | .segment key _ => s.trySend key
  | .mp u _ => if u = 0 then s.resumeDamask else if u = 1 then s.resumeSeq else s.resumeStage
  | .fetch q _ m => s.fetchAgain q m
  | .task t _ => s.doTask t

/-- Serves one waiting request after the descriptors that came before it; one that must still wait keeps its place (R251, R263). -/
def State.serveParked (s : State) (w : Parked) : State :=
  let s1 := s.advanceBefore w.seq
  let t := s1.underMap w.map fun s => s.serveOne w.req
  let n := s1.hif.waiting.length
  { t with hif := { t.hif with waiting := t.hif.waiting.take n ++ (t.hif.waiting.drop n).map fun x => { x with seq := w.seq, map := w.map } } }

/-- Serves, in the order in which they arrived, the requests whose wakes have ended. -/
def State.serveWaiting (s : State) : State :=
  s.hif.waiting.foldl State.serveParked { s with hif := { s.hif with waiting := [] } }

/-! ### The PCIe function (R394, R410, R411) -/

/-- A configuration register that Table 19.1 fixes: identity, header type 0, BAR0 to BAR5, expansion ROM and Interrupt Pin. `v` is
what the host last wrote there. -/
def configFixed (off : Nat) (v : Nat) : Option Nat :=
  match off with
  | 0x00 => some (Config.vendorId.toNat + 0xF512 * 2 ^ 16)
  | 0x08 => some (Config.deviceStep.toNat % 256 + 0x120000 * 2 ^ 8)
  | 0x10 => some (v / 2 ^ 26 * 2 ^ 26 + 0x4)
  | 0x14 => some v
  | 0x18 => some 0xC
  | 0x1C => some (v / 16 * 16)
  | 0x20 => some 0
  | 0x24 => some 0
  | 0x30 => some 0
  | _ => none

/-- Event bits set since they were last cleared. `key`: the key of bit 0 in `aerClears`. -/
def Hif.aerBits (h : Hif) (key : Nat) (f : Nat → Option Nat) : Nat :=
  (List.range 32).foldl (fun v b => if (h.aer.drop (h.aerClears.get 0 (key + b))).any fun e => f e == some b then v + 2 ^ b else v) 0

/-- A write of 1 clears a status bit. -/
def Hif.aerClear (h : Hif) (key v : Nat) : Hif :=
  { h with aerClears := (List.range 32).foldl (fun m b => if v.testBit b then m.set 0 (key + b) h.aer.length else m) h.aerClears }

/-- Bits of the capability structures that Table 19.1 fixes in registers whose other bits it leaves open, as mask and value: the two lists hold
Power Management and PCI Express, AER and Device Serial Number, and no other capability (no MSI, no MSI-X, no SR-IOV and none of the options that
Table 19.1 denies). D0 and D3hot alone, and No_Soft_Reset 1; an endpoint with Max Payload Size 512 bytes and no FLR; x16 at 64 GT/s at most, down
to 8 GT/s, without ASPM; 10-bit tags; completion timeout ranges B and C and its disabling; no LTR, TPH or OBFF; ECRC generation and checking; the
serial number.
PRESUMED: notes/assumptions/122.md. -/
def State.capabilityBits (s : State) (off : Nat) : Nat × Nat :=
  let h := s.hif
  let pm := capAt 0x01
  let ex := capAt 0x10
  if off = 0x34 then (0xFF, if Config.pmFirst then pm else ex)
  else if off = 0x04 then (0x100000, 0x100000)
  else if off = pm then (0x600FFFF, 0x01 + (if Config.pmFirst then ex else 0) * 2 ^ 8)
  else if off = pm + 4 then (0xB, 0x8 + if h.d3hot then 3 else 0)
  else if off = ex then (0xF0FFFF, 0x10 + (if Config.pmFirst then 0 else pm) * 2 ^ 8)
  else if off = ex + 4 then (0x10000007, 0x2)
  else if off = ex + 0xC then (0xFFF, 6 + 16 * 2 ^ 4)
  else if off = ex + 0x10 then (0x3FF0000, (if h.speed = 0 then 0 else h.speed + 2) * 2 ^ 16 + h.width % 64 * 2 ^ 20)
  else if off = ex + 0x24 then (0xF381F, 0x30016)
  else if off = ex + 0x2C then (0xFE, 0x78)
  else if off = aerBase then (0xFFF0FFFF, 0x0001 + (if Config.aerFirst then serialBase else 0) * 2 ^ 20)
  else if off = aerBase + 0x18 then (0xA0, 0xA0)
  else if off = serialBase then (0xFFF0FFFF, 0x0003 + (if Config.aerFirst then 0 else aerBase) * 2 ^ 20)
  else if off = serialBase + 4 then (0xFFFFFFFF, Config.serial.toNat % 2 ^ 32)
  else if off = serialBase + 8 then (0xFFFFFFFF, Config.serial.toNat / 2 ^ 32)
  else if off = aerBase + aerUncMask then (aerUncEvents, h.aerReg aerUncMask)
  else if off = aerBase + aerUncSeverity then (aerUncEvents, h.aerReg aerUncSeverity)
  else if off = aerBase + aerCorMask then (aerCorEvents, h.aerReg aerCorMask)
  else (0, 0)

/-- What a configuration register reads; of 0x3C the Interrupt Pin reads 0.
DEDUCED: notes/assumptions/9.md. -/
def State.configValue (s : State) (off : Nat) : Nat :=
  let w := SMap.find? s.hif.config off
  let free := (Config.configReg off w).toNat
  match configFixed off ((w.getD 0) % 2 ^ 32) with
  | some v => v
  | none =>
    if off = 0x3C then setBits free 8 8 0
    else if off = 0x0C then setBits free 16 8 0
    else if aerOffset off = aerUncStatus then s.hif.aerBits 0 aerUncBit
    else if aerOffset off = aerCorStatus then s.hif.aerBits 32 aerCorBit
    else let x := s.capabilityBits off; (free &&& (0xFFFFFFFF - x.1)) ||| (x.2 &&& x.1)

/-- A configuration write: the status registers of AER are cleared by ones. -/
def State.configWrite (s : State) (off v : Nat) : State :=
  let h := if aerOffset off = aerUncStatus then s.hif.aerClear 0 v else if aerOffset off = aerCorStatus then s.hif.aerClear 32 v else s.hif
  { s with hif := { h with config := SMap.put s.hif.config off (v % 2 ^ 32), reply := .ackd } }

/-- R394, R410: a configuration read or write of a 32-bit register; the function answers in D3hot too.
DEDUCED: notes/assumptions/9.md. -/
def execConfigRequest (off : Nat) (write : Option Nat) (s : State) : Out :=
  guarded (configOk off) (
    if !s.hifOn then s
    else match write with
      | some v => s.configWrite off v
      | none => { s with hif := { s.hif with reply := .value (BitVec.ofNat 64 (s.configValue off)) } })

/-- R411. -/
def execD3hotEntry (s : State) : Out := event s.hifOn s { s with hif := { s.hif with d3hot := true } }

/-- The completions owed are written, in the order in which they fell due. -/
def State.payOwed (s : State) : State :=
  s.hif.owed.foldl (fun s e => s.postRecord e.1 e.2) { s with hif := { s.hif with d3hot := false, owed := [] } }

/-- R411. -/
def execD0Return (s : State) : Out := event (s.hifOn && s.hif.d3hot) s s.payOwed

/-- Speeds (Table 19.16) and widths of Table 19.1. -/
def linkOk (speed width : Nat) : Bool := decide (1 ≤ speed ∧ speed ≤ 4) && [1, 2, 4, 8, 16].contains width

/-- R410: the link is up; 64 GT/s runs in flit mode. -/
def execPcieLinkUp (speed width : Nat) (flitMode : Bool) (s : State) : Out :=
  if !linkOk speed width then .fault .noSuchUnit else
  event (s.hifOn && (speed != 4 || flitMode)) s { s with hif := { s.hif with speed := speed, width := width, flitMode := flitMode } }

/-! ### The I3C port (R421 to R423) -/

/-- The port answers while the flannel domain is powered. -/
def State.i3cAnswer (s : State) (r : Reply) : State := if s.flannelOn then { s with hif := { s.hif with i3c := r } } else s

/-- GBL_ID and the PWR_, FLT_, FWU_ and TMR_ blocks, readable while the MP does not run.
DEDUCED: notes/assumptions/83.md. -/
def i3cEarly (o : Nat) : Bool :=
  o == 0 || (decide (0x201000 ≤ o) && decide (o < 0x202000)) || (decide (0x220000 ≤ o) && decide (o < 0x228000)) ||
    (decide (0x240000 ≤ o) && decide (o < 0x242000))

/-- The address at which the port answers: the dynamic one, else the static address 0x2C (R421). -/
def State.i3cAddress (s : State) : Nat := s.hif.i3cDyn.getD 0x2C

/-- A transfer or CCC to the port's address; at any other the port does not answer. -/
def State.i3cTo (s : State) (addr : Option Nat) (t : State) : State := if addr.getD s.i3cAddress = s.i3cAddress then t else s

/-- What a READ returns: the port has its own FLT_PLOG_SEL, and clears nothing.
DEDUCED: notes/assumptions/83.md. -/
def State.i3cSee (s : State) (o : Nat) : Nat :=
  if !(s.mpRunning && !s.fw.restarting) && !i3cEarly o then 2 ^ 64 - 1
  else match regAt o with
    | .plogSel => s.plogSelValue s.log.i3cSel
    | .plogData i => s.plogDataValue s.log.i3cSel i
    | r => if i3cEarly o then s.regSee r else s.hostSee r

/-- R422: a READ of 8 bytes; any other command, offset or length is refused. -/
def execI3cRead (off : Nat) (s : State) (x : I3cXfer := {}) : Out :=
  guarded (decide (off < 2 ^ 32)) (s.i3cTo x.addr (
    if regOffOk off && off % 8 == 0 && x.cmd.getD 1 == 1 && x.len == 8 then
      { s.i3cAnswer (.value (BitVec.ofNat 64 (s.i3cSee off))) with draws := s.draws + 1 }
    else s.i3cAnswer .nack))

/-- R422, R423: a WRITE of 8 bytes to FLT_PLOG_SEL; any other is refused.
DEDUCED: notes/assumptions/83.md. -/
def execI3cWrite (off : Nat) (b : Bytes) (s : State) (x : I3cXfer := {}) : Out :=
  guarded (decide (off < 2 ^ 32)) (s.i3cTo x.addr (
    if off = 0x220008 ∧ b.length = 8 ∧ x.cmd.getD 2 = 2 then
      (if s.flannelOn then { s.i3cAnswer .ackd with log := { s.log with i3cSel := field b 0 8 % 2 ^ 18 } } else s)
    else s.i3cAnswer .nack))

/-- A dynamic address is given to a port that has none.
DESIGN CHOICE: notes/assumptions/21.md. -/
def State.assignDynamic (s : State) (addr : Nat) : State :=
  if s.flannelOn && s.hif.i3cDyn.isNone then { s with hif := { s.hif with i3cDyn := some addr, i3c := .ackd } } else s

/-- R421. -/
def execEntdaa (addr : Nat) (s : State) : Out := guarded (i3cOk addr) (s.assignDynamic addr)

/-- R421: sent to the static address 0x2C. -/
def execSetdasa (addr : Nat) (s : State) (target : Nat := 0x2C) : Out := guarded (i3cOk addr) (if target = 0x2C then s.assignDynamic addr else s)

/-- R421: the port answers at its static address again. -/
def execRstdaa (s : State) : Out := event s.flannelOn s { s with hif := { s.hif with i3cDyn := none, i3c := .ackd } }

/-- The provisioned ID: DEVICE_STEP, the part ID in [31:16], the manufacturer code above.
DESIGN CHOICE: notes/assumptions/21.md. -/
def provisionedId : Nat := Config.deviceStep.toNat + 0xF512 * 2 ^ 16 + Config.manufacturerCode.toNat * 2 ^ 32

/-- R421. -/
def execGetpid (s : State) (addr : Option Nat := none) : Out := .next (s.i3cTo addr (s.i3cAnswer (.value (BitVec.ofNat 64 provisionedId))))

/-- R421.
DESIGN CHOICE: notes/assumptions/21.md. -/
def execGetbcr (s : State) (addr : Option Nat := none) : Out :=
  .next (s.i3cTo addr (s.i3cAnswer (.value ((Config.i3cRegister 0).setWidth 64))))

/-- R421.
DESIGN CHOICE: notes/assumptions/21.md. -/
def execGetdcr (s : State) (addr : Option Nat := none) : Out :=
  .next (s.i3cTo addr (s.i3cAnswer (.value ((Config.i3cRegister 1).setWidth 64))))

/-- R421.
DESIGN CHOICE: notes/assumptions/21.md. -/
def execGetstatus (s : State) (addr : Option Nat := none) : Out :=
  .next (s.i3cTo addr (s.i3cAnswer (.value ((Config.i3cRegister 2).setWidth 64))))

/-- R421.
DESIGN CHOICE: notes/assumptions/21.md. -/
def execGetmxds (s : State) (addr : Option Nat := none) : Out :=
  .next (s.i3cTo addr (s.i3cAnswer (.value ((Config.i3cRegister 3).setWidth 64))))

/-! ### The test port (R424, R425) -/

/-- An instruction is loaded; its data register answers `r`. -/
def State.loadIr (s : State) (ir : Nat) (r : Reply) : State :=
  if s.flannelOn then { s with hif := { s.hif with jtagIr := ir, test := r } } else s

/-- An instruction that drives the balls needs MOD_RESET_N and VIN_PG asserted, else it selects BYPASS. -/
def State.loadDriving (s : State) (ir : Nat) : State := s.loadIr (if !s.modResetN && s.vinPg then ir else irBYPASS) .ackd

/-- The IDCODE register. -/
def idcodeValue : Nat := 1 + Config.manufacturerCode.toNat * 2 + 0xF512 * 2 ^ 12 + Config.deviceStep.toNat % 16 * 2 ^ 28

/-- The opcode of another instruction of Table 19.18. -/
def irOther (op : Nat) : Bool := decide (irIDCODE ≤ op ∧ op ≤ irHIGHZ)

/-- Groups of balls: those that the boundary-scan register covers, and those that it does not (R424). -/
inductive BallGroup where
  | reset
  | clockSelect
  | strap
  | i3c
  | xspi
  | ddr5
  | gauze
  | pcie
  | cxl
  | refclk
  deriving DecidableEq, Repr

/-- The boundary-scan register covers the reset, clock-select, strap, I3C, xSPI and DDR5 balls; no Gauze, PCIe or CXL lane and no reference-clock
input (R424). -/
def BallGroup.scanned : BallGroup → Bool
  | .gauze => false
  | .pcie => false
  | .cxl => false
  | .refclk => false
  | _ => true

/-- The group of a ball at a row and column (Tables 20.2 to 20.4, R428 to R430); none for supply, ground, reserved and other balls.
DEDUCED: notes/assumptions/130.md. -/
def ballGroup (row col : Nat) : Option BallGroup :=
  let within (lo n x : Nat) : Bool := decide (lo ≤ x ∧ x < lo + n)
  let signalDepth (k : Nat) : Bool := k == 1 || k == 2 || k == 4 || k == 5
  let edge (depth along : Nat) : Bool := signalDepth depth && along < 18
  if row = 17 ∧ (col = 41 ∨ col = 43 ∨ col = 44) then some .refclk
  else if row = 17 ∧ col = 42 then some .clockSelect
  else if row = 17 ∧ within 45 3 col then some .reset
  else if row = 17 ∧ within 49 2 col then some .i3c
  else if row = 17 ∧ within 56 2 col then some .strap
  else if row = 17 ∧ within 58 13 col then some .xspi
  else if row = 18 ∧ within 41 18 col then some .ddr5
  else if within 45 48 row ∧ within 9 96 col ∧ (row + col) % 2 = 0 then some .ddr5
  else if within 97 6 row ∧ within 41 32 col ∧ (col - 41) % 2 = 0 ∧ signalDepth (row - 97) then some .pcie
  else if within 9 6 row ∧ (within 9 32 col ∨ within 73 32 col) ∧ col % 2 = 1 ∧ signalDepth (row - 9) then some .cxl
  else if (within 107 6 row ∧ ((5 ≤ col ∧ edge (112 - row) (col - 5)) ∨ (91 ≤ col ∧ edge (112 - row) (col - 91)))) ∨
      (within 1 6 row ∧ ((5 ≤ col ∧ edge (row - 1) (col - 5)) ∨ (91 ≤ col ∧ edge (row - 1) (col - 91)))) ∨
      (within 1 6 col ∧ ((25 ≤ row ∧ edge (col - 1) (row - 25)) ∨ (71 ≤ row ∧ edge (col - 1) (row - 71)))) ∨
      (within 107 6 col ∧ ((25 ≤ row ∧ edge (112 - col) (row - 25)) ∨ (71 ≤ row ∧ edge (112 - col) (row - 71)))) then some .gauze
  else none

/-- The balls that the boundary-scan register covers, a cell for each, row by row.
DESIGN CHOICE: notes/assumptions/131.md. -/
def scannedBalls : List (Nat × Nat) :=
  ((List.range 112).flatMap fun r => (List.range 112).map fun c => (r + 1, c + 1)).filter fun b => (ballGroup b.1 b.2).any BallGroup.scanned

/-- Cell `j` of shifted bytes, cell 0 in bit 0 of the first byte; none past their end. -/
def cellIn (b : Bytes) (j : Nat) : Option Bool := (b[j / 8]?).map fun (x : Byte) => x.toNat.testBit (j % 8)

/-- Cells shifted in: each takes its bit; those that the bytes do not reach stay. -/
def Hif.shiftCells (h : Hif) (b : Bytes) : List (Nat × Nat) :=
  ((scannedBalls.zip (List.range scannedBalls.length)).filter fun e => (cellIn b e.2).getD (h.boundary.contains e.1)).map (·.1)

/-- What the covered balls drive into their cells, as bytes: one bit for each cell.
DESIGN CHOICE: notes/assumptions/3.md. -/
def sampledBytes (draw : Nat) : Bytes :=
  let n := scannedBalls.length
  (List.range ((n + 7) / 8)).map fun i => (Config.sampledCells draw).getD i 0 &&& BitVec.ofNat 8 (2 ^ (min 8 (n - 8 * i)) - 1)

/-- R424: BYPASS, or an opcode that is none of Table 19.18, which selects it. -/
def execBypass (s : State) (opcode : Nat := 0xFF) : Out :=
  guarded (decide (opcode < 256)) (if irOther opcode then s else s.loadIr irBYPASS .ackd)

/-- R424. -/
def execIdcode (s : State) : Out := .next (s.loadIr irIDCODE (.value (BitVec.ofNat 64 idcodeValue)))

/-- R424: what the covered balls drive is sampled, and the boundary cells take what is shifted in. -/
def execSamplePreload (cells : Bytes) (s : State) : Out :=
  let t := s.loadIr irSAMPLE (.data (sampledBytes s.draws))
  event s.flannelOn s { t with draws := t.draws + 1, hif := { t.hif with boundary := t.hif.shiftCells cells } }

/-- R424, R425. -/
def execExtest (s : State) : Out := .next (s.loadDriving irEXTEST)

/-- R424, R425. -/
def execClamp (s : State) : Out := .next (s.loadDriving irCLAMP)

/-- R424, R425. -/
def execHighz (s : State) : Out := .next (s.loadDriving irHIGHZ)

/-- R424: test-logic reset selects IDCODE. -/
def execTestLogicReset (s : State) : Out := .next (s.loadIr irIDCODE .none)

end Sys2Proof.Machine
end

