-- ==== Sys2Proof/Machine/Domains.lean ====
section
/-! DEFINITION. Power domains as they fall asleep, wake and fail to wake (08, 17), envelope switches, and what goes on once memory
serves accesses again. -/

namespace Sys2Proof.Machine

/-! ### Work that waits for memory (R177, R187, R188) -/

/-- Whatever waited for domains or tier units is tried again.
DEDUCED: notes/assumptions/81.md. -/
def State.resume (s : State) : State :=
  ((((s.serveWaiting.settleForces).retryLocal).sendAllTiles).advance.trySends).returnSlots

/-! ### Falling asleep (R384 to R386) -/

/-- The idle timer of domain `d` has run for `n` microseconds, 0 for never; a request of the tick in which it expires keeps the domain on
(R385).
DEDUCED: notes/assumptions/86.md. -/
def State.idleFor (s : State) (d n : Nat) : Bool := n != 0 && s.runOut ((s.dom d).idleSince + 25 * n)

/-- R385. -/
def execDomainRetainTimeout (d : Nat) (s : State) : Out :=
  guarded (domainOk d) (
    if s.up && s.domIdle d && (s.dom d).force != 1 && s.idleFor d (s.dom d).retainAfter then s.sleep d false else s)

/-- R385. -/
def execDomainOffTimeout (d : Nat) (s : State) : Out :=
  guarded (domainOk d) (
    if s.up && (s.domIdle d || ((s.dom d).st == .retain && !(s.dom d).wanted)) && (s.dom d).force != 1 && s.idleFor d (s.dom d).offAfter
    then s.sleep d true else s)

/-- The transition has ended: a domain that went off has lost its contents; one that is wanted again wakes. -/
def State.asleepNow (s : State) (d : Nat) (off : Bool) : State :=
  let x := s.dom d
  let s1 := s.setDom d { x with st := if off then .off else .retain, wanted := false }
  let s2 := if off then s1.loseDomain d else s1
  if (x.wanted || x.force == 1) && !s2.envOff d then s2.wake d else (s2.settleForce d).turnOff d

/-- R384. -/
def execDomainSleepComplete (d : Nat) (s : State) : Out :=
  guarded (domainOk d) (match (s.dom d).st with
    | .toRetain => s.asleepNow d false
    | .toOff => s.asleepNow d true
    | _ => s)

/-! ### Waking (R16, R384) -/

/-- The domain is on: what it held or lost, firmware units that take their new image, ports that train, and what waited. `lost` names
words that SEC-DED cannot correct, which no remap entry takes over in retain (R246). -/
def State.awake (s : State) (d : Nat) (lost : List (Nat × Nat × Nat)) : State :=
  let s1 := (s.wakeEnds d lost).reloadAtWake d
  let s2 := if 32 ≤ d ∧ d < 40 then s1.bringUp (d - 32) else s1
  s2.resume

/-- R384. -/
def execDomainWakeComplete (d : Nat) (s : State) (lost : List (Nat × Nat × Nat) := []) : Out :=
  guarded (domainOk d) (if s.waking d then s.awake d lost else s)

/-! ### A wake that fails (R190) -/

/-- Descriptors that wait on a wake of domain `d`. -/
def State.waitsOn (s : State) (d : Nat) (x : Desc) : Bool :=
  (match x.work with
    | .queued => (s.needs x).contains d
    | .emit p _ _ _ => s.isSelf (Cg.dest x.bytes) && (s.rangeDomains (s.ringBase (field p 0 2)) p.length).contains d
    | _ => false) ||
  (match x.place with
    | .slice n => x.work == .queued && x.woke && (s.stashDomains x n (Walk.ofBytes (s.readStore n (Ve.walk x.bytes) 64))).contains d
    | _ => false)

/-- They are owed ABORTED, with the flags of the work they have done (R95).
DEDUCED: notes/assumptions/79.md. -/
def State.abortWaiting (s : State) (d : Nat) : State :=
  (s.descs.filter (s.waitsOn d)).foldl (fun s x => s.setWork x.id (.done stABORTED (s.flagsSoFar x) (match x.work with
    | .emit p _ _ _ => cgResult p
    | _ => 0))) s

/-- A request that waits on domain `d` ends: BAR2 with Completer Abort (R415), a packet with ABORTED; a counter write is lost;
data that came for a descriptor are lost with it; a segment is tried again, and a fetch or an operation of the MP ends below. -/
def State.failOne (s : State) (d : Nat) (w : Parked) : State :=
  let keep : State := { s with hif := { s.hif with waiting := s.hif.waiting ++ [w] } }
  if !(s.reqDomains w.req).contains d then keep
  else match w.req with
  | .read _ _ _ => s.refuse .completerAbort aeCA
  | .write _ _ _ _ => s.refuse .completerAbort aeCA
  | .packet k _ _ => if k.kind = kREAD_REQ then s.respondRead k stABORTED [] else s.answer k stABORTED 0
  | .place id _ => (s.updDesc id fun x => { x with got := [], work := .done stABORTED (s.flagsSoFar x) 0 })
  | .segment _ _ => keep
  | .task (.piece id _ _) _ => s.updDesc id fun x => { x with work := .done stABORTED (s.flagsSoFar x) 0 }
  | .task (.table b) _ => s.setBkt b { s.bkt b with pfDue := false, pfStarted := true, pfFailed := true, stickyPf := true }
  | _ => s

/-- DEDUCED: notes/assumptions/79.md. -/
def State.failRequests (s : State) (d : Nat) : State :=
  s.hif.waiting.foldl (fun s w => s.failOne d w) { s with hif := { s.hif with waiting := [] } }

/-- Fetches from device memory in domain `d` fail (R187). -/
def State.failFetches (s : State) (d : Nat) : State :=
  ((List.range 64).filter fun q => let x := s.sq q
    x.waking && (s.rangeDomains (x.base + x.head * 64) 64).contains d).foldl
    (fun s q => (s.setSq q { s.sq q with waking := false }).fetchFails q) s

/-- Operations of the MP that read memory in domain `d` end.
DEDUCED: notes/assumptions/66.md. -/
def State.failOperations (s : State) (d : Nat) : State :=
  let s1 := match s.dmk.waking with
    | some (_, _, a, _) => if (s.rangeDomains a (max 256 (imLength (s.readBytes a 256) % 2 ^ 25))).contains d then s.dmkEnd (failOf dkADDRESS) else s
    | none => match s.dmk.copy with
      | some (_, _, ds) => if ds.contains d then (s.dmkEnd (failOf dkADDRESS)).bootEnds else s
      | none => s
  let s2 := match s1.fw.waiting with
    | some (a, _) => if (s1.rangeDomains a (max 128 (field (s1.readBytes a 128) 8 4))).contains d then s1.fwEnd fwADDRESS else s1
    | none => s1
  match s2.seq.waiting with
  | some (op, n, _, count, a) =>
    if n / 16 = d ∨ (op = 0 ∧ (s2.rangeDomains a (8 * count)).contains d) then s2.seqEnd stABORTED else s2
  | none => s2

/-- A unit whose wake fails during a start is published failed (R393).
DEDUCED: notes/assumptions/79.md. -/
def State.failUnits (s : State) (d : Nat) : State :=
  let tier (s : State) (r : Nat) : State := { s with tiers := s.tiers.set {} r { (s.tiers.get {} r : Tier) with state := 2, size := 0 } }
  if s.startPhase ≠ 2 then s
  else if 40 ≤ d ∧ d < 44 then { s with engineMap := s.engineMap.set (d - 40) none }
  else if 47 ≤ d ∧ d < 49 then (List.range 8).foldl (fun s i => tier s (8 + 8 * (d - 47) + i)) s
  else if d = 49 then tier (tier s 24) 25
  else if 50 ≤ d then { s with nearStacks := s.nearStacks.set {} (d - 50) { (s.nearStacks.get {} (d - 50) : Stack) with w := 0, state := 2 } }
  else s

/-- The wake of `d` has not ended in its bound: the domain is where it came from, the fault is logged, and what waited ends.
DEDUCED: notes/assumptions/79.md. -/
def State.failWake (s : State) (d phase : Nat) : State :=
  let s1 := ((((s.abortWaiting d).failRequests d).failFetches d).failOperations d).failUnits d
  let x := s1.dom d
  let s1 := if x.awaitPublish = swapAwaits then s1.setDom 44 { s1.dom 44 with st := .off } else s1
  let s2 := s1.setDom d
    { x with st := if x.st = .wakeOff then .off else .retain, wakeFails := min (x.wakeFails + 1) 0xFFFF, wanted := false }
  let s3 := s2.logFault { kind := fkWAKE_FAIL, subject := s.node, unit := faultUnit ucDOMAIN d, location := 0 } 2 0xFFFF phase
  -- domains that the work now ended kept on are idle from now (R385), and a FORCE pending on them is carried out (R386)
  (s3.touch ((List.range 58).filter s.keptOn)).settleForces

/-- The bound of the wake that runs, in ticks: Table 8.19, or that of an engine's swap (R233). -/
def State.wakeBound (s : State) (d : Nat) : Nat :=
  let x := s.dom d
  if x.awaitPublish = swapAwaits then 5000 else if x.st = .wakeRetain then 650 else 1450

/-- R190: `phase` is the phase of the wake in progress when its bound passed. -/
def execWakeFail (d phase : Nat) (s : State) : Out :=
  guarded (domainOk d && decide (1 ≤ phase ∧ phase ≤ 3))
    (if s.waking d && s.runOut ((s.dom d).wakeAt + s.wakeBound d) then s.failWake d phase else s)

/-! ### Envelopes (R390, R391) -/

/-- R390: every fall has completed, the Serge drain and the engines' way off included. -/
def execEnvelopeFallsEnd (s : State) : Out := event (s.up && s.env.phase == .falls && s.fallsDone) s s.endFalls.resume

/-- Every rise has completed: no engine wakes, and every port that exchanges flits has widened as far as its partner allows (R390).
DEDUCED: notes/assumptions/58.md. -/
def State.risesDone (s : State) : Bool :=
  ((List.range 4).all fun e => !s.waking (40 + e)) && (List.range 8).all fun p =>
    let x := s.port p
    !x.alive || (x.widening.isNone && decide (s.widthNow x ≤ x.width))

/-- R390: every rise has completed, the wakes of engines included. -/
def execEnvelopeRisesEnd (s : State) : Out := event (s.up && s.env.phase == .rises && s.risesDone) s s.endRises

/-! ### The end of a publication (R17, R40) -/

/-- GENERATION is even again; domains that waited for this publication serve, and a start has published (R393). -/
def State.published (s : State) : State :=
  let s1 := { s with
    calico := { s.calico with generation := s.calico.generation + 1, evenTick := s.tick }
    startPhase := if s.startPhase = 2 then 3 else s.startPhase }
  ((s1.attn atCALICO).retireDone).resume

/-- R40, R43. -/
def execCalicoPublishEnd (s : State) : Out := event (s.calico.generation % 2 == 1) s s.published

end Sys2Proof.Machine
end

