-- ==== Sys2Proof/Machine/Solving.lean ====
section
/-! DEFINITION. Events of the Serge engines (10): the phases of a SOLVE, deadlines, swaps, and the folding of delta packets. -/

namespace Sys2Proof.Machine

/-! ### Starting (R212 to R214, R224, R225) -/

/-- Queued SOLVEs of an engine that is absent end with UNSUPPORTED (R234).
DEDUCED: notes/assumptions/52.md. -/
def State.dropSolves (s : State) (e : Nat) : State :=
  (s.engineQueue e).foldl (fun s d => s.setWork d.id (.done stUNSUPPORTED 0 (emptyResult d.bytes))) s

/-- The areas that engine `e` works in: its workspace and its scratch area (R203). -/
def State.engineAreas (s : State) (e : Nat) : List (Nat × Nat) := [(workBase e, 0x4000000), (s.scratchBase e, scratchSize s.factorRecs e)]

/-- The correctable errors of `ces` that engine `e` meets in its areas, and in those that its descriptor `d` reads (R360).
DESIGN CHOICE: notes/assumptions/46.md. -/
def State.engineErrors (s : State) (e : Nat) (d : Option Desc) (ces : List (Nat × Nat)) : State :=
  (s.engineAreas e ++ d.elim [] s.readRanges).foldl (fun (s : State) r => s.corrections ces r.1 r.2) s

/-- The SOLVE at the head of engine `e`'s queue leaves its Wait phase, once its factor is free and what it needs is on.
DEDUCED: notes/assumptions/52.md. -/
def State.beginSolve (s : State) (e : Nat) (d : Desc) : State :=
  let off := s.asleep (s.needs d)
  if s.factorBusy d || !s.orderOk d || s.swapDue e || s.overdue d.limit then s
  else if !off.isEmpty then (s.updDesc d.id fun d => { d with woke := d.woke || off.any (· < 58) }).wakeAll off
  else match s.factorRec (So.factor d.bytes) with
    | some r =>
      if s.readRetired e (So.factor d.bytes) r.dim (soWarm d.bytes) then s.setWork d.id (.done stRETIRED_PAGE 0 (emptyResult d.bytes))
      else (((s.meetErrors d).engineErrors e none d.ces).startSolve e d r).beginUnit e
    | none => s.setWork d.id (.done stBAD_DESCRIPTOR 0 (emptyResult d.bytes))

/-- R211 to R214. -/
def execSolveStart (e : Nat) (s : State) : Out :=
  guarded (engineOk e) (
    if !s.enginePresent e then s.dropSolves e
    else match (s.eng e).run, s.headSolve e with
      | none, some d => ((s.beginSolve e d).retryLocal).advance
      | _, _ => s)

/-! ### Running (R215 to R218, R226) -/

/-- A unit of work of the running SOLVE ends within its deadline (R227), its offloaded products with it; `isOf` tells the methods that have such
work. The next unit begins. The correctable errors that the unit has met are logged (R360). -/
def State.workEnds (s : State) (e : Nat) (phase : SolvePhase) (isOf : Nat → Bool) (f : Solve → Solve) (ces : List (Nat × Nat) := []) : State :=
  match (s.eng e).run with
  | some v =>
    if v.phase = phase ∧ s.overdue v.deadline = false ∧ isOf v.method = true ∧ (s.eng e).products = [] then
      let w := f { v with flags := 0 }
      let t := s.engineErrors e (s.desc? v.id) ces
      ((t.setEng e { s.eng e with run := some { w with flags := v.flags ||| w.flags } }).noteUnderrun e w.flags).beginUnit e
    else s
  | none => s

/-- R226: the residual of X0 is measured. -/
def execStartResidualEnd (e : Nat) (s : State) (ces : List (Nat × Nat) := []) : Out :=
  guarded (engineOk e) (s.workEnds e .start (fun _ => true) startMeasured ces)

/-- R216. -/
def execSolveIterationEnd (e : Nat) (s : State) (ces : List (Nat × Nat) := []) : Out :=
  guarded (engineOk e) (s.workEnds e .compute (· == 1) (fun v => newtonStep v (s.offOf v)) ces)

/-- R215, R218. -/
def execSolveFactorisationEnd (e : Nat) (s : State) (ces : List (Nat × Nat) := []) : Out :=
  guarded (engineOk e) (s.workEnds e .compute (· != 1) (fun v => if v.method = 0 then eigenSolve v else cholSolve v) ces)

/-- The unit of work that a running SOLVE has in hand, as it would end. -/
def unitOf (v : Solve) (off : Option Nat) : Solve :=
  if v.phase = .start then startMeasured v
  else if v.method = 1 then newtonStep v off
  else if v.method = 0 then eigenSolve v
  else cholSolve v

/-- Flags of the operations of an unfinished unit that had been performed when the deadline passed (R95): some of the unit's, which of them being
free.
DESIGN CHOICE: notes/assumptions/115.md. -/
def State.partFlags (s : State) (v : Solve) : Nat := (unitOf { v with flags := 0 } (s.offOf v)).flags &&& (Config.freeWord s.draws).toNat

/-- The deadline has passed for the running SOLVE: what was unfinished is discarded, and Choose follows. -/
def State.stopSolve (s : State) (e : Nat) (v : Solve) : State :=
  if (v.phase = .start ∨ v.phase = .compute) ∧ s.overdue v.deadline = true then
    let fl := s.partFlags v
    ({ s with draws := s.draws + 1 }.setEng e
      { s.eng e with run := some { v with phase := .choose, late := true, flags := v.flags ||| fl }, products := [], tileAt := none }).noteUnderrun e fl
  else s

/-- R227. A SOLVE still in its Wait phase ends without an iterate.
DEDUCED: notes/assumptions/53.md. -/
def execSolveDeadline (id : Nat) (s : State) (ces : List (Nat × Nat) := []) : Out :=
  match s.desc? id with
  | some d => match d.place, d.work with
    | .engine _, .queued => event (dType d.bytes == tySOLVE && s.overdue d.limit) s
        (s.setWork id (.done stDEADLINE 0 (emptyResult d.bytes)))
    | .engine e, .solve => match (s.eng e).run with
      | some v => .next (if v.id = id then (s.engineErrors e (some d) ces).stopSolve e v else s)
      | none => .next s
    | _, _ => .next s
  | none => .next s

/-- R229 to R231. The writeback waits while the slot is held, or while the tier behind it serves no access. -/
def execSolvePublish (e : Nat) (s : State) (ces : List (Nat × Nat) := []) : Out :=
  guarded (engineOk e) (match (s.eng e).run with
    | some v =>
      if (v.phase = .choose ∨ v.phase = .writeback) ∧ s.asleep s.sergeDomains = [] then (s.engineErrors e (s.desc? v.id) ces).publishSolve e v
      else s
    | none => s)

/-! ### Swaps (R233, R234) -/

/-- R233, R234: the swap point of an engine that is on. -/
def execSergeSwap (e : Nat) (s : State) : Out :=
  guarded (engineOk e) (
    if !(s.swapDue e && s.domOn (40 + e) && (s.eng e).run.isNone) then s
    else
      let t := s.replaceEngine e
      if t.enginePresent e then t else t.dropSolves e)

/-! ### Folding (R206 to R208, R213) -/

/-- The oldest packet of a ring is folded, and packets held for room are tried again. The correctable errors that the fold's accesses meet are
logged (R360).
DEDUCED: notes/assumptions/39.md. DESIGN CHOICE: notes/assumptions/46.md. -/
def State.foldHead (s : State) (f : Nat) (ces : List (Nat × Nat)) : State :=
  match s.factorRec f, (s.factor f).ring with
  | some r, p :: _ =>
    if (s.foldEngine f r).isNone || s.foldBarred f p then s
    else
      let off := s.asleep s.sergeDomains
      if off.isEmpty then ((((s.touch s.sergeDomains).corrections ces (s.factorBase f) (factorSize r.dim)).foldNext f).1.retryLocal).advance else s.wakeAll off
  | _, _ => s

/-- R206 to R208. -/
def execDeltaPacketFold (f : Nat) (s : State) (ces : List (Nat × Nat) := []) : Out := guarded (factorOk f) (s.foldHead f ces)

/-! ### Scheduled refreshes (R65, R234) -/

/-- ENGINE of a scheduled SOLVE of factor `f`. -/
def State.schedEngine (s : State) (f : Nat) : Nat := match s.factorRec f with
  | some r => if s.enginePresent r.engine then r.engine else 0xFF
  | none => 0xFF

/-- The module's schedules run on clusters of array groups.
DEDUCED: notes/assumptions/85.md. -/
def State.fromSchedules (s : State) : Issuer → Bool
  | .core k => (s.groupOf (k / 16)).isSome
  | .host _ => false

/-- A packet of factor `f` of a step before `step`, from a CURVGATHER of this module, has not been accepted yet (R202). -/
def State.packetsOwed (s : State) (f step : Nat) : Bool := s.descs.any fun d =>
  dType d.bytes == tyCURVGATHER && cgEmit d.bytes && Cg.factor d.bytes == f && decide (Cg.step d.bytes < step) && (match d.work with
    | .done _ _ _ => false
    | _ => true)

/-- R65: the module's schedules issue a SOLVE for factor `f`, scheduled in the SOLVE's step, once its packets of the step before are accepted
(R202).
DEDUCED: notes/assumptions/85.md. -/
def execScheduledRootRefresh (f : Nat) (o : Offer) (s : State) : Out :=
  if !(factorOk f) then .fault .noSuchUnit
  else offerExec o (dType o.bytes == tySOLVE && So.factor o.bytes == f && s.scheduled f (So.step o.bytes) && !s.packetsOwed f (So.step o.bytes) &&
    So.engine o.bytes == s.schedEngine f && s.fromSchedules o.iss) s

end Sys2Proof.Machine
end

