-- ==== Sys2Proof/Machine/Supply.lean ====
section
/-! DEFINITION. Supply, clock and temperature as the flannel domain samples them (17, 20). VIN is in units of 10 mV, input current in
units of 0.25 A and input power in W, as PWR_STATUS shows them. -/

namespace Sys2Proof.Machine

/-- An event that the flannel domain sees.
DESIGN CHOICE: notes/assumptions/84.md. -/
def flannelEvent (cond : Bool) (s t : State) : Out := event (s.flannelOn && cond) s t

/-- A change of NV_INHIBIT, LOW_FORCED or THROTTLED sets SUPPLY in GBL_ATTN of a started module (R419). -/
def State.noteSupply (t s : State) : State :=
  if t.up && (t.nv != s.nv || t.lowForced != s.lowForced || t.throttled != s.throttled) then t.attn atSUPPLY else t

/-- The envelope that should be in force may have changed (R382, R439). -/
def State.followEnv (s : State) : State := if s.up then s.checkEnv else s

/-! ### Sag thresholds (Table 17.2, R380 to R383) -/

/-- VIN has fallen below 60 V: a STORE or STAGE that still waits for its source ends with POWER_INHIBIT, as one whose writes had begun
(R69, R403). A run of persistence goes no further than the page under way (R371).
DEDUCED: notes/assumptions/65.md. -/
def State.sagged (s : State) : State :=
  let s1 := match s.dmk.waking with
    | some (1, slot, _, _) =>
      { s with flash := { s.flash with damask := s.flash.damask.set none slot none } }.dmkEnd (failOf dkPOWER_INHIBIT)
    | _ => s
  (if s1.fw.waiting.isSome then s1.stageDelta [] { sag := true } else s1).deferRun

/-- R380, R381. -/
def execNvThresholdFall (vin : Nat) (s : State) : Out :=
  flannelEvent (decide (vin < 6000) && !s.nv) s ((State.noteSupply { s with vin := vin, nv := true } s).sagged)

/-- What was put off while NV was in effect is carried out. -/
def State.nvReleased (s : State) : State := if s.mpRunning && !s.fw.restarting then s.runDeferred else s

/-- R380, R381: the sample lies above the value that releases LOW too.
DESIGN CHOICE: notes/assumptions/84.md. -/
def execNvThresholdRise (vin : Nat) (s : State) : Out :=
  flannelEvent (decide (6200 < vin) && s.nv) s ((State.noteSupply { s with vin := vin, nv := false, lowSag := false } s).nvReleased.followEnv)

/-- R380, R382.
DESIGN CHOICE: notes/assumptions/84.md. -/
def execLowThresholdFall (vin : Nat) (s : State) : Out :=
  flannelEvent (decide (vin < 5400) && !s.lowSag) s ((State.noteSupply { s with vin := vin, nv := true, lowSag := true } s).sagged.followEnv)

/-- R380, R382. -/
def execLowThresholdRise (vin : Nat) (s : State) : Out :=
  flannelEvent (decide (5600 < vin) && s.lowSag) s ((State.noteSupply { s with vin := vin, lowSag := false } s).followEnv)

/-- R383: VIN below 48 V. NV and LOW are in effect too.
DESIGN CHOICE: notes/assumptions/84.md. -/
def execSupplyShutdown (vin dt : Nat) (s : State) : Out :=
  flannelEvent (decide (vin < 4800)) s ({ s with vin := vin, nv := true, lowSag := true }.moduleReset lrSHUTDOWN dt true)

/-! ### Throttling (R379) -/

/-- The cluster clock in MHz: that of the settings which hold (R389), halved while throttled (R379). -/
def State.clusterMhz (s : State) : Nat := if s.throttled then s.env.clock / 2 else s.env.clock

/-- A throttle episode begins. -/
def State.throttle (s : State) : State :=
  State.noteSupply { s with throttled := true, throttles := min (s.throttles + 1) 0xFFFF } s

/-- R379: input current above 43 A. -/
def execThrottleCurrent (iin : Nat) (s : State) : Out :=
  flannelEvent (s.up && decide (172 < iin) && !s.throttled) s ({ s with iin := iin, calmRun := 0 }.throttle)

/-- R379: input power above 2,600 W in every sample of 400,000 consecutive ticks. -/
def execThrottlePower (pin : Nat) (s : State) : Out :=
  flannelEvent (s.up && decide (400000 ≤ s.powerRun) && decide (2600 < pin) && !s.throttled) s ({ s with pin := pin, calmRun := 0 }.throttle)

/-- A sample below 2,400 W and 40 A (R379). -/
def calm (pin iin : Nat) : Bool := decide (pin < 2400) && decide (iin < 160)

/-- R379: below 2,400 W and 40 A for 25,000 consecutive ticks. -/
def execThrottleEnd (pin iin : Nat) (s : State) : Out :=
  flannelEvent (decide (25000 ≤ s.calmRun) && calm pin iin && s.throttled) s
    (State.noteSupply { s with pin := pin, iin := iin, throttled := false } s)

/-! ### The flannel clock (R387, R437) -/

/-- R387. -/
def execRefclkLost (s : State) : Out := flannelEvent (!s.onOsc) s { s with onOsc := true, refclkLost := true, refRun := 0 }

/-- R387: FLN_REFCLK has run for 25,000 consecutive ticks. With CLK_SEL at 1 the oscillator stays (R437). -/
def execRefclkRestore (s : State) : Out :=
  flannelEvent (s.onOsc && !s.probe.clkSel && decide (25000 ≤ s.refRun)) s { s with onOsc := false }

/-- The supply monitor's sample of a tick (R378), and the runs that R379 and R387 count. -/
def State.sample (s : State) (x : Sample) : State :=
  { s with
    vin := x.vin, iin := x.iin, pin := x.pin
    powerRun := if 2600 < x.pin then s.powerRun + 1 else 0
    calmRun := if calm x.pin x.iin then s.calmRun + 1 else 0
    refRun := if x.ref then s.refRun + 1 else 0 }

/-! ### The reset inputs (R392, R436) -/

/-- The level that is effective after a sample: a change is, in the second of two consecutive samples that agree. -/
def settled (last now old : Bool) : Bool := if last == now then now else old

/-- The module leaves the flash bus to a board programmer while MOD_RESET_N is asserted and XSPI_OWN is high (R438). -/
def State.settleBus (s : State) : State := { s with flashHeld := !s.modResetN && s.xspiOwn }

/-- The sample of the reset inputs: each effective assertion resets the module (R392). Released, MOD_RESET_N returns a test instruction that
drives the balls to BYPASS (R425) and the flash bus to the module (R438). Completions are written from the next tick on.
DESIGN CHOICE: notes/assumptions/105.md. -/
def State.samplePins (s : State) (x : Sample) : State :=
  let p := settled s.pinSample.1 x.perstN s.perstN
  let m := settled s.pinSample.2.1 x.modResetN s.modResetN
  let v := settled s.pinSample.2.2 x.vinPg s.vinPg
  let s1 := if s.perstN && !p then s.moduleReset lrPERST 1 false else s
  let s2 := if s.modResetN && !m then s1.moduleReset lrMOD_RESET 1 true else s1
  let s3 := if s.vinPg && !v then s2.moduleReset lrSHUTDOWN 1 true else s2
  { s3 with
    pinSample := (x.perstN, x.modResetN, x.vinPg), perstN := p, modResetN := m, vinPg := v
    hif := if m && !s.modResetN then s3.hif.releaseBalls else s3.hif }.settleBus

/-- Link-level errors and ECRC failures that the PCIe interface reports (Table 19.2). -/
def State.linkErrors (s : State) (es : List Nat) : State :=
  if s.hifOn then { s with hif := (es.filter isLinkEvent).foldl Hif.aerNote s.hif } else s

/-- Firmware has been checked, and goes on to the units in the next tick (Table 17.6).
DEDUCED: notes/assumptions/106.md. -/
def State.startUnits (s : State) : State := if s.startPhase = 1 && s.mpRunning then s.unitStart else s

/-- R387, R378: one tick, and its sample. A threshold that the sample crosses acts by the row of that crossing.
DESIGN CHOICE: notes/assumptions/84.md. -/
def execFlannelTick (s : State) (x : Sample := {}) : Out := flannelEvent true s ((({ s.portsTick.stageTick.slotTicks.leaveTick with tick := s.tick + 1 }.startUnits.linkErrors x.link).samplePins x).sample x)

/-! ### Temperature (R439): the hottest junction reading -/

/-- R439. -/
def execThermAlertAssert (celsius : Nat) (s : State) : Out := flannelEvent (decide (100 ≤ celsius)) s { s with thermAlert := true }

/-- R439. -/
def execThermAlertRelease (celsius : Nat) (s : State) : Out := flannelEvent (decide (celsius < 95)) s { s with thermAlert := false }

/-- R439. -/
def execThermalForceLow (celsius : Nat) (s : State) : Out :=
  flannelEvent (decide (105 ≤ celsius) && !s.lowTherm) s ((State.noteSupply { s with lowTherm := true } s).followEnv)

/-- R439. -/
def execThermalForceRelease (celsius : Nat) (s : State) : Out :=
  flannelEvent (decide (celsius < 98) && s.lowTherm) s ((State.noteSupply { s with lowTherm := false } s).followEnv)

/-! ### The flash bus (R438) -/

/-- R438: with MOD_RESET_N asserted and XSPI_OWN high the module leaves the flash bus to the programmer. `writes`: what a programmer that had the bus
has written since, as flash offsets and bytes.
DESIGN CHOICE: notes/assumptions/104.md. -/
def execXspiOwnChange (level : Bool) (s : State) (writes : List (Nat × Bytes) := []) : Out :=
  .next { (if s.flashHeld then writes.foldl State.program s else s) with xspiOwn := level, flashHeld := !s.modResetN && level }

end Sys2Proof.Machine
end

