-- ==== Sys2Proof/Machine/Tiers.lean ====
section
/-! DEFINITION. Events of the memory tiers (12, 14): recalibration slots, the ends of prefetches and write-backs, and the recovery of
far-tier links. -/

namespace Sys2Proof.Machine

/-! ### Recalibration slots (R263, Table 12.6) -/

/-- Domain of a near stack or board channel. -/
def unitDomain (r : Nat) : Nat := if r < 8 then 50 + r else 47 + (r - 8) / 8

/-- R263. A domain that is not on takes no slot. -/
def execRecalSlotStart (r : Nat) (s : State) : Out :=
  guarded (tierOk r) (
    let x : Recal := s.recal.get {} r
    if s.domOn (unitDomain r) && slotTick r s.tick && !x.inSlot then
      { s with recal := s.recal.set {} r { x with inSlot := true, startTick := s.tick, waited := 0 } }
    else s)

/-- The slot is counted, with the ticks in which at least one access waited on it: `waited` counts the accesses of copies, folds and
solves that were under way, which are no requests of State.
DEDUCED: notes/assumptions/81.md. -/
def State.endSlot (s : State) (r waited : Nat) : State :=
  let x : Recal := s.recal.get {} r
  let w := min (max x.waited waited) (slotLength r x.startTick)
  if x.reloading then { s with recal := s.recal.set {} r { x with inSlot := false, reloading := false } }.resume
  else { s with recal := s.recal.set {} r { x with inSlot := false, slots := min (x.slots + 1) 0xFFFF, slotWait := min (x.slotWait + w) 0xFFFF } }.resume

/-- How long unit `r` serves no access: the length of its slot, or of the reload of its firmware (Table 18.7). -/
def Recal.pause (x : Recal) (r : Nat) : Nat := if x.reloading then (if r < 24 then 25 else 250) else slotLength r x.startTick

/-- R263: the slot has run its length; what waited is served. -/
def execRecalSlotEnd (r waited : Nat) (s : State) : Out :=
  guarded (tierOk r) (
    let x : Recal := s.recal.get {} r
    if x.inSlot && decide (x.startTick + x.pause r ≤ s.tick) then s.endSlot r waited else s)

/-! ### Prefetch and write-back (R262, R324, R325) -/

/-- Domains and tier units that a record's copy needs. -/
def State.pfGates (s : State) (r : PfRec) : List Nat := s.rangeDomains r.src r.bytes ++ s.rangeDomains r.stage r.bytes

/-- The correctable errors that a record's copy meets at either end (R360).
DESIGN CHOICE: notes/assumptions/46.md. -/
def State.copyErrors (s : State) (ces : List (Nat × Nat)) (r : PfRec) : State := (s.corrections ces r.src r.bytes).corrections ces r.stage r.bytes

/-- Copies `n` bytes, a multiple of 64, from `a` to `b`; a line of either that lies on a retired page is refused (R265). -/
def State.copyLines (s : State) (a b n : Nat) : State :=
  if !s.touchesRetired a n && !s.touchesRetired b n then s.writeBytes b (s.readBytes a n)
  else (List.range (n / 64)).foldl (fun (t : State) i =>
    if t.touchesRetired (a + 64 * i) 64 || t.touchesRetired (b + 64 * i) 64 then t
    else t.writeBytes (b + 64 * i) (s.readBytes (a + 64 * i) 64)) s

/-- The last line has landed: SRC lies at STAGE. When the bucket had been skipped meanwhile, a prefetch of its new step goes on. One whose
range lies by now on a retired page is refused there, and sets PF_FAILED (R265, R324).
DEDUCED: notes/assumptions/82.md. -/
def State.endPrefetch (s : State) (b : Nat) : State :=
  let x := s.bkt b
  let r := x.runningPf
  let bad := s.touchesRetired r.src r.bytes || s.touchesRetired r.stage r.bytes
  let y : Bkt := if x.pfStale then { x with pfStale := false, pfBusy := x.pfStarted && !x.pfFailed && x.pf.src != 0 }
    else { x with pfBusy := false, pfFailed := x.pfFailed || bad, stickyPf := x.stickyPf || bad }
  ((((s.copyLines r.src r.stage r.bytes).setBkt b y).touch (s.pfGates r)).settleForces).advance

/-- A write-back that still runs writes a line that bucket `b`'s prefetch reads (R251, R262). -/
def State.behindWriteBack (s : State) (b : Nat) : Bool :=
  let r := (s.bkt b).runningPf
  s.grad.buckets.any fun (e : Nat × Bkt) => e.2.wbBusy && overlap r.src r.bytes e.2.wb.src e.2.wb.bytes

/-- R324. R251 orders it after a write-back that still runs. -/
def execPrefetchEnd (b : Nat) (s : State) (ces : List (Nat × Nat) := []) : Out :=
  guarded (bucketOk b) (
    let x := s.bkt b
    let off := s.asleep (s.pfGates x.runningPf)
    if !(x.pfBusy && !s.behindWriteBack b) then s else if off.isEmpty then (s.copyErrors ces x.runningPf).endPrefetch b else s.wakeAll off)

/-- STAGE lies at SRC again.
DEDUCED: notes/assumptions/82.md. -/
def State.endWriteBack (s : State) (b : Nat) : State :=
  let r := (s.bkt b).wb
  ((((s.copyLines r.stage r.src r.bytes).setBkt b { s.bkt b with wbBusy := false }).touch (s.pfGates r)).settleForces).advance

/-- R325. -/
def execStateWriteBackEnd (b : Nat) (s : State) (ces : List (Nat × Nat) := []) : Out :=
  guarded (bucketOk b) (
    let off := s.asleep (s.pfGates (s.bkt b).wb)
    if !(s.bkt b).wbBusy then s else if off.isEmpty then (s.copyErrors ces (s.bkt b).wb).endWriteBack b else s.wakeAll off)

/-! ### Far-tier links (R260) -/

def State.setRecovering (s : State) (port : Nat) (on : Bool) : State :=
  { s with tiers := s.tiers.set {} (24 + port) { (s.tiers.get {} (24 + port) : Tier) with recovering := on } }

/-- R260: while the link recovers, accesses wait. -/
def execFarLinkRecoveryStart (port : Nat) (s : State) : Out :=
  guarded (farOk port) (if s.up && (s.tiers.get {} (24 + port) : Tier).state == 0 then s.setRecovering port true else s)

/-- R260. -/
def execFarLinkRecoveryEnd (port : Nat) (s : State) : Out :=
  guarded (farOk port) (if (s.tiers.get {} (24 + port) : Tier).recovering then (s.setRecovering port false).resume else s)

end Sys2Proof.Machine
end

