-- ==== Sys2Proof/Machine/Dispatch.lean ====
section
/-! DEFINITION. One arm for each command: the meaning it calls. -/

namespace Sys2Proof.Machine

/-- What command `i` does to everything but the queue. -/
def exec (i : Instr) (s : State) : Host.Outcome State Fault Refusal :=
  match i with
  | .matmul o => Sys2Proof.Machine.execMatmul o s
  | .matmulStart n => Sys2Proof.Machine.execMatmulStart n s
  | .matmulIntervalEnd n busy => Sys2Proof.Machine.execMatmulIntervalEnd n busy s
  | .matmulWritebackEnd n busy => Sys2Proof.Machine.execMatmulWritebackEnd n busy s
  | .curvgather o => Sys2Proof.Machine.execCurvgather o s
  | .deltaSegmentRetry id => Sys2Proof.Machine.execDeltaSegmentRetry id s
  | .vecop o => Sys2Proof.Machine.execVecop o s
  | .vectorDescriptorStart n cycle delays => Sys2Proof.Machine.execVectorDescriptorStart n cycle delays s
  | .compress o => Sys2Proof.Machine.execCompress o s
  | .expand o => Sys2Proof.Machine.execExpand o s
  | .stashPut o => Sys2Proof.Machine.execStashPut o s
  | .stashGet o => Sys2Proof.Machine.execStashGet o s
  | .stashTake o => Sys2Proof.Machine.execStashTake o s
  | .stashFree o => Sys2Proof.Machine.execStashFree o s
  | .copy o => Sys2Proof.Machine.execCopy o s
  | .racc o => Sys2Proof.Machine.execRacc o s
  | .gather o => Sys2Proof.Machine.execGather o s
  | .gatherRetry id => Sys2Proof.Machine.execGatherRetry id s
  | .gatherDeadline id => Sys2Proof.Machine.execGatherDeadline id s
  | .gatherRoot o => Sys2Proof.Machine.execGatherRoot o s
  | .drop o => Sys2Proof.Machine.execDrop o s
  | .dropRoot o => Sys2Proof.Machine.execDropRoot o s
  | .bcast o => Sys2Proof.Machine.execBcast o s
  | .permute o => Sys2Proof.Machine.execPermute o s
  | .permuteDrainTimeout id => Sys2Proof.Machine.execPermuteDrainTimeout id s
  | .permuteFinal => Sys2Proof.Machine.execPermuteFinal s
  | .finalDrainTimeout => Sys2Proof.Machine.execFinalDrainTimeout s
  | .gate o => Sys2Proof.Machine.execGate o s
  | .gateRecordForm ces => Sys2Proof.Machine.execGateRecordForm s ces
  | .solve o => Sys2Proof.Machine.execSolve o s
  | .solveStart e => Sys2Proof.Machine.execSolveStart e s
  | .solveIterationEnd e ces => Sys2Proof.Machine.execSolveIterationEnd e s ces
  | .solveFactorisationEnd e ces => Sys2Proof.Machine.execSolveFactorisationEnd e s ces
  | .solveDeadline id ces => Sys2Proof.Machine.execSolveDeadline id s ces
  | .solvePublish e ces => Sys2Proof.Machine.execSolvePublish e s ces
  | .fence o => Sys2Proof.Machine.execFence o s
  | .signal o => Sys2Proof.Machine.execSignal o s
  | .descriptorCompletion id => Sys2Proof.Machine.execDescriptorCompletion id s
  | .trackerEntryGrant n => Sys2Proof.Machine.execTrackerEntryGrant n s
  | .issue k m => Sys2Proof.Machine.execIssue k m s
  | .wait k => Sys2Proof.Machine.execWait k s
  | .waitTimeout k => Sys2Proof.Machine.execWaitTimeout k s
  | .loop k => Sys2Proof.Machine.execLoop k s
  | .beq k => Sys2Proof.Machine.execBeq k s
  | .bne k => Sys2Proof.Machine.execBne k s
  | .blt k => Sys2Proof.Machine.execBlt k s
  | .bge k => Sys2Proof.Machine.execBge k s
  | .bltu k => Sys2Proof.Machine.execBltu k s
  | .bgeu k => Sys2Proof.Machine.execBgeu k s
  | .jump k => Sys2Proof.Machine.execJump k s
  | .add k => Sys2Proof.Machine.execAdd k s
  | .sub k => Sys2Proof.Machine.execSub k s
  | .addi k => Sys2Proof.Machine.execAddi k s
  | .shl k => Sys2Proof.Machine.execShl k s
  | .shr k => Sys2Proof.Machine.execShr k s
  | .sra k => Sys2Proof.Machine.execSra k s
  | .and k => Sys2Proof.Machine.execAnd k s
  | .or k => Sys2Proof.Machine.execOr k s
  | .xor k => Sys2Proof.Machine.execXor k s
  | .coreLoad k ce => Sys2Proof.Machine.execCoreLoad k ce s
  | .coreStore k lost => Sys2Proof.Machine.execCoreStore k lost s
  | .storeRetry k lost => Sys2Proof.Machine.execStoreRetry k lost s
  | .coreFence k => Sys2Proof.Machine.execCoreFence k s
  | .coreSignal k => Sys2Proof.Machine.execCoreSignal k s
  | .halt k => Sys2Proof.Machine.execHalt k s
  | .sqDoorbell q w => Sys2Proof.Machine.execSqDoorbell q w s
  | .sqEntryFetch h m => Sys2Proof.Machine.execSqEntryFetch h m s
  | .fetchErrClear q => Sys2Proof.Machine.execFetchErrClear q s
  | .sqEnable q w => Sys2Proof.Machine.execSqEnable q w s
  | .sqDisable q w => Sys2Proof.Machine.execSqDisable q w s
  | .sqAbort q w => Sys2Proof.Machine.execSqAbort q w s
  | .cqEnable q w => Sys2Proof.Machine.execCqEnable q w s
  | .cqDisable q w => Sys2Proof.Machine.execCqDisable q w s
  | .cqHeadWrite q w => Sys2Proof.Machine.execCqHeadWrite q w s
  | .dmkLoad w nv => Sys2Proof.Machine.execDmkLoad w s nv
  | .damaskClearDone => Sys2Proof.Machine.execDamaskClearDone s
  | .dmkStore w nv => Sys2Proof.Machine.execDmkStore w nv s
  | .dmkErase w nv => Sys2Proof.Machine.execDmkErase w s nv
  | .dmkSetBoot w nv => Sys2Proof.Machine.execDmkSetBoot w s nv
  | .bootDamaskLoad => Sys2Proof.Machine.execBootDamaskLoad s
  | .seqLoad w ces => Sys2Proof.Machine.execSeqLoad w s ces
  | .seqStart w => Sys2Proof.Machine.execSeqStart w s
  | .seqStop w => Sys2Proof.Machine.execSeqStop w s
  | .retire w nv => Sys2Proof.Machine.execRetire w nv s
  | .release w nv => Sys2Proof.Machine.execRelease w nv s
  | .stage w nv => Sys2Proof.Machine.execStage w nv s
  | .activate w => Sys2Proof.Machine.execActivate w s
  | .unstage w => Sys2Proof.Machine.execUnstage w s
  | .revert w => Sys2Proof.Machine.execRevert w s
  | .mpBoot adoptOk => Sys2Proof.Machine.execMpBoot adoptOk s
  | .firmwareReload component unit => Sys2Proof.Machine.execFirmwareReload component unit s
  | .calNow p w => Sys2Proof.Machine.execCalNow p w s
  | .releaseHeld p w => Sys2Proof.Machine.execReleaseHeld p w s
  | .retrain p w => Sys2Proof.Machine.execRetrain p w s
  | .lostClear p w => Sys2Proof.Machine.execLostClear p w s
  | .cancel w => Sys2Proof.Machine.execCancel w s
  | .clearBuckets w => Sys2Proof.Machine.execClearBuckets w s
  | .unhold w ces => Sys2Proof.Machine.execUnhold w s ces
  | .gblStepWrite w => Sys2Proof.Machine.execGblStepWrite w s
  | .gblBar2BaseWrite w => Sys2Proof.Machine.execGblBar2BaseWrite w s
  | .gblCounterWrite n c w => Sys2Proof.Machine.execGblCounterWrite n c w s
  | .forcePolicy d w => Sys2Proof.Machine.execForcePolicy d w s
  | .forceOn d w => Sys2Proof.Machine.execForceOn d w s
  | .forceRetain d w => Sys2Proof.Machine.execForceRetain d w s
  | .forceOff d w => Sys2Proof.Machine.execForceOff d w s
  | .attnClear w sameTick => Sys2Proof.Machine.execAttnClear w sameTick s
  | .registerWrite off w sameTick => Sys2Proof.Machine.execRegisterWrite off w s sameTick
  | .registerReadClear off h => Sys2Proof.Machine.execRegisterReadClear off h s
  | .bar0BadAccess off size write => Sys2Proof.Machine.execBar0BadAccess off size write s
  | .bar2Read a len ces => Sys2Proof.Machine.execBar2Read a len ces s
  | .bar2Write a b losses ces => Sys2Proof.Machine.execBar2Write a b losses s ces
  | .configRequest off write => Sys2Proof.Machine.execConfigRequest off write s
  | .d3hotEntry => Sys2Proof.Machine.execD3hotEntry s
  | .d0Return => Sys2Proof.Machine.execD0Return s
  | .hotReset dt => Sys2Proof.Machine.execHotReset dt s
  | .perstNAssert dt => Sys2Proof.Machine.execPerstNAssert dt s
  | .modResetNAssert dt => Sys2Proof.Machine.execModResetNAssert dt s
  | .vinPgDeassert dt => Sys2Proof.Machine.execVinPgDeassert dt s
  | .moduleStart pr => Sys2Proof.Machine.execModuleStart pr s
  | .calicoRepublish => Sys2Proof.Machine.execCalicoRepublish s
  | .calicoPublishEnd => Sys2Proof.Machine.execCalicoPublishEnd s
  | .flannelPowerUp => Sys2Proof.Machine.execFlannelPowerUp s
  | .flannelPowerLoss => Sys2Proof.Machine.execFlannelPowerLoss s
  | .nvThresholdFall vin => Sys2Proof.Machine.execNvThresholdFall vin s
  | .nvThresholdRise vin => Sys2Proof.Machine.execNvThresholdRise vin s
  | .lowThresholdFall vin => Sys2Proof.Machine.execLowThresholdFall vin s
  | .lowThresholdRise vin => Sys2Proof.Machine.execLowThresholdRise vin s
  | .supplyShutdown vin dt => Sys2Proof.Machine.execSupplyShutdown vin dt s
  | .throttleCurrent iin => Sys2Proof.Machine.execThrottleCurrent iin s
  | .throttlePower pin => Sys2Proof.Machine.execThrottlePower pin s
  | .throttleEnd pin iin => Sys2Proof.Machine.execThrottleEnd pin iin s
  | .refclkLost => Sys2Proof.Machine.execRefclkLost s
  | .refclkRestore => Sys2Proof.Machine.execRefclkRestore s
  | .thermAlertAssert celsius => Sys2Proof.Machine.execThermAlertAssert celsius s
  | .thermAlertRelease celsius => Sys2Proof.Machine.execThermAlertRelease celsius s
  | .thermalForceLow celsius => Sys2Proof.Machine.execThermalForceLow celsius s
  | .thermalForceRelease celsius => Sys2Proof.Machine.execThermalForceRelease celsius s
  | .xspiOwnChange level writes => Sys2Proof.Machine.execXspiOwnChange level s writes
  | .bypass op => Sys2Proof.Machine.execBypass s op
  | .idcode => Sys2Proof.Machine.execIdcode s
  | .samplePreload cells => Sys2Proof.Machine.execSamplePreload cells s
  | .extest => Sys2Proof.Machine.execExtest s
  | .clamp => Sys2Proof.Machine.execClamp s
  | .highz => Sys2Proof.Machine.execHighz s
  | .i3cRead off x => Sys2Proof.Machine.execI3cRead off s x
  | .i3cWrite off b x => Sys2Proof.Machine.execI3cWrite off b s x
  | .entdaa addr => Sys2Proof.Machine.execEntdaa addr s
  | .setdasa addr target => Sys2Proof.Machine.execSetdasa addr s target
  | .rstdaa => Sys2Proof.Machine.execRstdaa s
  | .getpid addr => Sys2Proof.Machine.execGetpid s addr
  | .getbcr addr => Sys2Proof.Machine.execGetbcr s addr
  | .getdcr addr => Sys2Proof.Machine.execGetdcr s addr
  | .getstatus addr => Sys2Proof.Machine.execGetstatus s addr
  | .getmxds addr => Sys2Proof.Machine.execGetmxds s addr
  | .uncorrectableError errs dt => Sys2Proof.Machine.execUncorrectableError errs dt s
  | .farLinkDown port linkState dt => Sys2Proof.Machine.execFarLinkDown port linkState dt s
  | .faultWindowClose => Sys2Proof.Machine.execFaultWindowClose s
  | .faultLogPersist part => Sys2Proof.Machine.execFaultLogPersist s part
  | .scrubAccess u found more => Sys2Proof.Machine.execScrubAccess u found more s
  | .scrubOverdue u => Sys2Proof.Machine.execScrubOverdue u s
  | .domainRetainTimeout d => Sys2Proof.Machine.execDomainRetainTimeout d s
  | .domainOffTimeout d => Sys2Proof.Machine.execDomainOffTimeout d s
  | .domainSleepComplete d => Sys2Proof.Machine.execDomainSleepComplete d s
  | .domainWakeComplete d lost => Sys2Proof.Machine.execDomainWakeComplete d s lost
  | .wakeFail d phase => Sys2Proof.Machine.execWakeFail d phase s
  | .envelopeFallsEnd => Sys2Proof.Machine.execEnvelopeFallsEnd s
  | .envelopeRisesEnd => Sys2Proof.Machine.execEnvelopeRisesEnd s
  | .sergeSwap e => Sys2Proof.Machine.execSergeSwap e s
  | .deltaPacketFold f ces => Sys2Proof.Machine.execDeltaPacketFold f s ces
  | .scheduledRootRefresh f o => Sys2Proof.Machine.execScheduledRootRefresh f o s
  | .recalSlotStart r => Sys2Proof.Machine.execRecalSlotStart r s
  | .recalSlotEnd r waited => Sys2Proof.Machine.execRecalSlotEnd r waited s
  | .prefetchEnd b ces => Sys2Proof.Machine.execPrefetchEnd b s ces
  | .dataMoverRetry n lost => Sys2Proof.Machine.execDataMoverRetry n lost s
  | .dataFlitReceive p flit badLane => Sys2Proof.Machine.execDataFlitReceive p flit badLane s
  | .controlFlitReceive p flit badLane => Sys2Proof.Machine.execControlFlitReceive p flit badLane s
  | .controlFlitSend p => Sys2Proof.Machine.execControlFlitSend p s
  | .move p lane phys => Sys2Proof.Machine.execMove p lane phys s
  | .moved p lane => Sys2Proof.Machine.execMoved p lane s
  | .failed p lane => Sys2Proof.Machine.execFailed p lane s
  | .width p w => Sys2Proof.Machine.execWidth p w s
  | .drift p lane => Sys2Proof.Machine.execDrift p lane s
  | .calRotation p => Sys2Proof.Machine.execCalRotation p s
  | .laneAdaptEnd p => Sys2Proof.Machine.execLaneAdaptEnd p s
  | .laneFailureDetect p phys => Sys2Proof.Machine.execLaneFailureDetect p phys s
  | .linkSilence p => Sys2Proof.Machine.execLinkSilence p s
  | .lossOfSignal p lanes => Sys2Proof.Machine.execLossOfSignal p lanes s
  | .transactionTimeout txn => Sys2Proof.Machine.execTransactionTimeout txn s
  | .trainingEnd p partnerNode partnerPod partnerPort failedLanes partnerActive => Sys2Proof.Machine.execTrainingEnd p partnerNode partnerPod partnerPort failedLanes s partnerActive
  | .telemetryWindowEnd p txData rxData stallTicks fecCorr margin => Sys2Proof.Machine.execTelemetryWindowEnd p txData rxData stallTicks fecCorr margin s
  | .packetForward j => Sys2Proof.Machine.execPacketForward j s
  | .readReq k m => Sys2Proof.Machine.execReadReq k s m
  | .readResp k m => Sys2Proof.Machine.execReadResp k s m
  | .write k m => Sys2Proof.Machine.execWrite k s m
  | .raccPacket k m => Sys2Proof.Machine.execRaccPacket k s m
  | .signalPacket k => Sys2Proof.Machine.execSignalPacket k s
  | .delta k m => Sys2Proof.Machine.execDelta k s m
  | .deltaReservationTimeout f txn => Sys2Proof.Machine.execDeltaReservationTimeout f txn s
  | .bucket k => Sys2Proof.Machine.execBucket k s
  | .ack k => Sys2Proof.Machine.execAck k s
  | .beacon p k => Sys2Proof.Machine.execBeacon p k s
  | .beaconSeenExpiry f => Sys2Proof.Machine.execBeaconSeenExpiry f s
  | .gateUp k m => Sys2Proof.Machine.execGateUp k s m
  | .gateDown k m => Sys2Proof.Machine.execGateDown k s m
  | .bucketRelease ces => Sys2Proof.Machine.execBucketRelease s ces
  | .ringMax k => Sys2Proof.Machine.execRingMax k s
  | .ringScale k => Sys2Proof.Machine.execRingScale k s
  | .ringData k m => Sys2Proof.Machine.execRingData k s m
  | .mirrorFwd k m => Sys2Proof.Machine.execMirrorFwd k s m
  | .fprint k m => Sys2Proof.Machine.execFprint k s m
  | .bcastData k m => Sys2Proof.Machine.execBcastData k s m
  | .paramRead k m => Sys2Proof.Machine.execParamRead k s m
  | .paramData k m => Sys2Proof.Machine.execParamData k s m
  | .rootHold k m => Sys2Proof.Machine.execRootHold k s m
  | .rootDrop k => Sys2Proof.Machine.execRootDrop k s
  | .stageSend g => Sys2Proof.Machine.execStageSend g s
  | .stageData k m => Sys2Proof.Machine.execStageData k s m
  | .stageCredit k => Sys2Proof.Machine.execStageCredit k s
  | .permuteData k m => Sys2Proof.Machine.execPermuteData k s m
  | .reshardUp k => Sys2Proof.Machine.execReshardUp k s
  | .reshardDown k => Sys2Proof.Machine.execReshardDown k s
  | .flannelTick x => Sys2Proof.Machine.execFlannelTick s x
  | .idleFlitReceive p flit badLane => Sys2Proof.Machine.execIdleFlitReceive p s flit badLane
  | .startResidualEnd e ces => Sys2Proof.Machine.execStartResidualEnd e s ces
  | .stateWriteBackEnd b ces => Sys2Proof.Machine.execStateWriteBackEnd b s ces
  | .farLinkRecoveryStart port => Sys2Proof.Machine.execFarLinkRecoveryStart port s
  | .farLinkRecoveryEnd port => Sys2Proof.Machine.execFarLinkRecoveryEnd port s
  | .pcieLinkUp speed width flitMode => Sys2Proof.Machine.execPcieLinkUp speed width flitMode s
  | .driftAlarm p phys margin => Sys2Proof.Machine.execDriftAlarm p phys margin s
  | .testLogicReset => Sys2Proof.Machine.execTestLogicReset s

end Sys2Proof.Machine
end

