-- ==== Sys2Proof/Safety.lean ====
section
/-! DEFINITION. The terms that the statements use: when a command may act, and what may differ between two states. -/

namespace Sys2Proof.Machine

/-! ### Memory -/

/-- The memory is in its canonical form (notes/assumptions/4.md). -/
abbrev State.MemForm (s : State) : Prop := memoryWf s.zeroed s.mem

/-- No byte of memory differs outside [a, a + n). -/
def sameBytesBut (s t : State) (a n : Nat) : Prop := ∀ x, x < a ∨ a + n ≤ x → t.read8 x = s.read8 x

/-- No byte of memory differs. -/
def sameBytes (s t : State) : Prop := ∀ x, t.read8 x = s.read8 x

/-! ### Cores -/

/-- Core `k` runs, nothing holds it, its half is on, and the word at its PC is `w`, of operation `op`, with every unused and
reserved field 0. -/
def State.coreAt (s : State) (k op w : Nat) : Bool :=
  coreOk k && s.coreMay k && (s.core k).word (s.core k).pc == w && iOp w == op && iUnused w == some 0 && iReserved w == 0

/-- Nothing but core `k` differs. -/
def sameButCore (s t : State) (k : Nat) : Prop :=
  t = { s with clusters := t.clusters } ∧ (∀ n, n ≠ k / 16 → t.cluster n = s.cluster n) ∧
  t.cluster (k / 16) = { s.cluster (k / 16) with cores := (t.cluster (k / 16)).cores } ∧
  ∀ i, i ≠ k % 16 → (t.cluster (k / 16)).cores.get {} i = (s.cluster (k / 16)).cores.get {} i

/-- Core `d` is core `c` gone on to `pc`, with its registers perhaps changed. -/
def goneTo (c d : Core) (pc : Nat) : Prop := d = { c with regs := d.regs, pc := pc, st := .run, hold := .none }

/-- Register `rd` holds `v`, s0 always 0 (R168), and no other register differs. -/
def wroteReg (c d : Core) (rd : Nat) (v : Word) : Prop :=
  d.reg rd = (if rd = 0 then 0 else v) ∧ ∀ i, i ≠ rd → d.reg i = c.reg i

/-- After an operation of core `k` that writes `v` to RD and goes on to the next index. -/
def coreWrote (s t : State) (k rd : Nat) (v : Word) : Prop :=
  sameButCore s t k ∧ goneTo (s.core k) (t.core k) ((s.core k).pc + 1) ∧ wroteReg (s.core k) (t.core k) rd v

/-- After an operation of core `k` that writes no register and goes on to `pc`. -/
def coreWent (s t : State) (k pc : Nat) : Prop :=
  sameButCore s t k ∧ goneTo (s.core k) (t.core k) pc ∧ ∀ i, (t.core k).reg i = (s.core k).reg i

/-- The commands of the 24 operations of core `k`, with their codes (Table 8.7). -/
def coreRows (k : Nat) : List (Nat × Instr) :=
  [(opISSUE, .issue k {}), (opWAIT, .wait k), (opLOOP, .loop k), (opBEQ, .beq k), (opBNE, .bne k), (opBLT, .blt k), (opBGE, .bge k),
   (opBLTU, .bltu k), (opBGEU, .bgeu k), (opJUMP, .jump k), (opADD, .add k), (opSUB, .sub k), (opADDI, .addi k), (opSHL, .shl k),
   (opSHR, .shr k), (opSRA, .sra k), (opAND, .and k), (opOR, .or k), (opXOR, .xor k), (opLOAD, .coreLoad k none),
   (opSTORE, .coreStore k false), (opFENCE, .coreFence k), (opSIGNAL, .coreSignal k), (opHALT, .halt k)]

/-- Operations that always go on to the next index: at index 8,191 they fault (R172). -/
def opsGoingOn : List Nat :=
  [opWAIT, opADD, opSUB, opADDI, opSHL, opSHR, opSRA, opAND, opOR, opXOR, opFENCE, opSIGNAL]

/-! ### Descriptors -/

/-- The descriptor rows that offer `o`, each with the condition on the offer under which it is that row's. -/
def offerRows (s : State) (o : Offer) (f : Nat) : List (Bool × Instr) :=
  let b := o.bytes
  let t := dType b
  let root := Ga.kind b == 1
  [(t == tyMATMUL, .matmul o), (t == tyCURVGATHER, .curvgather o), (vIsVecop b && !vIsStash b, .vecop o), (vIsCompress b, .compress o),
   (vIsExpand b, .expand o), (vIsPut b, .stashPut o), (vIsGet b, .stashGet o), (vIsTake b, .stashTake o), (vIsFree b, .stashFree o),
   (t == tyCOPY, .copy o), (t == tyRACC, .racc o), (t == tyGATHER && !root, .gather o), (t == tyGATHER && root, .gatherRoot o),
   (t == tyDROP && !root, .drop o), (t == tyDROP && root, .dropRoot o), (t == tyBCAST, .bcast o), (t == tyPERMUTE, .permute o),
   (t == tyGATE, .gate o), (t == tySOLVE, .solve o), (t == tyFENCE, .fence o), (t == tySIGNAL, .signal o),
   (factorOk f && t == tySOLVE && So.factor b == f && s.scheduled f (So.step b) && So.engine b == s.schedEngine f && s.fromSchedules o.iss &&
      !s.packetsOwed f (So.step b),
    .scheduledRootRefresh f o)]

/-- SQ_HEAD of a descriptor's record: the HEAD of its queue, 0 for a core. -/
def State.headOf (s : State) (iss : Issuer) : Nat := match iss with
  | .host q => (s.sqs.get {} q).head
  | .core _ => 0

/-- One descriptor offered by an issuer that may offer it. -/
def State.offers (s : State) (o : Offer) : Bool := o.wf && s.issuerLive o.iss

/-- A descriptor that passes its checks and finds its queue and its tracker open. -/
def State.takes (s : State) (o : Offer) : Bool :=
  s.offers o && s.issuerCheck o.iss o.bytes == stOK && !s.fenced o.iss && s.hasRoomAt (s.placeOf o.iss o.bytes) && !s.entriesTaken o

/-- Nothing waits, no transaction is open, and the domains that a descriptor of this offer needs all serve. -/
def State.idleFor1 (s : State) (o : Offer) : Bool :=
  s.descs.isEmpty && s.txns.isEmpty && (s.accept o (s.headOf o.iss)).descs.all fun d => (s.asleep (s.needs d)).isEmpty

/-! ### BAR0 -/

/-- The host interface takes BAR0 accesses (R394, R411). -/
def State.barTakes (s : State) : Bool := s.hifOn && !s.hif.d3hot

/-! ### Flits and packets on the line -/

/-- The fields of a data flit fit those of Table 13.1. -/
def Flit.wf (f : Flit) : Bool := decide (f.vc < 4) && decide (f.cls < 2) && decide (f.seq < 65536) && f.payload.length == 58

/-- The fields of a control flit fit those of Table 13.3. -/
def CtlFlit.wf (c : CtlFlit) : Bool :=
  decide (c.action < 256 ∧ c.arg0 < 256 ∧ c.arg1 < 256 ∧ c.actionId < 256 ∧ c.ackSeq < 65536 ∧ c.lanesOk < 256 ∧ c.node < 65536 ∧ c.podId < 2 ^ 32) &&
  decide (c.txTime < 2 ^ 64 ∧ c.echoTime < 2 ^ 64 ∧ c.echoRx < 2 ^ 64 ∧ c.port < 256) && c.nak.all (fun q => decide (q < 65536)) &&
  c.credit.length == 7 && c.credit.all fun n => decide (n < 65536)

/-- The fields of a packet fit those of Tables 13.4 and 13.6, and its data fill what its header says, or its flits where the header does not
say it. -/
def onWire (k : Packet) : Bool :=
  decide (k.dst < 65536 ∧ k.src < 65536 ∧ k.kind < 256 ∧ k.rflags < 256 ∧ k.epoch < 2 ^ 32 ∧ k.txn < 2 ^ 32) && k.hdr.length == 16 &&
  (if k.kind = kREAD_REQ then k.data.isEmpty
    else if [kREAD_RESP, kWRITE, kRACC, kSIGNAL, kDELTA, kACK].contains k.kind then k.data.length == field k.hdr 8 2
    else (32 + k.data.length) % 58 == 0)

/-! ### Packets -/

/-- A well-formed packet is whole at a started module. -/
def State.holds (s : State) (k : Packet) : Bool := s.up && k.wf && s.arrived.contains k

/-- The packet rows that serve `k`, each with the condition under which the packet is that row's. -/
def packetRows (k : Packet) (m : Meets := {}) : List (Bool × Instr) :=
  [(k.kind == kREAD_REQ, .readReq k m), (k.kind == kREAD_RESP, .readResp k m), (k.kind == kWRITE, .write k m), (k.kind == kRACC, .raccPacket k m),
   (k.kind == kDELTA, .delta k m), (isColl skGATE_UP k, .gateUp k m), (isColl skGATE_DOWN k, .gateDown k m), (isColl skRING_DATA k, .ringData k m),
   (isColl skMIRROR_FWD k, .mirrorFwd k m), (isColl skFPRINT k, .fprint k m), (isColl skBCAST_DATA k, .bcastData k m),
   (isColl skPARAM_READ k, .paramRead k m), (isColl skPARAM_DATA k, .paramData k m), (isColl skROOT_HOLD k, .rootHold k m),
   (isColl skSTAGE_DATA k, .stageData k m), (isColl skPERMUTE_DATA k, .permuteData k m), (k.kind == kSIGNAL, .signalPacket k),
   (k.kind == kBUCKET, .bucket k), (k.kind == kACK, .ack k), (isColl skRING_MAX k, .ringMax k), (isColl skRING_SCALE k, .ringScale k),
   (isColl skROOT_DROP k, .rootDrop k), (isColl skSTAGE_CREDIT k, .stageCredit k), (isColl skRESHARD_UP k, .reshardUp k),
   (isColl skRESHARD_DOWN k, .reshardDown k)]

end Sys2Proof.Machine
end

