-- ==== Sys2Proof/Certificates/Slice0/Obligations.lean ====
section
/-! DEFINITION. The statements for the provers. -/

open Sys2Proof Sys2Proof.Machine

/-! ### The step -/

/-- A step runs the command at the front of the queue on the state with the queue's rest; with an empty queue the block idles,
which is the model's choice (notes/assumptions/1.md). -/
def Obligations.StepRunsFrontCommand : Prop :=
  (∀ (s : State) (c : Instr) (rest : List Instr), step { s with pending := c :: rest } = exec c { s with pending := rest }) ∧
  ∀ s : State, s.pending = [] → step s = .next s

/-! ### Cores (08) -/

/-- Table 8.7 and R168: ADD, SUB, ADDI, SHL, SHR, SRA, AND, OR and XOR write their result to RD (s0 stays 0) and go on; nothing else
differs. -/
def Obligations.CoreArithmetic : Prop :=
  ∀ (s : State) (k w : Nat),
    let c := s.core k
    let a := c.reg (iRa w)
    let b := c.reg (iRb w)
    let i := BitVec.ofInt 64 (iImm w)
    let d := (b + i).toNat % 64
    c.pc < 8191 →
    (s.coreAt k opADD w = true → ∃ t, exec (.add k) s = .next t ∧ coreWrote s t k (iRd w) (a + b)) ∧
    (s.coreAt k opSUB w = true → ∃ t, exec (.sub k) s = .next t ∧ coreWrote s t k (iRd w) (a - b)) ∧
    (s.coreAt k opADDI w = true → ∃ t, exec (.addi k) s = .next t ∧ coreWrote s t k (iRd w) (a + i)) ∧
    (s.coreAt k opSHL w = true → ∃ t, exec (.shl k) s = .next t ∧ coreWrote s t k (iRd w) (a <<< d)) ∧
    (s.coreAt k opSHR w = true → ∃ t, exec (.shr k) s = .next t ∧ coreWrote s t k (iRd w) (a >>> d)) ∧
    (s.coreAt k opSRA w = true → ∃ t, exec (.sra k) s = .next t ∧ coreWrote s t k (iRd w) (a.sshiftRight d)) ∧
    (s.coreAt k opAND w = true → ∃ t, exec (.and k) s = .next t ∧ coreWrote s t k (iRd w) (a &&& b)) ∧
    (s.coreAt k opOR w = true → ∃ t, exec (.or k) s = .next t ∧ coreWrote s t k (iRd w) (a ||| b)) ∧
    (s.coreAt k opXOR w = true → ∃ t, exec (.xor k) s = .next t ∧ coreWrote s t k (iRd w) (a ^^^ b))

/-- Table 8.7: a branch is taken to index IMM when its comparison holds, and LOOP while its count is not 0; JUMP notes the next
index in RD. A next index of at most 8,191 is gone to; nothing else differs. -/
def Obligations.CoreBranches : Prop :=
  ∀ (s : State) (k w : Nat),
    let c := s.core k
    let a := c.reg (iRa w)
    let b := c.reg (iRb w)
    let i := BitVec.ofInt 64 (iImm w)
    let nxt := fun taken : Bool => if taken then i.toNat else c.pc + 1
    (s.coreAt k opBEQ w = true → nxt (a == b) ≤ 8191 → ∃ t, exec (.beq k) s = .next t ∧ coreWent s t k (nxt (a == b))) ∧
    (s.coreAt k opBNE w = true → nxt (a != b) ≤ 8191 → ∃ t, exec (.bne k) s = .next t ∧ coreWent s t k (nxt (a != b))) ∧
    (s.coreAt k opBLT w = true → nxt (decide (a.toInt < b.toInt)) ≤ 8191 →
      ∃ t, exec (.blt k) s = .next t ∧ coreWent s t k (nxt (decide (a.toInt < b.toInt)))) ∧
    (s.coreAt k opBGE w = true → nxt (decide (b.toInt ≤ a.toInt)) ≤ 8191 →
      ∃ t, exec (.bge k) s = .next t ∧ coreWent s t k (nxt (decide (b.toInt ≤ a.toInt)))) ∧
    (s.coreAt k opBLTU w = true → nxt (decide (a.toNat < b.toNat)) ≤ 8191 →
      ∃ t, exec (.bltu k) s = .next t ∧ coreWent s t k (nxt (decide (a.toNat < b.toNat)))) ∧
    (s.coreAt k opBGEU w = true → nxt (decide (b.toNat ≤ a.toNat)) ≤ 8191 →
      ∃ t, exec (.bgeu k) s = .next t ∧ coreWent s t k (nxt (decide (b.toNat ≤ a.toNat)))) ∧
    (s.coreAt k opLOOP w = true → nxt (a - 1 != 0) ≤ 8191 → ∃ t, exec (.loop k) s = .next t ∧ sameButCore s t k ∧
      goneTo c (t.core k) (nxt (a - 1 != 0)) ∧ wroteReg c (t.core k) (iRa w) (a - 1)) ∧
    (s.coreAt k opJUMP w = true → (a + i).toNat ≤ 8191 → ∃ t, exec (.jump k) s = .next t ∧ sameButCore s t k ∧
      goneTo c (t.core k) (a + i).toNat ∧ wroteReg c (t.core k) (iRd w) (BitVec.ofNat 64 (c.pc + 1)))

/-- R175: a counter has reached a target when their difference, read as a signed 32-bit number, is at least 0. A WAIT whose counter
has reached s[RA] releases with 0 in RD, whatever its deadline; another is held in WAIT, until the counter's value is set to one that
has reached it up to the deadline tick, which writes 0, or TMR_TICK exceeds s[RB], which writes 1, as a value set later does; with
s[RB] 0 no tick releases it. A deadline that a forward step passes falls in the tick that the step led to (R289).
R170: a FENCE goes on when every descriptor of the core has completed, and holds the core in WAIT otherwise. -/
def Obligations.CoreWaits : Prop :=
  ∀ (s : State) (k w : Nat),
    let c := s.core k
    let ahead := fun v : Word32 => (v - (c.reg (iRa w)).truncate 32).toInt
    let held := coreOk k = true ∧ c.hold = .wait ∧ c.word c.pc = w
    let dl := (c.reg (iRb w)).toNat
    let late := 0 < dl ∧ (if s.stepped.1 ≤ dl ∧ dl < s.stepped.2 then s.stepped.2 else dl) < s.tick
    (s.coreAt k opWAIT w = true → c.pc < 8191 → 0 ≤ ahead (s.counter (k / 16) (iC w)) →
      ∃ t, exec (.wait k) s = .next t ∧ coreWrote s t k (iRd w) 0) ∧
    (s.coreAt k opWAIT w = true → c.pc < 8191 → ahead (s.counter (k / 16) (iC w)) < 0 →
      ∃ t, exec (.wait k) s = .next t ∧ sameButCore s t k ∧ t.core k = { c with st := .wait, hold := .wait }) ∧
    (∀ v, held →
      let t := s.setCounter (k / 16) (iC w) v
      t.counter (k / 16) (iC w) = v ∧ (0 ≤ ahead v → goneTo c (t.core k) (c.pc + 1) ∧
        wroteReg c (t.core k) (iRd w) (if late then 1 else 0)) ∧
        (ahead v < 0 → t.core k = c)) ∧
    (held → late → ∃ t, exec (.waitTimeout k) s = .next t ∧ coreWrote s t k (iRd w) 1) ∧
    (held → ¬late → exec (.waitTimeout k) s = .next s) ∧
    (s.coreAt k opFENCE w = true → c.pc < 8191 → (∀ d ∈ s.descs, d.iss ≠ .core k) →
      ∃ t, exec (.coreFence k) s = .next t ∧ coreWent s t k (c.pc + 1)) ∧
    (s.coreAt k opFENCE w = true → c.pc < 8191 → (∃ d ∈ s.descs, d.iss = .core k) →
      ∃ t, exec (.coreFence k) s = .next t ∧ sameButCore s t k ∧ t.core k = { c with st := .wait, hold := .fence })

/-- R170 and R174: SIGNAL of a core adds s[RA] + IMM, modulo 2^32, to counter C of its own cluster and to no other counter; the
core's registers stay and it goes on. HALT halts the core where it stands. No byte of memory differs. -/
def Obligations.CoreSignalAndHalt : Prop :=
  ∀ (s : State) (k w : Nat),
    let c := s.core k
    let v := ((c.reg (iRa w) + BitVec.ofInt 64 (iImm w)).truncate 32 : Word32)
    (s.coreAt k opSIGNAL w = true → c.pc < 8191 →
      ∃ t, exec (.coreSignal k) s = .next t ∧ t = { s with clusters := t.clusters } ∧
        (∀ n j, t.counter n j = if n = k / 16 ∧ j = iC w then s.counter n j + v else s.counter n j) ∧
        t.core k = { c with pc := c.pc + 1 }) ∧
    (s.coreAt k opHALT w = true →
      ∃ t, exec (.halt k) s = .next t ∧ t.core k = { c with st := .halted } ∧ (∀ j, j ≠ k → t.core j = s.core j) ∧ sameBytes s t)

/-- R171 and Table 8.8: LOAD reads the cluster's store, the core's program memory, the array registers, TMR_TICK, the core's number and
status and the cluster's counters, which read as 32 bits with zeros above; RD takes the 8 bytes and the core goes on. Reads of GBL_ARR_UTIL
and GBL_CORE_STATUS clear what they read, as the host then sees the former; no other read changes anything but RD and the PC.
A STORE to the cluster's store writes the 8 bytes of s[RB] there and no other byte; one that loses its contest is repeated, and its repeat
writes them; a STORE to a counter sets the counter to the low 32 bits. -/
def Obligations.CoreLoadsAndStores : Prop :=
  ∀ (s : State) (k w : Nat),
    let c := s.core k
    let n := k / 16
    let a := (c.reg (iRa w) + BitVec.ofInt 64 (iImm w)).toNat
    let v := c.reg (iRb w)
    (s.coreAt k opLOAD w = true → c.pc < 8191 →
      let loads := fun x : Word => ∃ t, exec (.coreLoad k none) s = .next t ∧ coreWrote s t k (iRd w) x
      (a % 8 = 0 → a < 0x600000 → loads (BitVec.ofNat 64 (leNat (s.readBytes (storeBase n + a) 8)))) ∧
      (a % 8 = 0 → 0x1000000 ≤ a → a < 0x1010000 → loads (BitVec.ofNat 64 (c.word ((a - 0x1000000) / 8)))) ∧
      (a = 0x2000000 → loads (BitVec.ofNat 64 (s.arrStatus n))) ∧
      (a = 0x2000008 → ∃ t, exec (.coreLoad k none) s = .next t ∧ goneTo c (t.core k) (c.pc + 1) ∧
        wroteReg c (t.core k) (iRd w) (BitVec.ofNat 64 ((s.cluster n).productCycles + (s.cluster n).busyCycles * 2 ^ 32)) ∧
        (∀ j, j ≠ k → t.core j = s.core j) ∧ t = { s with clusters := t.clusters } ∧ (∀ m, m ≠ n → t.cluster m = s.cluster m) ∧
        t.cluster n = { s.cluster n with cores := (t.cluster n).cores, productCycles := 0, busyCycles := 0 } ∧ t.hostSee (.arrUtil n) = 0) ∧
      (a = 0x2000010 → loads (BitVec.ofNat 64 s.tick)) ∧
      (a = 0x2000018 → loads (BitVec.ofNat 64 k)) ∧
      (a = 0x2000020 → ∃ t, exec (.coreLoad k none) s = .next t ∧ sameButCore s t k ∧
        wroteReg c (t.core k) (iRd w) (BitVec.ofNat 64 c.status) ∧
        t.core k = { c with
          regs := (t.core k).regs, pc := c.pc + 1, st := .run, hold := .none, flags := 0, firstStatus := 0, firstTag := 0, notOk := 0 }) ∧
      (a % 8 = 0 → 0x2000100 ≤ a → a < 0x2000300 → loads (BitVec.ofNat 64 (s.counter n ((a - 0x2000100) / 8)).toNat))) ∧
    (s.coreAt k opSTORE w = true → c.pc < 8191 → a % 8 = 0 → a < 0x600000 →
      (∃ t, exec (.coreStore k false) s = .next t ∧ t.readBytes (storeBase n + a) 8 = leBytes 8 v.toNat ∧
        sameBytesBut s t (storeBase n + a) 8 ∧ coreWent { s with mem := t.mem } t k (c.pc + 1)) ∧
      (∃ t, exec (.coreStore k true) s = .next t ∧ sameBytes s t ∧ t.core k = { c with hold := .store })) ∧
    (coreOk k = true → s.domOn (k / 256) = true → c.hold = .store → c.word c.pc = w → a < 0x600000 →
      (∃ t, exec (.storeRetry k false) s = .next t ∧ t.readBytes (storeBase n + a) 8 = leBytes 8 v.toNat ∧
        sameBytesBut s t (storeBase n + a) 8 ∧ coreWent { s with mem := t.mem } t k (c.pc + 1)) ∧
      (∃ t, exec (.storeRetry k true) s = .next t ∧ sameBytes s t ∧ t.core k = { c with hold := .store })) ∧
    (s.coreAt k opSTORE w = true → c.pc < 8191 → a % 8 = 0 → 0x2000100 ≤ a → a < 0x2000300 →
      ∀ lost, ∃ t, exec (.coreStore k lost) s = .next t ∧ sameBytes s t ∧ t.core k = { c with pc := c.pc + 1 } ∧
        ∀ m j, t.counter m j = if m = n ∧ j = (a - 0x2000100) / 8 then v.truncate 32 else s.counter m j)

/-- R423: the I3C port keeps its own FLT_PLOG_SEL, distinct from the host's. A selection that it writes is what it reads back, and changes
nothing that the host reads of FLT_PLOG_SEL and FLT_PLOG_DATA; a selection that the host writes changes nothing that it reads. -/
def Obligations.PlogSelectionsStandApart : Prop :=
  ∀ (s : State) (b : Bytes) (w : Wr),
    (s.flannelOn = true → b.length = 8 → ∃ t, exec (.i3cWrite 0x220008 b) s = .next t ∧
      t.i3cSee 0x220008 = s.plogSelValue (field b 0 8 % 2 ^ 18) ∧
      t.hostSee .plogSel = s.hostSee .plogSel ∧ ∀ i, t.hostSee (.plogData i) = s.hostSee (.plogData i)) ∧
    (s.barTakes = true → ∃ t, exec (.registerWrite 0x220008 w) s = .next t ∧
      (3 ≤ s.startPhase → ∀ v, w.get? 0 18 = some v → t.hostSee .plogSel = s.plogSelValue v) ∧
      ∀ o, o = 0x220008 ∨ (∃ i, regAt o = .plogData i) → t.i3cSee o = s.i3cSee o)

/-- R172: what puts a core in FAULT, with its CAUSE: an unknown operation code or a field that must be 0; an address that is not
aligned, names nothing or places a descriptor partly beyond the store; a next PC beyond 8,191; a STORE to what Table 8.8 gives
as LOAD only. The registers and the PC stay, descriptors already issued run on, and no byte of memory differs. Which cause a core takes
where two apply is the model's order (notes/assumptions/33.md): at index 8,191 a bad field gives 1, an address that names nothing 2, a
STORE to what is LOAD only 3. -/
def Obligations.CoreFaults : Prop :=
  ∀ (s : State) (k w : Nat) (lost : Bool) (m : OfferMeets) (ce : Option Nat),
    let c := s.core k
    let x := c.reg (iRa w)
    let y := c.reg (iRb w)
    let i := BitVec.ofInt 64 (iImm w)
    let a := (x + i).toNat
    let nxt := fun taken : Bool => if taken then i.toNat else c.pc + 1
    let loadOnly := a % 8 = 0 ∧ (0x1000000 ≤ a ∧ a < 0x1010000 ∨ 0x2000000 ≤ a ∧ a ≤ 0x2000020)
    let named := loadOnly ∨ a % 8 = 0 ∧ (a < 0x600000 ∨ 0x2000100 ≤ a ∧ a < 0x2000300)
    let fits := a % 64 = 0 ∧ a + 64 ≤ 0x600000
    let faults := fun (i : Instr) (cause : Nat) =>
      ∃ t, exec i s = .next t ∧ t.core k = { c with st := .fault, cause := cause } ∧ (∀ j, j ≠ k → t.core j = s.core j) ∧
        t.descs = s.descs ∧ sameBytes s t
    (coreOk k = true → s.coreMay k = true → c.word c.pc = w → iUnused w = none → ∀ e ∈ coreRows k, faults e.2 1) ∧
    (coreOk k = true → s.coreMay k = true → c.word c.pc = w →
      ∀ e ∈ coreRows k, iOp w = e.1 → iUnused w ≠ some 0 ∨ iReserved w ≠ 0 → faults e.2 1) ∧
    (s.coreAt k opLOAD w = true → ¬named → faults (.coreLoad k ce) 2) ∧
    (s.coreAt k opSTORE w = true → ¬named → faults (.coreStore k lost) 2) ∧
    (s.coreAt k opISSUE w = true → ¬fits → faults (.issue k m) 2) ∧
    (c.pc = 8191 → ∀ e ∈ coreRows k, s.coreAt k e.1 w = true → e.1 ∈ opsGoingOn → faults e.2 3) ∧
    (c.pc = 8191 → named → (s.coreAt k opLOAD w = true → faults (.coreLoad k ce) 3) ∧ (s.coreAt k opSTORE w = true → faults (.coreStore k lost) 3)) ∧
    (c.pc = 8191 → fits → s.coreAt k opISSUE w = true → faults (.issue k m) 3) ∧
    (∀ e ∈ [(opBEQ, x == y, Instr.beq k), (opBNE, x != y, .bne k), (opBLT, decide (x.toInt < y.toInt), .blt k),
        (opBGE, decide (y.toInt ≤ x.toInt), .bge k), (opBLTU, decide (x.toNat < y.toNat), .bltu k),
        (opBGEU, decide (y.toNat ≤ x.toNat), .bgeu k), (opLOOP, x - 1 != 0, .loop k)],
      s.coreAt k e.1 w = true → 8191 < nxt e.2.1 → faults e.2.2 3) ∧
    (s.coreAt k opJUMP w = true → 8191 < a → faults (.jump k) 3) ∧
    (s.coreAt k opSTORE w = true → c.pc < 8191 → loadOnly → faults (.coreStore k lost) 4)

/-- R170, R22 and R23: ISSUE offers the 64 bytes at store offset s[RA] + IMM under counter C, or under none with NC; the core goes on once
they are accepted or have failed a check, and stalls, still in RUN, while there is no room, or while stalled requesters before it in the
round take the entries that are free (notes/assumptions/34.md). Correctable errors among the 64 bytes are logged, others wait for the
descriptor (the model's choice, notes/assumptions/46.md). -/
def Obligations.CoreIssues : Prop :=
  ∀ (s : State) (k w : Nat) (m : OfferMeets),
    let c := s.core k
    let a := (c.reg (iRa w) + BitVec.ofInt 64 (iImm w)).toNat
    let x := storeBase (k / 16) + a
    let v := s.corrections m.ces x 64
    let rest := m.ces.filter fun e => !(decide (x ≤ e.1) && decide (e.1 < x + 64))
    let o : Offer := { iss := .core k, ctr := if iNc w then none else some (iC w), bytes := s.readBytes x 64, lost := m.lost, ces := rest }
    s.coreAt k opISSUE w = true → c.pc < 8191 → a % 64 = 0 → a + 64 ≤ 0x600000 →
    (∀ u, v.offer o = some u → exec (.issue k m) s = .next (u.setCore k ((u.core k).goto (c.pc + 1)))) ∧
    (v.offer o = none → exec (.issue k m) s = .next (v.setCore k { c with hold := .issue { m with ces := rest } })) ∧
    (m.ces = [] → v = s ∧ (s.offer o = none →
      ∃ t, exec (.issue k m) s = .next t ∧ sameButCore s t k ∧ t.core k = { c with hold := .issue m })) ∧
    (v.issuerCheck o.iss o.bytes = stOK → v.fenced o.iss = true ∨ v.hasRoomAt (v.placeOf o.iss o.bytes) = false ∨ v.entriesTaken o = true →
      v.offer o = none)

/-! ### Descriptors (08) -/

/-- R161 and R22: a descriptor that has passed every check made at its issuer, and finds room, is accepted: its copy of the 64 bytes,
with the NUMERICS values, the epoch and the tick of that instant, joins those accepted before it, and whatever may then run does.
Without room, or behind an open FENCE of its issuer, it waits at its issuer and nothing changes; so it does, by the model's choice, when the
free entries are due to requesters before it in the round (notes/assumptions/34.md). -/
def Obligations.DescriptorsAreAccepted : Prop :=
  ∀ (s : State) (o : Offer) (f : Nat),
    (s.takes o = true →
      let t := s.accept o (s.headOf o.iss)
      (∀ e ∈ offerRows s o f, e.1 = true → exec e.2 s = .next t.advance) ∧
      ∃ d : Desc, t.descs = s.descs ++ [d] ∧ d.id = s.nextId ∧ d.iss = o.iss ∧ d.ctr = o.ctr ∧ d.bytes = resolveTarget o.iss o.bytes ∧
        d.place = s.placeOf o.iss o.bytes ∧ d.num = s.numerics ∧ d.epoch = s.epochNow ∧ d.accepted = s.tick ∧ d.work = .queued) ∧
    (s.offers o = true → s.issuerCheck o.iss o.bytes = stOK → s.fenced o.iss = true ∨ s.hasRoomAt (s.placeOf o.iss o.bytes) = false ∨ s.entriesTaken o = true →
      ∀ e ∈ offerRows s o f, exec e.2 s = .next s ∨ e.1 = false)

/-- R162: a descriptor that fails a check made at its issuer completes at once, without acceptance: its core's counter rises by 1 and
the first status that is not OK stays in GBL_CORE_STATUS, or its queue's ring takes one record in two posted writes. No descriptor
is accepted, nothing is sent and no byte of device memory differs. -/
def Obligations.DescriptorsFailingACheck : Prop :=
  ∀ (s : State) (o : Offer) (f : Nat),
    let st := s.issuerCheck o.iss o.bytes
    s.offers o = true → st ≠ stOK → ∀ e ∈ offerRows s o f, e.1 = true →
      ∃ t, exec e.2 s = .next t ∧ t.descs = s.descs ∧ t.txns = s.txns ∧ t.egress = s.egress ∧ sameBytes s t ∧
        match o.iss with
        | .core k => (t.core k).firstStatus = (if (s.core k).firstStatus = 0 then st else (s.core k).firstStatus) ∧
            ∀ n c, t.counter n c = if n = k / 16 ∧ o.ctr = some c then s.counter n c + 1 else s.counter n c
        | .host q => s.hif.d3hot = false → ∃ r : Record, r.status = st ∧ r.sq = q ∧ r.tag = dTag o.bytes ∧ r.timestamp = s.tick ∧
            let c := s.cqs.get {} (s.sqs.get {} q).cq
            t.hif.posted = s.hif.posted ++ [⟨c.base + c.tail * 32 + 4, (r.encode c.phase).drop 4⟩, ⟨c.base + c.tail * 32, (r.encode c.phase).take 4⟩]

/-- R164: a COPY whose rows all lie on this module, with nothing else under way and no word contested, moves them as it is offered, that the
data mover runs it in one step being the model's choice (notes/assumptions/13.md): row r of DST holds what row r of SRC held, no other byte of memory differs, and the descriptor is owed its completion with status OK. -/
def Obligations.CopyMovesItsRows : Prop :=
  ∀ (s : State) (o : Offer),
    let b := o.bytes
    let row := fun a stride r => gaLocal a + r * stride
    s.takes o = true → s.idleFor1 o = true → o.lost = [] → dType b = tyCOPY → s.isSelf (gaNode (Cp.src b)) = true →
    s.isSelf (gaNode (Cp.dst b)) = true → (∀ r, r < Cp.rows b → s.populated (row (Cp.src b) (Cp.srcStride b) r) (Cp.bytes b) = true) →
    ∃ t, exec (.copy o) s = .next t ∧
      (∀ r, r < Cp.rows b → t.readBytes (row (Cp.dst b) (Cp.dstStride b) r) (Cp.bytes b) = s.readBytes (row (Cp.src b) (Cp.srcStride b) r) (Cp.bytes b)) ∧
      (∀ x, (∀ r, r < Cp.rows b → x < row (Cp.dst b) (Cp.dstStride b) r ∨ row (Cp.dst b) (Cp.dstStride b) r + Cp.bytes b ≤ x) → t.read8 x = s.read8 x) ∧
      ∃ d : Desc, t.descs = [d] ∧ d.work = .done stOK 0 0

/-- R166: a SIGNAL to a cluster of this module, with nothing else under way, adds VALUE modulo 2^32 to the counter and to no other,
and is then owed its completion; no byte of memory differs. A FENCE with nothing before it is owed its completion at once (R165). -/
def Obligations.SignalAddsAndFenceEnds : Prop :=
  ∀ (s : State) (o : Offer),
    let b := o.bytes
    s.takes o = true → s.idleFor1 o = true →
    (dType b = tySIGNAL → s.isSelf (Sg.node b) = true → ∃ t, exec (.signal o) s = .next t ∧ sameBytes s t ∧
      (∀ n c, t.counter n c = if n = dTarget b ∧ c = Sg.counter b then s.counter n c + BitVec.ofNat 32 (Sg.value b) else s.counter n c) ∧
      ∃ d : Desc, t.descs = [d] ∧ d.work = .done stOK 0 0) ∧
    (dType b = tyFENCE → ∃ t, exec (.fence o) s = .next t ∧ sameBytes s t ∧ (∀ n c, t.counter n c = s.counter n c) ∧
      ∃ d : Desc, t.descs = [d] ∧ d.work = .done stOK 0 0)

/-- R162, R174 and R183: the completion that a descriptor is owed, given once no word of it waits to be repeated: the descriptor
leaves its queue, and its core's counter rises by 1, or its ring takes one record in two posted writes, the record's first four
bytes last. A word left unwritten turns OK into BANK_CONFLICT (R241). A
ring that has been disabled meanwhile takes no record: that, and which ring is bound at the completion, are the model's reading
(notes/assumptions/30.md); that a core whose half is off or in retain takes its signal and status then is its choice
(notes/assumptions/121.md). -/
def Obligations.DescriptorsComplete : Prop :=
  ∀ (s : State) (d : Desc) (st fl : Nat) (r : Word),
    let code := if st = stOK ∧ d.dropped then stBANK_CONFLICT else st
    d.work = .done st fl r → d.retry = [] →
    (s.desc? d.id = some d → exec (.descriptorCompletion d.id) s = .next (s.finish d st fl r)) ∧
    (s.descs = [d] → ∃ t, exec (.descriptorCompletion d.id) s = .next t ∧ t.descs = [] ∧ sameBytes s t ∧
      ((∀ x ∈ s.txns, x.queued = true → s.partnerLost x.dst = false) → t.txns = s.txns) ∧
      match d.iss with
      | .core k => (t.core k).firstStatus = (if (s.core k).firstStatus = 0 then code else (s.core k).firstStatus) ∧
          ∀ n c, t.counter n c = if n = k / 16 ∧ d.ctr = some c then s.counter n c + 1 else s.counter n c
      | .host q => s.hif.d3hot = false → ∃ x : Record, x.status = code ∧ x.flags = fl ∧ x.result = r ∧ x.sq = q ∧ x.woke = d.woke ∧
          x.tag = dTag d.bytes ∧ x.timestamp = s.tick ∧
          let c := s.cqs.get {} (s.sqs.get {} q).cq
          t.hif.posted = if c.enable then
            s.hif.posted ++ [⟨c.base + c.tail * 32 + 4, (x.encode c.phase).drop 4⟩, ⟨c.base + c.tail * 32, (x.encode c.phase).take 4⟩]
            else s.hif.posted)

/-! ### Arrays and vector slices (05, 06, 07) -/

/-- R136 and R140: the descriptor at the head of a slice's queue runs in the cycle given, once what it needs serves; that the stash memory
that it reaches must serve before the start is the model's reading (notes/assumptions/48.md).
R113, R116, R119 and R112: a MATMUL that may start starts, one that a SOLVE offloads with it. An interval that ends with no writeback under
way adds its contribution to the target, unless it is the last, whose partials move into the spill buffer as A and B then stand
(notes/assumptions/112.md) and enter when the writeback ends; it writes no byte of memory outside C and the scratch cells. The writeback's
end owes the MATMUL its completion. That a descriptor's correctable errors are logged as it starts is the model's choice
(notes/assumptions/46.md). -/
def Obligations.ArraysAndSlicesRun : Prop :=
  (∀ (s : State) (n cycle : Nat) (delays : List Nat) (d : Desc),
      clusterOk n = true → s.descs.find? (fun d => d.place == .slice n && d.work == .queued) = some d →
      (s.mayStart d = true →
        (∀ x ∈ s.stashDomains d n (Walk.ofBytes (s.readStore n (Ve.walk d.bytes) 64)), s.domOn x = true) ∧
        exec (.vectorDescriptorStart n cycle delays) s = .next ((s.meetErrors d).underMap d.map fun u => u.runVector d n cycle delays)) ∧
      (s.mayStart d = false → s.orderOk d = false ∨ s.behind d = true → exec (.vectorDescriptorStart n cycle delays) s = .next s) ∧
      (s.mayStart d = false → s.orderOk d = true → s.behind d = false → exec (.vectorDescriptorStart n cycle delays) s =
        .next ((s.updDesc d.id fun x => { x with woke := x.woke || (s.asleep (s.needs d)).any (· < 58) }).wakeAll (s.asleep (s.needs d))))) ∧
  ∀ (s : State) (n busy : Nat) (d : Desc), clusterOk n = true →
    (s.startable n = some (.inl d) → exec (.matmulStart n) s = .next ((s.meetErrors d).setWork d.id (.mat 0 0 false [])).sendAllTiles) ∧
    (∀ o, s.startable n = some (.inr o) → exec (.matmulStart n) s =
      .next (s.updOffload n Offload.queued fun o => { o with left := some o.intervals }).sendAllTiles) ∧
    (∀ k fl dm ps, s.firstOf n Desc.inProducts Offload.inProducts = some (.inl d) → d.work = .mat k fl dm ps → s.writingBack n = false →
      let c := mmCfg d.bytes d.num
      let r := mmContribution d.bytes c n k s
      let p := mmProducts d.bytes c n k s
      (k + 1 = mmContributions d.bytes c →
        exec (.matmulIntervalEnd n busy) s = .next ((s.countArray n (mmProductCycles d.bytes c k) busy).setWork d.id (.mat (k + 1) (fl ||| p.2) dm p.1))) ∧
      (k + 1 < mmContributions d.bytes c → matmulCheck d.bytes d.num = stOK → ∃ t, exec (.matmulIntervalEnd n busy) s = .next t ∧
        t = (r.1.countArray n (mmProductCycles d.bytes c k) busy).setWork d.id (.mat (k + 1) (fl ||| r.2.1) (dm || r.2.2) []) ∧
        ∀ x, (∀ g ∈ mmC d.bytes ++ mmS d.bytes c, x < storeBase n + g.1 ∨ storeBase n + g.1 + g.2 ≤ x) → t.read8 x = s.read8 x)) ∧
    (s.firstOf n Desc.inWriteback Offload.inWriteback = some (.inl d) →
      exec (.matmulWritebackEnd n busy) s = .next (s.writebackEnd n d busy).sendAllTiles.advance) ∧
    ∀ o, s.firstOf n Desc.inWriteback Offload.inWriteback = some (.inr o) →
      exec (.matmulWritebackEnd n busy) s = .next ((s.offWritebackEnd n o busy).touch [n / 16]).sendAllTiles.advance.settleForces

/-! ### Data movers and collectives (06, 08, 14, 15) -/

/-- R241: a contested word of a data mover is written by the repeat that wins, and nothing else in memory changes; a repeat that loses
is counted, and the sixteenth loss leaves the word unwritten for good; a descriptor whose last word is done goes on.
R282, R329, R351: segment 0 of a delta packet goes again when its 25 ticks have passed; requests of a GATHER answered NOT_READY are
repeated likewise, and a GATHER whose deadline has passed is owed TIMEOUT; a PERMUTE whose bucket has not drained by its limit is
owed ABORTED.
R353: once its conditions hold a module begins the switch and votes, against it when one of its PERMUTEs has failed or the limit has passed;
it votes against when they have not all held by the limit.
R9 and R289: a limit has run out once its tick, or that of the forward step that passed it, has passed, and not before that tick. Within its tick it runs out after that tick's other events
(the model's choice, notes/assumptions/63.md). -/
def Obligations.MoversWaitAndVote : Prop :=
  (∀ (s : State) (n : Nat),
      let m := if s.stepped.1 ≤ n ∧ n < s.stepped.2 then s.stepped.2 else n
      (m < s.tick → s.runOut n = true ∧ s.overdue n = true) ∧ (s.tick < m → s.runOut n = false) ∧ (s.tick ≤ m → s.overdue n = false) ∧
      (m = s.tick → s.pending = [] → s.runOut n = true)) ∧
  (∀ (s : State) (n a k : Nat) (b : Bytes) (rest : List (Nat × Bytes × Nat)) (d : Desc),
      clusterOk n = true → s.losing n = some d → d.retry = (a, b, k) :: rest →
      let goesOn := fun (i : Instr) (u : State) => exec i s = .next (u.wordsDone d.id) ∧
        (∀ st fl r, s.desc? d.id = some d → d.work = .done st fl r → u.wordsDone d.id = u)
      (∃ u : State, goesOn (.dataMoverRetry n false) u ∧ u.readBytes a b.length = b ∧ sameBytesBut s u a b.length ∧
        u.descs = s.descs.map fun x => if x.id = d.id then { x with retry := rest } else x) ∧
      (∃ u : State, goesOn (.dataMoverRetry n true) u ∧ sameBytes s u ∧
        u.descs = s.descs.map fun x => if x.id = d.id then
          (if 15 ≤ k then { x with retry := rest, dropped := true } else { x with retry := (a, b, k + 1) :: rest }) else x)) ∧
  (∀ (s : State) (d : Desc), s.desc? d.id = some d →
      (∀ p a u fl, d.work = .emit p a (some u) fl → u ≤ s.tick →
        exec (.deltaSegmentRetry d.id) s = .next ((s.sendSegment d p 0).setWork d.id (.emit p a none fl)).failNew) ∧
      (∀ st l, d.work = .gather st l → exec (.gatherRetry d.id) s = .next (s.gatherAgain d st l).failNew) ∧
      (d.gathering = true → 0 < Ga.deadline d.bytes → s.overdue (Ga.deadline d.bytes) = true →
        exec (.gatherDeadline d.id) s = .next ((s.forgetTxns d.id).setWork d.id (.done stTIMEOUT 0 0))) ∧
      (dType d.bytes = tyPERMUTE → pmFinal d.bytes = false → d.work = .queued → s.runOut d.limit = true → Pm.bucket d.bytes ≠ 0xFFFFFFFF →
        d.inTime = false → (s.bkt (Pm.bucket d.bytes)).drained = false ∨ s.overdue d.limit = true →
        exec (.permuteDrainTimeout d.id) s = .next (s.setWork d.id (.done stABORTED 0 0)))) ∧
  ∀ (s : State) (d : Desc) (st : Nat), s.shard.begun = false →
    (s.waitingFinal = some (d, st) → s.switchReady d = true →
      exec .permuteFinal s = .next ((s.beginSwitch (if s.shard.permFailed = true ∨ st ≠ stOK ∨ s.overdue d.limit = true then 1 else 0)).holdLost.advance)) ∧
    (s.finalDesc = some d → s.runOut d.limit = true → d.work = .queued →
      exec .finalDrainTimeout s = .next (((s.setWork d.id (.final stABORTED)).beginSwitch 1).holdLost.advance)) ∧
    (s.finalDesc = some d → s.runOut d.limit = true → d.work = .final st → s.switchReady d = false ∨ s.overdue d.limit = true →
      exec .finalDrainTimeout s = .next ((s.beginSwitch 1).holdLost.advance))

/-- R314 and R318: a module forms its own gate record once every bucket it owns is ready and the memory of their buffers serves, which is woken
for it; the next bucket of a decided step is released to that step's list once its conditions hold, and a cluster that sleeps is woken for
it.
R335 and R300: CANCEL owes an open GATE ABORTED; CLEAR_BUCKETS clears every bucket here, unless a GATE is accepted; UNHOLD overwrites
the mirrors of buckets whose resolution has failed. A write of OPEN_STEP takes effect while the step is free, else it is refused. -/
def Obligations.GatesFormAndObey : Prop :=
  (∀ (s : State) (d : Desc) (b : Nat) (ces : List (Nat × Nat)),
      (s.openGate = some d → s.grad.gate.own = none → s.gateReady (Gt.step d.bytes) = true →
        (s.asleep s.buffersDomains ≠ [] → exec (.gateRecordForm ces) s = .next (s.wakeAll (s.asleep s.buffersDomains))) ∧
        (s.asleep s.buffersDomains = [] → exec (.gateRecordForm ces) s =
          .next ((({ s.recordErrors ces with grad := { s.grad with gate := { s.grad.gate with own := some (s.gateRecord (Gt.step d.bytes)) } } }.tryCombine).forwardErrors
            s ces).advance))) ∧
      ∀ l : ReadyList, s.nextRelease = some (l, b) → s.releasable b = true ∧ l ∈ s.grad.lists ∧ (s.bkt b).step = l.step ∧
        (s.domOn (l.n / 16) = true → exec (.bucketRelease ces) s = .next (s.release l b ces).advance) ∧
        (s.domOn (l.n / 16) = false → exec (.bucketRelease ces) s = .next (s.wake (l.n / 16)))) ∧
  ∀ (s : State) (w : Wr) (ces : List (Nat × Nat)), s.barTakes = true →
    (∀ d, w.sets 0 = true → w.sets 1 = false → w.sets 2 = false → s.gateDesc = some d → d.work = .queued ∨ d.work = .gate →
      exec (.cancel w) s = .next (s.setWork d.id (.done stABORTED (if d.work = .gate then s.flagsSoFar d else 0) 0)).advance) ∧
    (w.sets 0 = false → w.sets 1 = true → w.sets 2 = false → s.gateDesc = none →
      exec (.clearBuckets w) s = .next (s.bucketsHere.foldl State.clearBucket s).advance) ∧
    (w.sets 0 = false → w.sets 1 = true → w.sets 2 = false → s.gateDesc ≠ none → exec (.clearBuckets w) s = .next s.advance) ∧
    (w.sets 0 = false → w.sets 1 = false → w.sets 2 = true → exec (.unhold w ces) s = .next (s.unholdBuckets ces).advance) ∧
    (∀ v, w.get? 0 64 = some v →
      (s.stepFree = true → exec (.gblStepWrite w) s = .next { s with grad := { s.grad with openStep := v } }) ∧
      (s.stepFree = false → exec (.gblStepWrite w) s = .next { s with grad := { s.grad with stepRefused := true } }))

/-! ### Serge engines (10) -/

/-- R211 to R218, R226, R227, R229: the phases of a SOLVE on a present engine; a phase ends once the products that it offloads have ended,
and the next begins. A SOLVE that would read a retired page of its factor is owed RETIRED_PAGE (R265, R266), one that has not left its queue
by its deadline DEADLINE, each with the RESULT of a SOLVE that has measured no residual. Each phase ORs its flags into the SOLVE's (R231), and
notes its own underruns alone (R235); which flags of a phase that the deadline cuts short had been raised is free (notes/assumptions/115.md).
The correctable errors that a phase meets are logged (R360); which command names them is the model's choice (notes/assumptions/46.md). That a
SOLVE queued on an engine that is absent, one with ENGINE 0xFF among them, is owed UNSUPPORTED is its reading (notes/assumptions/52.md). -/
def Obligations.SolvesRun : Prop :=
  ∀ (s : State) (e : Nat) (ces : List (Nat × Nat)), engineOk e = true →
    let logged := fun id : Nat => s.engineErrors e (s.desc? id) ces
    (∀ d r, s.enginePresent e = true → (s.eng e).run = none → s.headSolve e = some d → s.factorBusy d = false → s.orderOk d = true →
      s.swapDue e = false → s.overdue d.limit = false → s.asleep (s.needs d) = [] → s.factorRec (So.factor d.bytes) = some r →
      (s.readRetired e (So.factor d.bytes) r.dim (soWarm d.bytes) = false → exec (.solveStart e) s =
        .next (((((s.meetErrors d).engineErrors e none d.ces).startSolve e d r).beginUnit e).retryLocal).advance) ∧
      (s.readRetired e (So.factor d.bytes) r.dim (soWarm d.bytes) = true →
        exec (.solveStart e) s = .next ((s.setWork d.id (.done stRETIRED_PAGE 0 (emptyResult d.bytes))).retryLocal).advance)) ∧
    (∀ d, s.enginePresent e = false → s.engineQueue e = [d] →
      exec (.solveStart e) s = .next (s.setWork d.id (.done stUNSUPPORTED 0 (emptyResult d.bytes)))) ∧
    (∀ b, dType b = tySOLVE → (emptyResult b).toNat = 0x7F800000) ∧
    (∀ v, (s.eng e).run = some v → s.overdue v.deadline = false → (s.eng e).products = [] →
      let v0 := { v with flags := 0 }
      let done := fun u : Solve =>
        ((((logged v.id).setEng e { s.eng e with run := some { u with flags := v.flags ||| u.flags } }).noteUnderrun e u.flags).beginUnit e)
      (v.phase = .start → exec (.startResidualEnd e ces) s = .next (done (startMeasured v0))) ∧
      (v.phase = .compute → v.method = 1 → exec (.solveIterationEnd e ces) s = .next (done (newtonStep v0 (s.offOf v)))) ∧
      (v.phase = .compute → v.method = 0 → exec (.solveFactorisationEnd e ces) s = .next (done (eigenSolve v0))) ∧
      (v.phase = .compute → 2 ≤ v.method → exec (.solveFactorisationEnd e ces) s = .next (done (cholSolve v0)))) ∧
    (∀ v d, s.desc? v.id = some d → d.place = .engine e → d.work = .solve → (s.eng e).run = some v → v.phase = .start ∨ v.phase = .compute →
      s.overdue v.deadline = true → ∃ t fl, exec (.solveDeadline v.id ces) s = .next t ∧ fl &&& (unitOf { v with flags := 0 } (s.offOf v)).flags = fl ∧ sameBytes s t ∧
        (t.eng e).run = some { v with phase := .choose, late := true, flags := v.flags ||| fl } ∧ (t.eng e).products = [] ∧ t.descs = s.descs) ∧
    (∀ d, s.desc? d.id = some d → dType d.bytes = tySOLVE → d.place = .engine e → d.work = .queued → s.overdue d.limit = true →
      exec (.solveDeadline d.id ces) s = .next (s.setWork d.id (.done stDEADLINE 0 (emptyResult d.bytes)))) ∧
    (∀ v, (s.eng e).run = some v → v.phase = .choose ∨ v.phase = .writeback → s.asleep s.sergeDomains = [] →
      exec (.solvePublish e ces) s = .next ((logged v.id).publishSolve e v))

/-- R206 to R208, R233, R234 and R282: the oldest packet of a factor's ring is folded while an engine serves the factor and the tier behind
it serves; what bars a fold beyond that is the model's reading (notes/assumptions/39.md). The correctable errors that its accesses meet are
logged (R360), and its domains' idle timers start again (notes/assumptions/93.md). A marked engine that runs nothing is swapped: onto the spare, whose domain then wakes, or it is absent; that its queued
SOLVEs then end is the model's reading (notes/assumptions/52.md).
A reservation whose packet is not whole after 250,000 ticks is released. -/
def Obligations.FoldsAndSwaps : Prop :=
  ∀ (s : State) (e f : Nat) (ces : List (Nat × Nat)),
    (∀ r p rest, factorOk f = true → s.factorRec f = some r → (s.factor f).ring = p :: rest → s.foldEngine f r ≠ none → s.foldBarred f p = false →
      (s.asleep s.sergeDomains = [] → exec (.deltaPacketFold f ces) s =
        .next (((((s.touch s.sergeDomains).corrections ces (s.factorBase f) (factorSize r.dim)).foldNext f).1.retryLocal).advance)) ∧
      (s.asleep s.sergeDomains ≠ [] → exec (.deltaPacketFold f ces) s = .next (s.wakeAll (s.asleep s.sergeDomains)))) ∧
    (engineOk e = true → s.swapDue e = true → s.domOn (40 + e) = true → (s.eng e).run = none →
      ((s.replaceEngine e).enginePresent e = true → exec (.sergeSwap e) s = .next (s.replaceEngine e)) ∧
      ((s.replaceEngine e).enginePresent e = false → exec (.sergeSwap e) s = .next ((s.replaceEngine e).dropSolves e))) ∧
    (∀ txn r, factorOk f = true → (s.factor f).reserved = [r] → r.txn = txn → s.runOut (r.since + 250000) = true →
      exec (.deltaReservationTimeout f txn) s = .next (s.setFactor f { s.factor f with reserved := [] }).retryLocal.advance)

/-! ### Host queues (08) -/

/-- Tables 8.14, 8.15 and R181: a write of an HQ_SQ_CFG field has its effect only while the queue is disabled. ENABLE starts the queue
empty while its ring is enabled; ENABLE 0 stops it; a doorbell sets TAIL, and a TAIL outside the queue only sets its error; a write
of 1 clears FETCH_ERR. No other queue differs.
R185: ABORT stops fetching. A queue that holds no entry and owes nothing is disabled at once; the entry that one holds, and a descriptor of it
that has not started, complete with ABORTED, in a record of an enabled ring, and the queue is then disabled; while one that runs is owed its
completion the queue stays as it is but for its abort. No other queue differs. -/
def Obligations.SubmissionQueues : Prop :=
  (∀ (s : State) (q : Nat) (w : Wr), s.barTakes = true → queueOk q = true →
      let x := s.sq q
      let y : Sq := { x with loc := w.upd 1 1 (b2n x.loc) == 1, sizeLog2 := sizeField (w.upd 4 5 x.sizeLog2), cq := w.upd 16 6 x.cq }
      (w.sets 0 = true → w.sets 22 = false → x.enable = false → (s.cq y.cq).enable = true → ∃ t, exec (.sqEnable q w) s = .next t ∧
        t.sq q = { y with enable := true, head := 0, tail := 0, acted := 0 } ∧ (∀ p, p ≠ q → t.sq p = s.sq p) ∧
        t = { s with sqs := t.sqs, hif := { s.hif with waiting := t.hif.waiting } }) ∧
      (w.sets 0 = true → w.sets 22 = false → x.enable = false → (s.cq y.cq).enable = false → exec (.sqEnable q w) s = .next (s.setSq q y)) ∧
      (w.sets 0 = true → w.sets 22 = false → x.enable = true → exec (.sqEnable q w) s = .next s) ∧
      (w.get? 0 1 = some 0 → w.sets 22 = false → x.enable = true → exec (.sqDisable q w) s = .next (s.setSq q { x with enable := false })) ∧
      (∀ v, w.get? 0 16 = some v → w.sets 32 = false → w.sets 33 = false →
        (v < 2 ^ x.sizeLog2 → s.hif.waiting.any (fun e => e.req.holdsDoorbell) = false →
          ∃ t, exec (.sqDoorbell q w) s = .next t ∧ t.sq q = { x with tail := v, acted := v } ∧ (∀ p, p ≠ q → t.sq p = s.sq p) ∧ t = { s with sqs := t.sqs }) ∧
        (2 ^ x.sizeLog2 ≤ v → exec (.sqDoorbell q w) s = .next (s.setSq q { x with tailErr := true }))) ∧
      exec (.fetchErrClear q) s = .next (s.setSq q { x with fetchErr := false })) ∧
  ∀ (s : State) (q : Nat) (w : Wr), s.barTakes = true → queueOk q = true → w.sets 22 = true → w.get? 0 1 ≠ some 0 → (s.sq q).enable = true →
    let x := s.sq q
    let c := s.cqs.get {} x.cq
    let ended := fun t : State => t.sq q = { x with enable := false, aborting := false, held := none } ∧ ∀ p, p ≠ q → t.sq p = s.sq p
    let wrote := fun (t : State) (b : Bytes) (head : Nat) => ∃ r : Record, r.status = stABORTED ∧ r.sq = q ∧ r.tag = dTag b ∧ r.sqHead = head ∧
      r.timestamp = s.tick ∧ t.hif.posted = if c.enable then
        s.hif.posted ++ [⟨c.base + c.tail * 32 + 4, (r.encode c.phase).drop 4⟩, ⟨c.base + c.tail * 32, (r.encode c.phase).take 4⟩] else s.hif.posted
    (x.held = none → (∀ d ∈ s.descs, d.iss ≠ .host q) → ∃ t, exec (.sqAbort q w) s = .next t ∧ ended t ∧ t = { s with sqs := t.sqs }) ∧
    (∀ b h m, x.held = some (b, h, m) → (∀ d ∈ s.descs, d.iss ≠ .host q) → ∃ t, exec (.sqAbort q w) s = .next t ∧ ended t ∧ wrote t b h ∧
      t = { s with sqs := t.sqs, cqs := t.cqs, hif := { s.hif with posted := t.hif.posted } }) ∧
    (∀ d, x.held = none → s.descs = [d] → d.iss = .host q → d.work = .queued → ∃ t, exec (.sqAbort q w) s = .next t ∧ ended t ∧
      wrote t d.bytes d.sqHead ∧ t.descs = [] ∧ sameBytes s t) ∧
    (∀ d, x.held = none → s.descs = [d] → d.iss = .host q → d.work ≠ .queued →
      exec (.sqAbort q w) s = .next (s.setSq q { x with aborting := true }))

/-- R181, R184 and R186: ENABLE starts a ring empty with phase 1; ENABLE 0 ends it when no enabled queue is bound to it and it owes nothing,
else only DIS_REFUSED is set; HEAD takes a value inside the ring, and another only sets its error. No other ring differs. -/
def Obligations.CompletionRings : Prop :=
  ∀ (s : State) (q : Nat) (w : Wr), s.barTakes = true → queueOk q = true →
    let x := s.cq q
    (w.sets 0 = true → w.sets 1 = false → x.enable = false → exec (.cqEnable q w) s = .next (s.setCq q
      { x with sizeLog2 := sizeField (w.upd 4 5 x.sizeLog2), enable := true, head := 0, tail := 0, phase := true })) ∧
    (w.get? 0 1 = some 0 → w.sets 1 = false → x.enable = true →
      (s.cqIdle q = true → exec (.cqDisable q w) s = .next (s.setCq q { x with enable := false })) ∧
      (s.cqIdle q = false → exec (.cqDisable q w) s = .next (s.setCq q { x with disRefused := true }))) ∧
    (∀ v, w.get? 0 16 = some v → w.sets 33 = false →
      (v < 2 ^ x.sizeLog2 → exec (.cqHeadWrite q w) s = .next (s.setCq q { x with head := v })) ∧
      (2 ^ x.sizeLog2 ≤ v → exec (.cqHeadWrite q w) s = .next (s.setCq q { x with headErr := true })))

/-- R22, R23 and R182: an entry of a cluster's tracker goes, by the model's choice, to the first requester in the order of R23, the host after
the 16 cores, that can use it (notes/assumptions/34.md): a stalled core repeats its ISSUE, or a held host entry is offered again.
R181, R182 and R187: the next queue in the order of service that holds an entry is served. An entry that is fetched moves HEAD on by
one, modulo the queue's size, and is offered; one that finds no room is held at its queue. A fetch that fails leaves HEAD, stops
the queue with FETCH_ERR, and sets FETCH in GBL_ATTN. A fetch from device memory logs the correctable errors that it meets (R360). -/
def Obligations.EntriesAreFetched : Prop :=
  (∀ (s u : State) (n r : Nat) (before after : List Nat), clusterOk n = true → s.grantOrder n = before ++ r :: after →
      (∀ i ∈ before, s.tryGrant n i = none) → s.tryGrant n r = some u →
      exec (.trackerEntryGrant n) s = .next u ∧
      (r < 16 → ∃ m, (s.core (16 * n + r)).hold = .issue m ∧ u = s.issueFrom (16 * n + r) m) ∧
      (16 ≤ r → ∃ q, s.heldFor n q = true ∧ s.offerHeld q = some u)) ∧
  ∀ (s : State) (q : Nat) (b : Bytes) (m : OfferMeets), s.barTakes = true → 3 ≤ s.startPhase → s.nextQueue = some q →
    let x := s.sq q
    let h := (x.head + 1) % 2 ^ x.sizeLog2
    let a := x.base + x.head * 64
    let got := fun (i : Instr) (v0 : State) (b : Bytes) =>
      let u := v0.setSq q { x with head := h }
      let o : Offer := { iss := .host q, bytes := b, lost := m.lost, ces := m.ces }
      (∀ v, u.offer o h = some v → exec i s = .next v) ∧
      (u.offer o h = none → exec i s = .next (u.setSq q { x with head := h, held := some (b, h, m) }))
    let v := { s with lastServed := some q }
    (x.loc = false → b.length = 64 → got (.sqEntryFetch (.entry b) m) v b) ∧
    (x.loc = false → ∀ e, 8 ≤ e → e ≤ 11 → ∃ t, exec (.sqEntryFetch (.failed e) m) s = .next t ∧ t.sq q = { x with fetchErr := true } ∧
      t.hif.attn.testBit atFETCH = true ∧ t.hif.aer = s.hif.aer ++ [e] ∧ t.hif.messages = (s.hif.aerNote e).messages ∧ t.descs = s.descs) ∧
    (x.loc = true → b.length = 64 → s.populated a 64 = true → s.touchesRetired a 64 = false → s.asleep (s.rangeDomains a 64) = [] →
      got (.sqEntryFetch (.entry b) m) ((v.touch (s.rangeDomains a 64)).corrections m.ces a 64) (s.readBytes a 64)) ∧
    (x.loc = true → b.length = 64 → s.populated a 64 = false ∨ s.touchesRetired a 64 = true → ∃ t, exec (.sqEntryFetch (.entry b) m) s = .next t ∧
      t.sq q = { x with fetchErr := true } ∧ t.hif.attn.testBit atFETCH = true ∧ t.hif.aer = s.hif.aer ∧ t.hif.messages = s.hif.messages ∧
        t.descs = s.descs)

/-! ### Operations of the MP (03, 08, 12, 18) -/

/-- R69 and R381: what ERASE and SET_BOOT do to flash, and their RESULT. One that sag interrupts ends with POWER_INHIBIT; that it leaves the
boot setting, and an ERASE its slot empty, is the model's reading (notes/assumptions/65.md).
Table 3.13 and R66 to R70: GO with an OP runs it: LOAD from memory or a slot, STORE, ERASE or SET_BOOT, on the slot and source that the
write and the registers give; while an operation runs it is refused and nothing else happens, as it is, by the model's reading, while the
MP takes none (notes/assumptions/64.md). The end of a clearing reports a load, and the boot load ends the start. -/
def Obligations.DamaskOperations : Prop :=
  (∀ (s : State) (k : Nat) (nv : NvEnd),
      let e := s.eraseSlot k nv
      let t := s.setBoot k nv
      (s.nv = true → e.dmk.result = dkPOWER_INHIBIT ∧ e.flash = s.flash ∧ t.dmk.result = dkPOWER_INHIBIT ∧ t.flash = s.flash) ∧
      (s.nv = false → (∀ i, e.flash.damask.get none i = if i = k then none else s.flash.damask.get none i) ∧
        (nv.sag = false → e.dmk.result = dkOK ∧ e.flash.bootSet = (s.flash.bootSet && s.flash.bootSlot != k)) ∧
        (nv.sag = true → e.dmk.result = dkPOWER_INHIBIT ∧ e.flash.bootSet = s.flash.bootSet)) ∧
      (s.nv = false → s.flash.slotValid k = false → t.dmk.result = dkSLOT_EMPTY ∧ t.flash = s.flash) ∧
      (s.flash.damask.get none k = none → s.flash.slotValid k = false) ∧
      (s.nv = false → s.flash.slotValid k = true →
        (nv.sag = false → t.dmk.result = dkOK ∧ t.flash = { s.flash with bootSlot := k, bootSet := true }) ∧
        (nv.sag = true → t.dmk.result = dkPOWER_INHIBIT ∧ t.flash = s.flash)) ∧
      (e.dmk.done = true ∧ t.dmk.done = true ∧ e.dmk.busy = false ∧ t.dmk.busy = false)) ∧
  ∀ (s : State) (w : Wr) (nv : NvEnd), s.barTakes = true → w.sets 0 = true →
    let d := s.dmk
    let set : Damask := { d with op := w.upd 1 2 d.op, source := w.upd 3 1 d.source, slot := w.upd 4 2 d.slot }
    let u := { s with dmk := set }
    let runs := fun (i : Instr) (op : Nat) (t : State) => w.get? 1 2 = some op →
      (s.dmkBusy = false → s.mpTakes = true → exec i s = .next t.advance) ∧
      (s.dmkBusy = true ∨ s.mpTakes = false → exec i s = .next { s with dmk := { set with refused := true } })
    runs (.dmkLoad w nv) 0 (if set.source = 0 then u.runFromMemory 0 set.slot d.src nv else u.loadSlot set.slot) ∧
    runs (.dmkStore w nv) 1 (if s.nv then u.dmkEnd (failOf dkPOWER_INHIBIT) else u.runFromMemory 1 set.slot d.src nv) ∧
    runs (.dmkErase w nv) 2 (u.eraseSlot set.slot nv) ∧ runs (.dmkSetBoot w nv) 3 (u.setBoot set.slot nv) ∧
    (d.clearing = true → exec .damaskClearDone s = .next s.clearDone.advance) ∧
    (s.startPhase = 3 → s.mpRunning = true → s.fw.restarting = false → d.busy = false → exec .bootDamaskLoad s = .next s.bootLoad.advance) ∧
    (s.startPhase = 3 → s.mpRunning = true → s.fw.restarting = false → d.busy = false → s.flash.bootSet = false → d.clearing = false →
      exec .bootDamaskLoad s = .next { s with startPhase := 4 }.advance)

/-- R176 and R177: GO with an OP loads program memory, starts or stops the cores that the mask names, on a cluster whose half is on, once
its checks pass, with RESULT 0 and DONE; a check that fails is the RESULT, and no core changes. A loaded core holds the words from
index 0; a started one runs from the index given with zero registers; a stopped one stays at its PC. The correctable errors that the reading
of the words meets are logged (R360), and the timers of what it used start again (R385, notes/assumptions/93.md). -/
def Obligations.SequencerOperations : Prop :=
  ∀ (s : State) (w : Wr) (ces : List (Nat × Nat)), s.barTakes = true → w.sets 0 = true → w.sets 4 = false → w.sets 5 = false → s.seq.busy = false → s.mpTakes = true →
    let q : SeqCtl := { s.seq with op := w.upd 1 2 s.seq.op, cluster := w.upd 8 9 s.seq.cluster, mask := w.upd 32 16 s.seq.mask, count := w.upd 48 14 s.seq.count }
    let u := { s with seq := q }
    let st := s.seqCheck q.op q.cluster q.mask q.count q.src
    let ds := q.cluster / 16 :: (if q.op = 0 then s.rangeDomains q.src (8 * q.count) else [])
    let does := fun (i : Instr) (op : Nat) (met : List (Nat × Nat)) => w.get? 1 2 = some op →
      (st = stOK → s.asleep ds = [] → exec i s =
        .next ((((u.touch ds).corrections met q.src (8 * q.count)).seqEffect op q.cluster q.mask q.count q.src).seqEnd stOK).settleForces.advance) ∧
      (st ≠ stOK → exec i s = .next (u.seqEnd st).settleForces.advance)
    does (.seqLoad w ces) 0 ces ∧ does (.seqStart w) 1 [] ∧ does (.seqStop w) 2 [] ∧
    (∀ c : Core, ∀ ws : List Word, ∀ i, (c.load ws).prog.get 0 i = if i < ws.length then ws.getD i 0 else c.prog.get 0 i) ∧
    (∀ c : Core, ∀ pc, c.start pc = { prog := c.prog, pc := pc, st := .run }) ∧
    (∀ c : Core, c.stop.pc = c.pc ∧ c.stop.prog = c.prog ∧ c.stop.regs = c.regs ∧ c.stop.st.live = false)

/-- R264 to R267 and Table 12.9: a retirement or release of a page of a populated tier changes the map, once its checks pass, and asks
for a publication, whose end sets DONE; RESULT is the first check that fails, and the map then stays and DONE is set at once. While BUSY, GO
is refused. That GO is refused before the first publication or while the MP does not run, and the order of the RESULTs, POWER_INHIBIT first,
are the model's readings (notes/assumptions/64.md and 67.md). -/
def Obligations.PagesRetire : Prop :=
  (∀ (s : State) (w : Wr) (nv : NvEnd), s.barTakes = true → w.sets 0 = true → w.sets 3 = false → w.sets 4 = false →
      let p := s.retire.page
      let does := fun (i : Instr) (op : Nat) => w.get? 1 1 = some op → ∃ t, exec i s = .next t ∧ t.mem = s.mem ∧ t.zeroed = s.zeroed ∧
        let st := s.retireCheck op p nv
        (s.retire.busy = true ∨ s.mpTakes = false → t = { s with retire := { s.retire with op := op, refused := true } }) ∧
        (s.retire.busy = false → s.mpTakes = true →
          (st ≠ rtOK → t.retire = { s.retire with op := op, done := true, result := st } ∧ t.hif.attn.testBit atOP_DONE = true ∧
            t.flash.retired = s.flash.retired ∧ t.calico = s.calico) ∧
          (st = rtOK → t.retire = { s.retire with op := op, busy := true, result := rtOK } ∧ t.hif = { s.hif with waiting := t.hif.waiting } ∧
            t.calico.dirty = true ∧
            (op = 0 → ∀ x, x ∈ t.flash.retired ↔ x = p ∨ x ∈ s.flash.retired) ∧ (op = 1 → t.flash.retired = s.flash.retired.erase p)))
      does (.retire w nv) 0 ∧ does (.release w nv) 1) ∧
  ∀ (s : State) (v : CalicoView), s.calico.view = some v →
    (s.retire.busy = true → v.retired = s.flash.retired →
      s.retireDone.retire = { s.retire with busy := false, done := true } ∧ s.retireDone.hif.attn.testBit atOP_DONE = true) ∧
    (s.retire.busy = false ∨ v.retired ≠ s.flash.retired → s.retireDone = s)

/-! ### Firmware (18) -/

/-- Table 18.11, R402, R404 and R409: GO with an OP runs it, unless an operation runs, which refuses it, an ACTIVATE with NOT_READY besides;
that it is refused too while the MP takes none is the model's reading (notes/assumptions/64.md). STAGE and UNSTAGE and REVERT end with
POWER_INHIBIT under NV; ACTIVATE without staged firmware ends with NOT_READY, else it writes the hand-over block, which leaves BUSY set
(the model's reading, notes/assumptions/71.md), and the MP restarts. UNSTAGE clears STAGED. REVERT stages the slot that does not run, which
is the one not booted last where golden runs, when its header passes step 1 of Table 18.4, and ends with NOT_READY otherwise. -/
def Obligations.FirmwareOperations : Prop :=
  ∀ (s : State) (w : Wr) (nv : NvEnd), s.barTakes = true → w.sets 0 = true →
    let u := { s with fw := { s.fw with op := w.upd 1 2 s.fw.op } }
    let spare := if s.fw.bootedSlot = 0 then 1 else if s.fw.bootedSlot = 1 then 0 else 1 - s.fw.active
    let runs := fun (i : Instr) (op : Nat) (t : State) => w.get? 1 2 = some op →
      (s.fw.busy = false → s.mpTakes = true → exec i s = .next t) ∧
      (s.fw.busy = true ∨ s.mpTakes = false → exec i s = .next { u with fw := { u.fw with
        refused := true, result := if op = 1 ∧ s.mpTakes = true then fwNOT_READY else s.fw.result } })
    runs (.stage w nv) 0 (if s.nv then u.fwEnd fwPOWER_INHIBIT else u.runStage s.fw.src nv) ∧
    runs (.activate w) 1 (if s.fw.staged = 0xFF ∨ s.mpBusy = true then u.fwEnd fwNOT_READY else
      { u.deferRun.writeHandover with fw := { u.fw with busy := true, restarting := true } }) ∧
    runs (.unstage w) 2 (if s.nv then u.fwEnd fwPOWER_INHIBIT else (u.writeDirectory s.fw.active 0xFF).fwEnd fwOK) ∧
    runs (.revert w) 3 (if s.nv then u.fwEnd fwPOWER_INHIBIT
      else if (s.fw.slot spare).any (fun x : FwSlot => x.headerOk) then (u.writeDirectory s.fw.active spare).fwEnd fwOK
      else u.fwEnd fwNOT_READY) ∧
    (∀ a b, (u.writeDirectory a b).fw = { u.fw with
      dirs := u.fw.dirs.set (1 - u.fw.dirAt) (dirBytes (u.fw.dirSeq + 1) a b), dirAt := 1 - u.fw.dirAt, dirSeq := u.fw.dirSeq + 1
      active := a, staged := b }) ∧
    (∀ r, (u.fwEnd r).fw = { u.fw with busy := false, done := true, waiting := none, result := r } ∧ (u.fwEnd r).hif.attn.testBit atOP_DONE = true)

/-- R400, R404 and R407: the MP boots at a start once its domain is on, from the first slot of the boot order that passes the check, the order
of the slot directory that it reads in flash (R398); at a warm restart it boots as R404 says. A unit takes its new image at its point of Table 18.7, and leaves the list of units to reload. -/
def Obligations.MpBootsAndReloads : Prop :=
  ∀ (s : State) (ok : Bool) (c u : Nat),
    (s.fw.restarting = false → s.up = true → s.domOn 45 = true → s.mpRunning = false → s.startPhase = 0 →
      let f := s.fw.readDirectory
      ∃ t, exec (.mpBoot ok) s = .next t ∧
        (f.bootSlot = none → t.mpRunning = false ∧ t.startPhase = 0 ∧ t.fw = { f with bootResult := f.slotCheck 2 }) ∧
        (∀ b, f.bootSlot = some b → f.slotCheck b = 0 ∧ b ∈ f.bootOrder ∧ t.mpRunning = true ∧ t.startPhase = 1 ∧ t.fw.bootedSlot = b ∧
          t.fw.versions = f.componentsOf b)) ∧
    (s.fw.restarting = true → exec (.mpBoot ok) s = .next (s.warmBoot ok)) ∧
    ((s.fw.toReload.getD c []).contains u = true → s.reloadPoint c u = true → ∃ t, exec (.firmwareReload c u) s = .next t ∧
      t.fw = { s.fw with toReload := s.fw.toReload.set c ((s.fw.toReload.getD c []).filter (· != u)) } ∧ sameBytes s t)

/-! ### Registers (19) -/

/-- R412 and R413: a write of 8 bytes at an aligned offset, or of a half of one, has the effect of the register there; a read answers the
value and, of all 8 bytes of a register that shows what it holds, clears its clearing fields; a half is reached at its own offset too, an
aligned 4-byte access at off % 8 = 4 (the operand's form is the model's, notes/assumptions/107.md). Any other access, of a wrong size or not
naturally aligned, is refused with Completer Abort and its AER event, and a write of that kind changes nothing. In D3hot every BAR0 access
is refused as an Unsupported Request (R411). R418: an event sends the message of its row of Table 19.2, ERR_COR for a refusal, while no
register of AER that the host has written masks it or gives it another severity. -/
def Obligations.RegistersTakeAccesses : Prop :=
  ∀ (s : State) (off : Nat) (w : Wr) (h : Half) (size : Nat) (wr : Bool), regOffOk off = true →
    let wrong := ¬((size = 4 ∨ size = 8) ∧ off % size = 0)
    let refuses := fun (i : Instr) (r : Reply) (e : Nat) => exec i s = .next { s with hif := { s.hif with reply := r }.aerNote e }
    let writes := fun (r : Reg) (v : Wr) => exec (.registerWrite off w) s = .next (s.regWrite r v)
    let reads := fun (r : Reg) (p : Half) => ∃ t u : State, exec (.registerReadClear off h) s = .next t ∧ sameBytes s t ∧
      u = { s with draws := u.draws, hif := { s.hif with reply := .value (BitVec.ofNat 64 (Half.part p (s.hostSee r))) } } ∧
      (p ≠ .both ∨ s.clears r = false → t = u) ∧ (p = .both → s.clears r = true → t = u.regClear r)
    (s.barTakes = true →
      (off % 8 = 0 → writes (regAt off) w ∧ reads (regAt off) h) ∧
      (off % 8 = 4 → w.half = .lo → writes (regAt (off - 4)) (w.placed .hi)) ∧
      (off % 8 = 4 → w.half = .hi → writes (regAt (off + 4)) (w.placed .lo)) ∧
      (off % 8 = 4 → (h = .lo → reads (regAt (off - 4)) .hi) ∧ (h = .hi → reads (regAt (off + 4)) .lo)) ∧
      (off % 8 ≠ 0 → off % 8 ≠ 4 ∨ w.half = .both → refuses (.registerWrite off w) .completerAbort aeCA) ∧
      (off % 8 ≠ 0 → off % 8 ≠ 4 ∨ h = .both → refuses (.registerReadClear off h) .completerAbort aeCA) ∧
      (wrong → refuses (.bar0BadAccess off size wr) .completerAbort aeCA)) ∧
    (s.hifOn = true → s.hif.d3hot = true →
      refuses (.registerWrite off w) .unsupported aeUR ∧ refuses (.registerReadClear off h) .unsupported aeUR ∧
      (wrong → refuses (.bar0BadAccess off size wr) .unsupported aeUR)) ∧
    (s.hifOn = false → ∀ i ∈ [.registerWrite off w, .registerReadClear off h, .bar0BadAccess off size wr], exec i s = .next s) ∧
    ∀ e, (s.hif.aerNote e) = { s.hif with aer := (s.hif.aerNote e).aer, messages := (s.hif.aerNote e).messages } ∧
      ((∀ x ∈ s.hif.config, aerOffset x.1 ≠ aerUncMask ∧ aerOffset x.1 ≠ aerUncSeverity ∧ aerOffset x.1 ≠ aerCorMask) →
        let sends := fun m => s.hif.aerNote e = { s.hif with aer := s.hif.aer ++ [e], messages := s.hif.messages ++ [(m, s.hif.posted.length)] }
        (e = aeUR ∨ e = aeCA → sends 0) ∧ (e ∈ [aeFETCH_UR, aeFETCH_CA, aeFETCH_POISONED, aeFETCH_TIMEOUT, aeECRC] → sends 1) ∧
        (e = aeINTERNAL → sends 2) ∧ (e ∈ [aeRECEIVER, aeBAD_TLP, aeBAD_DLLP, aeREPLAY_ROLLOVER, aeREPLAY_TIMER] → sends 0))

/-- R416, R413 and R419: GBL_BAR2_BASE takes bits 47 to 16; GBL_COUNTER is set at once when its half serves, and after the half's wake
otherwise; a write of 1 clears a bit of GBL_ATTN unless its event has come in the same tick; an event sets its bit and is noted with its
tick. -/
def Obligations.GlobalRegistersWrite : Prop :=
  ∀ (s : State) (w : Wr) (n c v old : Nat), s.barTakes = true →
    exec (.gblBar2BaseWrite w) s = .next { s with hif := { s.hif with bar2Base := w.upd 16 32 (s.hif.bar2Base / 65536) * 65536 } } ∧
    (n < 512 → c < 64 → w.get? 0 32 = some v →
      (s.domOn (n / 16) = true → ∃ t, exec (.gblCounterWrite n c w) s = .next t ∧ sameBytes s t ∧ t = { s with clusters := t.clusters } ∧
        ∀ m j, t.counter m j = if m = n ∧ j = c then BitVec.ofNat 32 v else s.counter m j) ∧
      (s.domOn (n / 16) = false → exec (.gblCounterWrite n c w) s =
        .next ({ s with hif := { s.hif with waiting := s.hif.waiting ++ [({ seq := s.nextId, req := .counter n c (BitVec.ofNat 32 v) } : Parked)] } }.wake (n / 16)))) ∧
    (∃ t, exec (.attnClear w old) s = .next t ∧ t = { s with hif := { s.hif with attn := t.hif.attn } } ∧
      ∀ i, i < 7 → t.hif.attn.testBit i =
        (s.hif.attn.testBit i && (decide (s.hif.attnNow.1 = s.tick) && s.hif.attnNow.2.testBit i || !w.sets i))) ∧
    ∀ i j, (s.attn i).hif.attn.testBit j = (s.hif.attn.testBit j || decide (i = j)) ∧ (s.attn i).hif.attnNow.1 = s.tick ∧
      (s.attn i).hif.attnNow.2.testBit j = (decide (i = j) || decide (s.hif.attnNow.1 = s.tick) && s.hif.attnNow.2.testBit j)

/-- R386: FORCE of PWR_DOM_CTRL. 0 leaves the domain to the policy; 1 wakes it and keeps it on, but reads 1 alone on an engine that the
envelope keeps off; 2 and 3 are carried out at once when it is idle and are kept until then otherwise. A request that is already met,
or could be met only by waking, returns FORCE to 0; retain goes to off without waking. Domains 44 to 46 ignore FORCE. -/
def Obligations.ForceMovesDomains : Prop :=
  ∀ (s : State) (d : Nat) (w : Wr), s.barTakes = true → domainOk d = true →
    let x := s.dom d
    let u := fun f : Nat => s.setDom d { x with force := f, retainAfter := w.upd 16 16 x.retainAfter, offAfter := w.upd 32 32 x.offAfter }
    let goes := fun (i : Instr) (st : DomSt) => ∃ t, exec i s = .next t ∧ (t.dom d).st = st ∧ (t.dom d).force = 0 ∧ ∀ e, e ≠ d → t.dom e = s.dom e
    (¬(44 ≤ d ∧ d ≤ 46) →
      (w.get? 0 2 = some 0 → exec (.forcePolicy d w) s = .next (u 0)) ∧
      (w.get? 0 2 = some 1 → exec (.forceOn d w) s = .next ((u 1).wake d) ∧ (s.envOff d = true → (u 1).wake d = u 1)) ∧
      (x.force = 1 → exec (.domainRetainTimeout d) s = .next s ∧ exec (.domainOffTimeout d) s = .next s) ∧
      (w.get? 0 2 = some 2 → (u 2).domIdle d = true → goes (.forceRetain d w) .toRetain) ∧
      (w.get? 0 2 = some 2 → x.st = .on → (u 2).domIdle d = false → exec (.forceRetain d w) s = .next (u 2)) ∧
      (w.get? 0 2 = some 2 → x.st = .retain ∨ x.st = .off → exec (.forceRetain d w) s = .next (u 0)) ∧
      (w.get? 0 2 = some 3 → (u 3).domIdle d = true ∨ x.st = .retain → goes (.forceOff d w) .toOff) ∧
      (w.get? 0 2 = some 3 → x.st = .on → (u 3).domIdle d = false → exec (.forceOff d w) s = .next (u 3)) ∧
      (w.get? 0 2 = some 3 → x.st = .off → exec (.forceOff d w) s = .next (u 0))) ∧
    (44 ≤ d → d ≤ 46 → exec (.forcePolicy d w) s = .next s ∧ exec (.forceOn d w) s = .next s ∧ exec (.forceRetain d w) s = .next s ∧
      exec (.forceOff d w) s = .next s)

/-! ### BAR2 and the PCIe function (19) -/

/-- R414 and R415: a BAR2 read of populated memory that serves returns its bytes, with the correctable errors that it meets logged
(R360), and a write puts its bytes there and nowhere else. A request that reaches an unpopulated or retired byte is refused and counted; one
whose memory sleeps waits for its wake, and one that overlaps an earlier write that waits waits behind it, which is the model's reading
(notes/assumptions/80.md). -/
def Obligations.Bar2ReachesMemory : Prop :=
  ∀ (s : State) (a n losses : Nat) (b : Bytes) (ces : List (Nat × Nat)),
    let x := s.hif.bar2Base + a
    let ds := s.rangeDomains x n
    s.barTakes = true → bar2Ok a n = true → b.length = n →
    (s.bar2Reaches x n = true → s.asleep ds = [] → s.behindWrite x n = false →
      (∃ t, exec (.bar2Read a n []) s = .next t ∧ t.hif.reply = .data (s.readBytes x n) ∧ sameBytes s t ∧
        t = { s with domains := t.domains, hif := { s.hif with reply := t.hif.reply } }) ∧
      exec (.bar2Read a n ces) s = exec (.bar2Read a n []) (s.corrections ces x n) ∧
      ∃ t, exec (.bar2Write a b losses []) s = .next t ∧ t.readBytes x n = b ∧ sameBytesBut s t x n ∧
        t = { s with mem := t.mem, domains := t.domains, clusters := t.clusters } ∧
        exec (.bar2Write a b losses ces) s = exec (.bar2Write a b losses []) (s.writeCorrections ces x n)) ∧
    (s.bar2Reaches x n = true → s.asleep ds ≠ [] ∨ s.behindWrite x n = true →
      exec (.bar2Read a n ces) s = .next (s.putOff (.read x n ces) ds) ∧ exec (.bar2Write a b losses ces) s = .next (s.putOff (.write x b losses ces) ds)) ∧
    (s.bar2Reaches x n = false → ∀ i ∈ [.bar2Read a n ces, .bar2Write a b losses ces], exec i s =
      .next { s with hif := { s.hif with bar2Ur := min (s.hif.bar2Ur + 1) 0xFFFF, reply := .unsupported }.aerNote aeUR })

/-- R394, R410 and R411: the function answers configuration requests, in D3hot too, which is the model's reading (notes/assumptions/9.md); in
D3hot no entry is fetched and a completion that falls due is owed; the return to D0 writes those owed, in the order in which they fell due,
each in two posted writes at its ring; GBL_HIF_STATUS shows the link that has come up, of a speed and width of Table 19.1, one of 64 GT/s in
flit mode alone. -/
def Obligations.PcieFunction : Prop :=
  ∀ (s : State) (off v speed width : Nat) (flit : Bool), s.hifOn = true →
    (configOk off = true →
      (∃ t, exec (.configRequest off (some v)) s = .next t ∧ t.hif.reply = .ackd ∧ SMap.find? t.hif.config off = some (v % 2 ^ 32) ∧
        ∀ o, o ≠ off → SMap.find? t.hif.config o = SMap.find? s.hif.config o) ∧
      exec (.configRequest off none) s = .next { s with hif := { s.hif with reply := .value (BitVec.ofNat 64 (s.configValue off)) } }) ∧
    exec .d3hotEntry s = .next { s with hif := { s.hif with d3hot := true } } ∧
    (s.hif.d3hot = true →
      (∀ (h : HostData) (m : OfferMeets), h.wf = true → exec (.sqEntryFetch h m) s = .next s) ∧
      (∀ q b st fl r woke head, ∃ x : Record, x.status = st ∧ x.flags = fl ∧ x.result = r ∧ x.sq = q ∧ x.tag = dTag b ∧ x.sqHead = head ∧
        x.timestamp = s.tick ∧ s.complete (.host q) none b st fl r woke head =
          { s with hif := { s.hif with owed := s.hif.owed ++ [((s.sq q).cq, x)] } }) ∧
      (s.hif.owed = [] → exec .d0Return s = .next { s with hif := { s.hif with d3hot := false } }) ∧
      ∃ t, exec .d0Return s = .next t ∧ t.hif.d3hot = false ∧ t.hif.owed = [] ∧ (∃ ws, t.hif.posted = s.hif.posted ++ ws) ∧
        ((∀ e ∈ s.hif.owed, (s.cq e.1).enable = true) → t.hif.posted.length = s.hif.posted.length + 2 * s.hif.owed.length ∧
          ∀ i e, s.hif.owed[i]? = some e → ∃ tail phase,
            let a := (s.cq e.1).base + tail * 32
            let n := s.hif.posted.length + 2 * i
            t.hif.posted[n]? = some ⟨a + 4, (e.2.encode phase).drop 4⟩ ∧ t.hif.posted[n + 1]? = some ⟨a, (e.2.encode phase).take 4⟩)) ∧
    (1 ≤ speed → speed ≤ 4 → width ∈ [1, 2, 4, 8, 16] →
      (speed ≠ 4 ∨ flit = true →
        exec (.pcieLinkUp speed width flit) s = .next { s with hif := { s.hif with speed := speed, width := width, flitMode := flit } }) ∧
      (speed = 4 → flit = false → exec (.pcieLinkUp speed width flit) s = .next s)) ∧
    (speed = 0 ∨ 4 < speed ∨ width ∉ [1, 2, 4, 8, 16] → exec (.pcieLinkUp speed width flit) s = .fault .noSuchUnit)

/-! ### Resets and the start (16, 17) -/

/-- R392, R367 and R410: a hot reset or an assertion of PERST_N gives LAST_RESET 1 and writes no completion; MOD_RESET_N, VIN_PG and a
shutdown give 2, 4 and 4 and complete what the host is owed with FATAL_PENDING first. Every domain but the flannel domain is off
afterwards; time and the log's records stay, and so does flash but for a record that a cut persistence run was writing; the reset
sequence takes 500 ticks. That the reset is one step, with the domains off at once and the tick unmoved, is the model's choice
(notes/assumptions/68.md), and so is what a cut run leaves of the record (notes/assumptions/97.md).
R365, R367 and R260: an uncorrectable error, or a far-tier link that goes down, is logged and resets the module with LAST_RESET 3;
it completes what the host is owed first, unless the function is in D3hot (R411), and ERR_FATAL, where AER lets it out, follows those writes;
the hand-over block is invalid; so too when another cause has begun the reset in the same tick. -/
def Obligations.ModuleResets : Prop :=
  (∀ (s : State) (dt vin : Nat), s.flannelOn = true → s.resetEnds ≠ s.tick + 500 →
      let off := fun (u t : State) (last : Nat) => t.up = false ∧ t.log = { s.log with lastReset := last, persistBusy := false } ∧ t.tick = s.tick ∧
        t.flash = (if s.up then s.flash.cutPage s.log.persistBusy else s.flash) ∧ t.resetEnds = s.tick + 500 ∧
        (s.up = true → (∀ d, t.dom d = domainDefault d) ∧ t.descs = [] ∧ t.clusters = [] ∧ t.mem = [] ∧ t.hif.posted = u.hif.posted)
      (∃ t, exec (.hotReset dt) s = .next t ∧ off s t lrPERST ∧ t.perstN = s.perstN) ∧
      (∃ t, exec (.perstNAssert dt) s = .next t ∧ off s t lrPERST ∧ t.perstN = false) ∧
      (∃ t, exec (.modResetNAssert dt) s = .next t ∧ off (s.writeFatalPending dt) t lrMOD_RESET ∧ t.modResetN = false ∧ t.flashHeld = s.xspiOwn) ∧
      (∃ t, exec (.vinPgDeassert dt) s = .next t ∧ off (s.writeFatalPending dt) t lrSHUTDOWN ∧ t.vinPg = false) ∧
      (vin < 4800 → ∃ t, exec (.supplyShutdown vin dt) s = .next t ∧ off ({ s with vin := vin, nv := true, lowSag := true }.writeFatalPending dt) t lrSHUTDOWN ∧
          t.nv = true ∧ t.lowSag = true ∧ t.vin = vin)) ∧
  (∀ f : Flash, f.cutPage false = f) ∧
  ∀ (s : State) (errs : List (FaultId × Nat × Nat)) (port linkState dt : Nat), s.flannelOn = true →
    let es := (errs.filter fun e => isUncorrectable e.1.kind).mergeSort fun a b => decide (a.2.1 ≤ b.2.1)
    let fatal := fun t : State => t.up = false ∧ t.log.lastReset = lrFATAL ∧ t.handover = none ∧ t.hif.aer = s.hif.aer ++ [aeINTERNAL] ∧
      t.hif.messages = s.hif.messages ++ (s.hif.aerMessage aeINTERNAL).toList.map (fun m => (m, t.hif.posted.length)) ∧ t.tick = s.tick ∧
      t.flash = (if s.up then s.flash.cutPage s.log.persistBusy else s.flash)
    let sec := s.dmk.inForce.bind (·.memory)
    let logged := es.foldl (fun s e => s.logFatal (e.1, e.2.1, errorDetail sec e.1 e.2.2)) s
    let down : FaultId := { kind := fkFAR_LINK, subject := s.node, unit := faultUnit ucFAR port, location := 0 }
    (s.up = true → es ≠ [] → ∃ t, exec (.uncorrectableError errs dt) s = .next t ∧ fatal t ∧ t.log.slots = (s.logErrors sec errs).log.slots ∧
      t.hif.posted = ((s.logErrors sec errs).writeFatalPending dt).hif.posted ∧
      ((∀ e ∈ errs, e.1.kind ≠ fkCE) → t.log.slots = logged.log.slots)) ∧
    (s.up = false → s.resetEnds = s.tick + 500 → s.log.lastReset ≠ lrFATAL → es ≠ [] →
      ∃ t, exec (.uncorrectableError errs dt) s = .next t ∧ fatal t) ∧
    (s.up = false → s.resetEnds = s.tick + 500 → s.log.lastReset ≠ lrFATAL → farOk port = true →
      ∃ t, exec (.farLinkDown port linkState dt) s = .next t ∧ fatal t) ∧
    (s.up = true → farOk port = true → ∃ t, exec (.farLinkDown port linkState dt) s = .next t ∧ fatal t ∧ t.log.slots =
      (s.logFatal (down, port, linkState)).log.slots ∧ t.hif.posted = ((s.logFatal (down, port, linkState)).writeFatalPending dt).hif.posted) ∧
    (∀ u : State, u.hif.d3hot = false → ∃ rs : List (Nat × Record), (∀ e ∈ rs, e.2.status = stFATAL_PENDING) ∧
      (u.writeFatalPending dt).hif.posted = (rs.foldl (fun v e => v.postRecord e.1 e.2) u).hif.posted) ∧
    ∀ u : State, u.hif.d3hot = true → u.writeFatalPending dt = u

/-- R392, R393, R387 and R368: a start begins once no reset sequence runs, the reset inputs are released, VIN_PG is asserted and VIN lies above
56 V, under NV up to 62 V; it counts in BOOT_COUNT, begins the wakes of the MP and PCIe domains and forgets DRAM. Which of the inputs a start reads from the last
sample is the model's reading (notes/assumptions/69.md). The flannel domain powers up with TMR_TICK 0 and an empty log, and loses everything
but flash when its supply goes. -/
def Obligations.StartsAndPower : Prop :=
  ∀ (s : State) (pr : Probe),
    (pr.wf = true → s.flannelOn = true → s.up = false → s.vinPg = true → 5600 < s.vin → s.modResetN = true → s.perstN = true → s.resetEnds ≤ s.tick →
      ∃ t, exec (.moduleStart pr) s = .next t ∧ t.up = true ∧
      t.startPhase = 0 ∧ t.nv = (s.nv || decide (s.vin ≤ 6200)) ∧ t.bootCount = (s.bootCount + 1) % 2 ^ 32 ∧ (t.dom 45).st = .wakeOff ∧ (t.dom 46).st = .wakeOff ∧
      (∀ d, d ≠ 45 → d ≠ 46 → s.dom d = domainDefault d → t.dom d = s.dom d) ∧ t.mem = [] ∧ t.dramGen = s.dramGen + 1 ∧ t.tick = s.tick ∧ t.log = s.log ∧ t.flash = s.flash) ∧
    (s.flannelOn = false → ∃ t, exec .flannelPowerUp s = .next t ∧ t.flannelOn = true ∧ t.tick = 0 ∧ t.log = {} ∧ t.up = false ∧ t.flash = s.flash) ∧
    ∃ t, exec .flannelPowerLoss s = .next t ∧ t.flannelOn = false ∧ t.up = false ∧ t.log = {} ∧ t.flash = s.flash

/-- R40 to R43: a publication that is due makes GENERATION odd and takes every change made up to then; its end makes GENERATION even
again and sets CALICO in GBL_ATTN. -/
def Obligations.CalicoPublishes : Prop :=
  ∀ s : State,
    (s.publishDue = true → s.calico.generation % 2 = 0 ∧ exec .calicoRepublish s = .next { s with calico := { s.calico with
      generation := s.calico.generation + 1, dirty := false, view := some s.calicoNow } }) ∧
    (s.calico.generation % 2 = 1 → exec .calicoPublishEnd s = .next s.published ∧
      ∃ u : State, s.published = u.resume ∧ u.calico.generation = s.calico.generation + 1 ∧ u.calico.generation % 2 = 0 ∧
        u.calico.evenTick = s.tick ∧ u.hif.attn.testBit atCALICO = true)

/-! ### Supply, clock, temperature and pins (17, 20) -/

/-- R380 to R382: below 60 V non-volatile writes are inhibited, above 62 V no more; below 54 V ENV_LOW is forced and NV holds too, above 56 V
it is no more; each change sets SUPPLY in GBL_ATTN of a started module, and the envelope follows. Where nothing waits to write flash, the
fall of NV changes nothing else. -/
def Obligations.SagThresholds : Prop :=
  ∀ (s : State) (vin : Nat), s.flannelOn = true →
    let noted := fun t : State => s.up = true → t.hif.attn.testBit atSUPPLY = true
    (vin < 6000 → s.nv = false → ∃ t u, exec (.nvThresholdFall vin) s = .next t ∧ noted u ∧
      u = { s with vin := vin, nv := true, hif := { s.hif with attn := u.hif.attn, attnNow := u.hif.attnNow } } ∧ t = u.sagged ∧
      (s.dmk.waking = none → s.fw.waiting = none → s.log.persistBusy = false → t = u)) ∧
    (6200 < vin → s.nv = true → ∃ t u, exec (.nvThresholdRise vin) s = .next t ∧ noted u ∧
      u = { s with vin := vin, nv := false, lowSag := false, hif := { s.hif with attn := u.hif.attn, attnNow := u.hif.attnNow } } ∧ t = u.nvReleased.followEnv) ∧
    (vin < 5400 → s.lowSag = false → ∃ t u, exec (.lowThresholdFall vin) s = .next t ∧ (s.nv = false ∨ s.lowTherm = false → noted u) ∧
      u = { s with vin := vin, nv := true, lowSag := true, hif := { s.hif with attn := u.hif.attn, attnNow := u.hif.attnNow } } ∧ t = u.sagged.followEnv) ∧
    (5600 < vin → s.lowSag = true → ∃ t u, exec (.lowThresholdRise vin) s = .next t ∧ (s.lowTherm = false → noted u) ∧
      u = { s with vin := vin, lowSag := false, hif := { s.hif with attn := u.hif.attn, attnNow := u.hif.attnNow } } ∧ t = u.followEnv)

/-- R378, R379, R387, R437, R438 and R439: throttling begins above 43 A, or once 400,000 samples in a row have lain above 2,600 W, and ends
once 25,000 in a row have lain below 40 A and 2,400 W; the oscillator takes over a lost reference clock, and gives it back once that has
run for 25,000 ticks, unless the strap keeps it; a tick counts, and samples the supply and the reset inputs, whose change is effective in the
second of two samples that agree (R436); temperatures raise and lower the alert and ENV_LOW;
XSPI_OWN gives the flash bus away only while MOD_RESET_N is asserted. -/
def Obligations.SensorsAndPins : Prop :=
  ∀ (s : State) (x : Nat) (y : Sample) (level : Bool) (writes : List (Nat × Bytes)), s.flannelOn = true →
    let noted := fun t : State => s.up = true → t.hif.attn.testBit atSUPPLY = true
    let low := fun (t : State) (b : Bool) => ∃ u : State, t = u.followEnv ∧ (s.lowSag = false → noted u) ∧
      u = { s with lowTherm := b, hif := { s.hif with attn := u.hif.attn, attnNow := u.hif.attnNow } }
    (s.up = true → s.throttled = false → 172 < x → ∃ t, exec (.throttleCurrent x) s = .next t ∧ noted t ∧
      t = { s with iin := x, calmRun := 0, throttled := true, throttles := min (s.throttles + 1) 0xFFFF, hif := { s.hif with attn := t.hif.attn, attnNow := t.hif.attnNow } }) ∧
    (s.up = true → s.throttled = false → 400000 ≤ s.powerRun → 2600 < x → ∃ t, exec (.throttlePower x) s = .next t ∧ noted t ∧
      t = { s with pin := x, calmRun := 0, throttled := true, throttles := min (s.throttles + 1) 0xFFFF, hif := { s.hif with attn := t.hif.attn, attnNow := t.hif.attnNow } }) ∧
    (s.powerRun < 400000 ∨ x ≤ 2600 → exec (.throttlePower x) s = .next s) ∧
    (s.throttled = true → 25000 ≤ s.calmRun → y.pin < 2400 → y.iin < 160 → ∃ t, exec (.throttleEnd y.pin y.iin) s = .next t ∧ noted t ∧
      t = { s with pin := y.pin, iin := y.iin, throttled := false, hif := { s.hif with attn := t.hif.attn, attnNow := t.hif.attnNow } }) ∧
    (s.calmRun < 25000 ∨ 2400 ≤ y.pin ∨ 160 ≤ y.iin → exec (.throttleEnd y.pin y.iin) s = .next s) ∧
    (s.onOsc = false → exec .refclkLost s = .next { s with onOsc := true, refclkLost := true, refRun := 0 }) ∧
    (s.onOsc = true → s.probe.clkSel = false → 25000 ≤ s.refRun → exec .refclkRestore s = .next { s with onOsc := false }) ∧
    (s.refRun < 25000 → exec .refclkRestore s = .next s) ∧
    (y.perstN = s.perstN → y.modResetN = s.modResetN → y.vinPg = s.vinPg → s.startPhase ≠ 1 → ∃ t, exec (.flannelTick y) s = .next t ∧ t.tick = s.tick + 1 ∧ t.vin = y.vin ∧ t.iin = y.iin ∧ t.pin = y.pin ∧
      t.powerRun = (if 2600 < y.pin then s.powerRun + 1 else 0) ∧ t.calmRun = (if y.pin < 2400 ∧ y.iin < 160 then s.calmRun + 1 else 0) ∧
      t.refRun = (if y.ref then s.refRun + 1 else 0) ∧
      t = { s with
        descs := t.descs, tick := t.tick, vin := t.vin, iin := t.iin, pin := t.pin, powerRun := t.powerRun, calmRun := t.calmRun, refRun := t.refRun
        ports := t.ports, shard := { s.shard with stall := t.shard.stall }, recal := t.recal, flashHeld := !s.modResetN && s.xspiOwn
        pinSample := (y.perstN, y.modResetN, y.vinPg), hif := if s.hifOn then (y.link.filter isLinkEvent).foldl Hif.aerNote s.hif else s.hif } ∧
      t.descs = s.descs.map fun d => if dType d.bytes = tyPERMUTE ∧ s.drainedInTime d = true then { d with inTime := true } else d) ∧
    (y.perstN = false → s.perstN = true → y.modResetN = s.modResetN → y.vinPg = s.vinPg → s.startPhase ≠ 1 → ∃ t, exec (.flannelTick y) s = .next t ∧
      (s.pinSample.1 = true → t.perstN = true ∧ t.up = s.up) ∧
      (s.pinSample.1 = false → t.perstN = false ∧ t.up = false ∧ t.resetEnds = s.tick + 501)) ∧
    (y.modResetN = false → s.modResetN = true → y.perstN = s.perstN → y.vinPg = s.vinPg → s.startPhase ≠ 1 → ∃ t, exec (.flannelTick y) s = .next t ∧
      (s.pinSample.2.1 = true → t.modResetN = true ∧ t.up = s.up) ∧
      (s.pinSample.2.1 = false → t.modResetN = false ∧ t.up = false ∧ t.resetEnds = s.tick + 501)) ∧
    (y.vinPg = false → s.vinPg = true → y.perstN = s.perstN → y.modResetN = s.modResetN → s.startPhase ≠ 1 → ∃ t, exec (.flannelTick y) s = .next t ∧
      (s.pinSample.2.2 = true → t.vinPg = true ∧ t.up = s.up) ∧
      (s.pinSample.2.2 = false → t.vinPg = false ∧ t.up = false ∧ t.resetEnds = s.tick + 501)) ∧
    (let sampled := fun last now old : Bool => if last = now then now else old
      ∃ t, exec (.flannelTick y) s = .next t ∧ t.pinSample = (y.perstN, y.modResetN, y.vinPg) ∧ t.perstN = sampled s.pinSample.1 y.perstN s.perstN ∧
        t.modResetN = sampled s.pinSample.2.1 y.modResetN s.modResetN ∧ t.vinPg = sampled s.pinSample.2.2 y.vinPg s.vinPg) ∧
    (100 ≤ x → exec (.thermAlertAssert x) s = .next { s with thermAlert := true }) ∧
    (x < 95 → exec (.thermAlertRelease x) s = .next { s with thermAlert := false }) ∧
    (105 ≤ x → s.lowTherm = false → ∃ t, exec (.thermalForceLow x) s = .next t ∧ low t true) ∧
    (x < 98 → s.lowTherm = true → ∃ t, exec (.thermalForceRelease x) s = .next t ∧ low t false) ∧
    (s.flashHeld = false ∨ writes = [] → exec (.xspiOwnChange level writes) s = .next { s with xspiOwn := level, flashHeld := !s.modResetN && level })

/-- R424 and R425: the test port takes its instructions while the flannel domain is powered; EXTEST, CLAMP and HIGHZ select BYPASS unless
MOD_RESET_N and VIN_PG are asserted; nothing but the test port differs.
R421 to R423: the I3C port answers reads of aligned offsets, and takes a write of FLT_PLOG_SEL alone, into a selection of its own; it
takes a dynamic address, while it has none by the model's choice (notes/assumptions/21.md), SETDASA at the static address 0x2C alone, and
loses it at RSTDAA; GETPID gives the provisioned ID. What is sent to another address, or is no READ of 8 bytes, is not answered or is
refused. Nothing else differs. -/
def Obligations.TestAndI3cPorts : Prop :=
  (∀ (s : State) (cells : Bytes), s.flannelOn = true →
      let ir := fun (i : Instr) (code : Nat) => ∃ t, exec i s = .next t ∧ t = { s with hif := { s.hif with jtagIr := code, test := t.hif.test } }
      ir .bypass irBYPASS ∧ (ir .idcode irIDCODE ∧ ∃ t, exec .idcode s = .next t ∧ t.hif.test = .value (BitVec.ofNat 64 idcodeValue)) ∧
      ir .testLogicReset irIDCODE ∧
      (∃ t, exec (.samplePreload cells) s = .next t ∧ t = { s with draws := s.draws + 1, hif := { s.hif with
        jtagIr := irSAMPLE, boundary := s.hif.shiftCells cells, test := t.hif.test } }) ∧
      (s.modResetN = false → s.vinPg = true → ir .extest irEXTEST ∧ ir .clamp irCLAMP ∧ ir .highz irHIGHZ) ∧
      (s.modResetN = true ∨ s.vinPg = false → ir .extest irBYPASS ∧ ir .clamp irBYPASS ∧ ir .highz irBYPASS)) ∧
  ∀ (s : State) (off a : Nat) (b : Bytes), s.flannelOn = true →
    let answers := fun (i : Instr) (r : Reply) => exec i s = .next { s with hif := { s.hif with i3c := r } }
    (off < 2 ^ 32 →
      (regOffOk off = true → off % 8 = 0 → exec (.i3cRead off) s =
        .next { s with draws := s.draws + 1, hif := { s.hif with i3c := .value (BitVec.ofNat 64 (s.i3cSee off)) } }) ∧
      (off % 8 ≠ 0 → answers (.i3cRead off) .nack) ∧
      (∀ y : I3cXfer, y.addr = none → y.cmd.getD 1 ≠ 1 ∨ y.len ≠ 8 → answers (.i3cRead off y) .nack) ∧
      (∀ y : I3cXfer, y.addr = some a → s.hif.i3cDyn.getD 0x2C ≠ a → exec (.i3cRead off y) s = .next s ∧ exec (.i3cWrite off b y) s = .next s) ∧
      (off = 0x220008 → b.length = 8 → exec (.i3cWrite off b) s =
        .next { s with hif := { s.hif with i3c := .ackd }, log := { s.log with i3cSel := field b 0 8 % 2 ^ 18 } }) ∧
      (off ≠ 0x220008 ∨ b.length ≠ 8 → answers (.i3cWrite off b) .nack)) ∧
    (i3cOk a = true →
      (s.hif.i3cDyn = none → ∀ i ∈ [.entdaa a, .setdasa a], exec i s = .next { s with hif := { s.hif with i3cDyn := some a, i3c := .ackd } }) ∧
      (s.hif.i3cDyn ≠ none → ∀ i ∈ [.entdaa a, .setdasa a], exec i s = .next s) ∧
      (∀ t, t ≠ 0x2C → exec (.setdasa a t) s = .next s)) ∧
    exec .rstdaa s = .next { s with hif := { s.hif with i3cDyn := none, i3c := .ackd } } ∧
    answers .getpid (.value (BitVec.ofNat 64 (Config.deviceStep.toNat + 0xF512 * 2 ^ 16 + Config.manufacturerCode.toNat * 2 ^ 32))) ∧
    ∀ e ∈ [(Instr.getbcr, 0), (.getdcr, 1), (.getstatus, 2), (.getmxds, 3)], answers e.1 (.value ((Config.i3cRegister e.2).setWidth 64))

/-! ### Faults and scrubbing (16) -/

/-- R370 and R368: a detection of a fault whose record stands in the window of now, [25,000 k, 25,000 (k + 1)), only counts there; any
other writes a record with SEQ one above the last, at WRITE_INDEX, which moves on by one modulo 255, and sets FAULT in GBL_ATTN.
Memory and flash stay. -/
def Obligations.FaultsAreLogged : Prop :=
  ∀ (s : State) (f : FaultId) (sev phys det : Nat),
    let t := s.logFault f sev phys det
    let now := fun r : FaultRec => r.fid = f ∧ r.tick / 25000 = s.tick / 25000
    sameBytes s t ∧ t.flash = s.flash ∧
    ((∀ e ∈ s.log.slots, ¬now e.2) → ∃ r, SMap.find? t.log.slots s.log.writeIndex = some r ∧ r.fid = f ∧ r.severity = sev ∧ r.phys = phys ∧
      r.count = 1 ∧ r.tick = s.tick ∧ r.reporter = s.node ∧ r.seq = s.log.lastSeq + 1 ∧ r.detail = BitVec.ofNat 64 det ∧
      t.log.lastSeq = s.log.lastSeq + 1 ∧ t.log.writeIndex = (s.log.writeIndex + 1) % 255 ∧ t.hif.attn.testBit atFAULT = true) ∧
    (∀ i r, s.log.slots = [(i, r)] → now r →
      t = { s with log := { s.log with slots := [(i, { r with count := min (r.count + 1) 0xFFFFFFFF })] } }) ∧
    ((∃ e ∈ s.log.slots, now e.2) → ∃ i r, s.faultSlot f = some i ∧ (i, r) ∈ s.log.slots ∧ now r ∧ (SMap.find? s.log.slots i = some r →
      t = { s with log := { s.log with slots := SMap.put s.log.slots i { r with count := min (r.count + 1) 0xFFFFFFFF } } }))

/-- R371, R372, R381 and R361 to R363: the MP acts on the records of closed windows, and persists them in SEQ order while flash may be
written, a run or a part of one at a time (the model's choice, notes/assumptions/97.md); while it may not, what is due is put off behind the
writes put off before it; a scrub access checks the next group of its unit's memory, logs
what it found there, and ends the lap with the highest; a lap longer than its limit is overdue. That an access takes one group of 64 bytes
is the model's reading (notes/assumptions/74.md).
R250, R358 and R360: a correctable error changes no byte of memory; under parity there is none; else it is logged as a CE record with the
code that protects its place, and at a store it counts and names its bank; one that a LOAD of a core meets in the store is logged so, and RD
takes the corrected bytes. -/
def Obligations.FaultUpkeep : Prop :=
  ∀ (s : State) (u : Nat) (found : Option (Nat × Nat)) (more : List (Nat × Nat)) (part : Option Nat),
    (s.mpRunning = true → exec .faultWindowClose s = .next (s.actOnRecords false) ∧
      (s.nvHeld = false → exec (.faultLogPersist part) s = .next (s.persistSome part) ∧
        s.persistSome none = { s.persistAll s.toPersist with log := { (s.persistAll s.toPersist).log with persistBusy := false } }) ∧
      (s.nvHeld = true → s.log.persistBusy = false → ∃ t, exec (.faultLogPersist part) s = .next t ∧ t = { s with deferred := t.deferred } ∧
        (s.toPersist = [] → t = s) ∧ ∀ r, s.toPersist.getLast? = some r → Deferred.persist r.seq ∉ s.deferred →
          t.deferred = s.deferred ++ [.persist r.seq])) ∧
    (scrubOk u = true → s.scrubMay u = true →
      let x := s.scrubOf u
      let v := (found.toList ++ more).foldl (fun v e => v.scrubFound u e) s
      ((x.pos + 1) * 64 < s.scrubBytes u → exec (.scrubAccess u found more) s = .next (v.setScrub u { v.scrubOf u with pos := x.pos + 1 })) ∧
      (s.scrubBytes u ≤ (x.pos + 1) * 64 → exec (.scrubAccess u found more) s = .next (v.lapEnds u)) ∧
      ∀ loc det, s.scrubFound u (loc, det) =
        if scrubBase u + x.pos * 64 ≤ loc ∧ loc < scrubBase u + x.pos * 64 + 64 then s.correctedAt u loc (det % 2 ^ 63 + 2 ^ 63) else s) ∧
    (scrubOk u = true → s.scrubMay u = false → exec (.scrubAccess u found more) s = .next s) ∧
    ((s.lapEnds u).scrubOf u).pos = 0 ∧ ((s.lapEnds u).scrubOf u).lapStart = s.tick ∧ ((s.lapEnds u).scrubOf u).overdue = false ∧
    (scrubOk u = true → s.up = true → 0 < s.scrubBytes u → s.scrubLimit u < s.tick - (s.scrubOf u).lapStart →
      exec (.scrubOverdue u) s = .next (s.setScrub u { s.scrubOf u with overdue := true })) ∧
    ∀ loc det,
      let t := s.correctedAt u loc det
      let code := if u < 524 then 0 else s.codeOf loc
      sameBytes s t ∧ t.descs = s.descs ∧ (code = 2 → t = s) ∧
      (code ≠ 2 → t.log = (s.logFault { kind := fkCE, subject := s.node, unit := scrubUnit u, location := loc } 1 (s.scrubPhys u loc)
        (det / 4 * 4 + code)).log) ∧
      (u < 512 → (t.cluster u).ceCount = min ((s.cluster u).ceCount + 1) 0xFFFF ∧ (t.cluster u).ceLastBank = loc / 64 % 32) ∧
      (∀ n, n ≠ u → t.cluster n = s.cluster n) ∧
      ∀ k w, s.coreAt k opLOAD w = true → (s.core k).pc < 8191 →
        let a := ((s.core k).reg (iRa w) + BitVec.ofInt 64 (iImm w)).toNat
        (a % 8 = 0 → a < 0x600000 →
          exec (.coreLoad k (some det)) s = exec (.coreLoad k none) (s.corrected (storeBase (k / 16) + a) det)) ∧
        (0x600000 ≤ a → exec (.coreLoad k (some det)) s = exec (.coreLoad k none) s)

/-! ### Power domains and envelopes (17) -/

/-- R384 to R386: an idle domain that is not forced on goes to retain, or to off, when its timer has run; at the end of a transition it
is there, and what went off has lost its contents; a wake that ends puts it on, counts, and lets go on what waited.
R190: a wake that has not ended in its bound counts and is logged, and owes ABORTED to every descriptor that waits on it; that the domain is
then where it came from is the model's reading (notes/assumptions/79.md).
An engine that the envelope keeps off goes on from retain to off once it is drained (R232). -/
def Obligations.DomainsSleepAndWake : Prop :=
  (∀ (s : State) (d : Nat), domainOk d = true →
      let x := s.dom d
      (s.up = true → s.domIdle d = true → x.force ≠ 1 → s.idleFor d x.retainAfter = true → ∃ t, exec (.domainRetainTimeout d) s = .next t ∧
        (t.dom d).st = .toRetain ∧ (∀ e, e ≠ d → t.dom e = s.dom e) ∧ t = { s with domains := t.domains }) ∧
      (s.up = true → s.domIdle d = true ∨ x.st = .retain ∧ x.wanted = false → x.force ≠ 1 → s.idleFor d x.offAfter = true →
        ∃ t, exec (.domainOffTimeout d) s = .next t ∧ (t.dom d).st = .toOff ∧ (∀ e, e ≠ d → t.dom e = s.dom e) ∧ t = { s with domains := t.domains }) ∧
      (x.st = .toRetain → x.wanted = false → x.force = 0 →
        (s.envOff d = false → exec (.domainSleepComplete d) s = .next (s.setDom d { x with st := .retain, wanted := false })) ∧
        (s.envOff d = true → s.engineDrained (d - 40) = true →
          exec (.domainSleepComplete d) s = .next (s.setDom d { x with st := .toOff, wanted := false }))) ∧
      (x.st = .toOff → x.wanted = false → x.force = 0 → ∃ t, exec (.domainSleepComplete d) s = .next t ∧ (t.dom d).st = .off ∧
        (d < 32 → (∀ n, n / 16 = d → t.cluster n = {}) ∧ ∀ n, n / 16 ≠ d → t.cluster n = s.cluster n) ∧ (32 ≤ d → d < 40 → t.port (d - 32) = {})) ∧
      (s.waking d = true → ∀ lost, exec (.domainWakeComplete d lost) s = .next (s.awake d lost) ∧ ((s.wakeEnds d lost).dom d).st = .on ∧
        ((s.wakeEnds d lost).dom d).wakes = min (x.wakes + 1) 0xFFFFFF)) ∧
  ∀ (s : State) (d phase : Nat), domainOk d = true → 1 ≤ phase → phase ≤ 3 → s.waking d = true →
    (s.runOut ((s.dom d).wakeAt + s.wakeBound d) = true → exec (.wakeFail d phase) s = .next (s.failWake d phase)) ∧
    (s.runOut ((s.dom d).wakeAt + s.wakeBound d) = false → exec (.wakeFail d phase) s = .next s) ∧
    (∀ e ∈ (s.abortWaiting d).descs, ∃ e0 ∈ s.descs, e.id = e0.id ∧ (s.waitsOn d e0 = true → ∃ fl r, e.work = .done stABORTED fl r)) ∧
    (∀ x, s.descs = [x] → s.waitsOn d x = true → x.work = .queued → (s.abortWaiting d).descs = [{ x with work := .done stABORTED 0 0 }])

/-- R390 and R391: the falls end once every fall has completed and the rises once every rise has; after the rises, with no restart asked for,
the target's settings hold, and the switch is counted with its duration. When that is so is the model's reading (notes/assumptions/58.md):
every engine that is turned off is off and every port that exchanges flits has narrowed, and no engine wakes and every alive port has widened as
far as its partner allows. -/
def Obligations.EnvelopesSwitch : Prop :=
  ∀ s : State, s.up = true →
    let fell := (∀ e, e < 4 → e < s.env.engines ∨ (s.dom (40 + e)).st = .off) ∧ ∀ p, p < 8 → (s.port p).st < 3 ∨ (s.port p).width ≤ s.lanesOk
    let rose := (∀ e, e < 4 → s.waking (40 + e) = false) ∧
      ∀ p, p < 8 → (s.port p).alive = true → (s.port p).widening = none ∧ s.widthNow (s.port p) ≤ (s.port p).width
    (s.env.phase = .falls → (fell → exec .envelopeFallsEnd s = .next s.endFalls.resume) ∧ (¬fell → exec .envelopeFallsEnd s = .next s)) ∧
    (s.env.phase = .rises →
      (rose → exec .envelopeRisesEnd s = .next s.endRises) ∧ (¬rose → exec .envelopeRisesEnd s = .next s) ∧
      (s.env.restart = false → s.endRises = { s with env := { s.env with
        clock := (envSet s.env.target).clock, lanes := (envSet s.env.target).lanes, phase := .steady, inForce := s.env.target
        lastSwitch := min (s.tick - s.env.startedAt) 0xFFFFFFFF, switches := min (s.env.switches + 1) 0xFFFF } }))

/-- R263, R324, R325, R265 and R260: a recalibration slot begins at its tick and ends after its length, and is counted: that the periods of 320
of a board channel share their slots, and that SLOT_WAIT takes the end's operand where it is more than what the model saw wait, are the model's
readings (notes/assumptions/81.md). A prefetch puts
SRC's bytes at STAGE, and a write-back STAGE's at SRC, and no other byte of memory differs before what may then run does; a line on a
retired page stays as it is, and a prefetch that meets one sets PF_FAILED, as the model reads R265 (notes/assumptions/82.md). A prefetch waits for a write-back that still writes what it reads
(R262). While a far-tier link recovers its accesses wait. -/
def Obligations.TierEvents : Prop :=
  ∀ (s : State) (r b port waited : Nat) (ces : List (Nat × Nat)),
    let c : Recal := s.recal.get {} r
    let p := (s.bkt b).runningPf
    let q := (s.bkt b).wb
    let whole := fun z : PfRec => s.touchesRetired z.src z.bytes = false ∧ s.touchesRetired z.stage z.bytes = false
    (tierOk r = true → s.domOn (unitDomain r) = true → slotTick r s.tick = true → c.inSlot = false → ∃ t, exec (.recalSlotStart r) s = .next t ∧
      t.recal.get {} r = { c with inSlot := true, startTick := s.tick, waited := 0 } ∧ (∀ i, i ≠ r → t.recal.get {} i = s.recal.get {} i) ∧ t = { s with recal := t.recal }) ∧
    (tierOk r = true → c.inSlot = true → c.reloading = false → c.startTick + slotLength r c.startTick ≤ s.tick → ∃ u : State,
      exec (.recalSlotEnd r waited) s = .next u.resume ∧ u = { s with recal := u.recal } ∧
      u.recal.get {} r = { c with inSlot := false, slots := min (c.slots + 1) 0xFFFF
                                  slotWait := min (c.slotWait + min (max c.waited waited) (slotLength r c.startTick)) 0xFFFF }) ∧
    (bucketOk b = true → (s.bkt b).pfBusy = true → s.behindWriteBack b = false → s.asleep (s.pfGates p) = [] → ∃ u : State,
      exec (.prefetchEnd b ces) s = .next u.advance ∧ sameBytesBut s u p.stage p.bytes ∧
      (whole p → u.readBytes p.stage p.bytes = s.readBytes p.src p.bytes) ∧
      (¬whole p → (s.bkt b).pfStale = false → (u.bkt b).pfFailed = true ∧ (u.bkt b).pfBusy = false ∧
        ∀ x, s.touchesRetired (x / 64 * 64) 64 = true → p.stage % 64 = 0 → u.read8 x = s.read8 x)) ∧
    (bucketOk b = true → s.behindWriteBack b = true → exec (.prefetchEnd b ces) s = .next s) ∧
    (bucketOk b = true → (s.bkt b).wbBusy = true → s.asleep (s.pfGates q) = [] → ∃ u : State, exec (.stateWriteBackEnd b ces) s = .next u.advance ∧
      sameBytesBut s u q.src q.bytes ∧ (u.bkt b).wbBusy = false ∧ (whole q → u.readBytes q.src q.bytes = s.readBytes q.stage q.bytes)) ∧
    (farOk port = true → s.up = true → (s.tiers.get {} (24 + port) : Tier).state = 0 → ∃ t, exec (.farLinkRecoveryStart port) s = .next t ∧
      (t.tiers.get {} (24 + port) : Tier).recovering = true ∧ t.domOn (64 + (24 + port)) = false ∧ t = { s with tiers := t.tiers }) ∧
    (farOk port = true → (s.tiers.get {} (24 + port) : Tier).recovering = true → ∃ u : State, exec (.farLinkRecoveryEnd port) s = .next u.resume ∧
      (u.tiers.get {} (24 + port) : Tier).recovering = false ∧ u = { s with tiers := u.tiers })

/-! ### Gauze lanes (13) -/

/-- Table 13.7, R294 and R297: the steps of a rotation as this end sees them. A first MOVE begins one, a second at its freed lane moves the
stream back, each answered with MOVED; the partner's MOVED advances it or ends it; DRIFT puts a lane behind those named at a master, which
is the model's choice, as it is that DRIFT changes nothing at an odd port (notes/assumptions/61.md); WIDTH restripes while no rotation runs,
and waits for its end otherwise; an end that cannot take the width says what it takes. What a MOVE and a WIDTH take and answer beyond Table
13.7 is the model's reading, and so is that a WIDTH of 8 at a port of width 16 that could keep 16 tells the partner's active lanes
(notes/assumptions/60.md). The master begins a rotation when one is due, moves back once the freed lane has adapted, and ends a widening once
its added lanes have. -/
def Obligations.LanesRotate : Prop :=
  ∀ (s : State) (p l i w : Nat), portOk p = true → laneOk l = true → physOk i = true → (s.port p).alive = true →
    let x := s.port p
    let said : Action := { code := 2, arg0 := l, arg1 := 0 }
    let y : Port := if w = 8 ∧ x.width = 16 ∧ s.widthNow x = 16 then { x with partnerActive := 8 } else x
    let v := min w (s.widthNow y)
    (∀ old, x.rotation = none → x.carrier l = some old → exec (.move p l i) s =
      .next (s.setPort p { x with rotation := some { logical := l, old := old, new := i, phase := 2 }, actions := x.actions ++ [said] })) ∧
    (∀ r, x.rotation = some r → r.logical = l →
      (r.phase = 3 → r.old = i → exec (.move p l i) s = .next (s.setPort p { x with rotation := some { r with phase := 4 }, actions := x.actions ++ [said] })) ∧
      (r.phase = 2 → exec (.moved p l) s = .next (s.setPort p { x with rotation := some { r with phase := 3 } })) ∧
      (r.phase = 4 → exec (.moved p l) s = .next (s.endRotation p))) ∧
    (x.rotation = none → w = 4 ∨ w = 8 ∨ w = 16 → exec (.width p w) s = .next (s.setPort p
      { y.setWidth v with
        widthNext := none, widening := if v < s.widthNow y then y.widening else none
        actions := (y.setWidth v).actions ++ if v < w then [{ code := 4, arg0 := v, arg1 := 0 }] else [] })) ∧
    (x.rotation ≠ none → w = 4 ∨ w = 8 ∨ w = 16 → exec (.width p w) s = .next (s.setPort p { y with widthNext := some w })) ∧
    (p % 2 = 0 → exec (.drift p l) s = .next (s.setPort p (x.nameLane l)) ∧ l ∈ (x.nameLane l).rotateNext ∧
      ∀ j ∈ x.rotateNext, j ∈ (x.nameLane l).rotateNext) ∧
    (p % 2 = 1 → exec (.drift p l) s = .next s) ∧
    (s.rotationDue p = true → exec (.calRotation p) s = .next (s.rotate p)) ∧
    (∀ n, x.rotation = none → x.widening = some n → exec (.laneAdaptEnd p) s = .next (s.endWidening p n)) ∧
    (∀ r, p % 2 = 0 → x.rotation = some r → r.phase = 3 → exec (.laneAdaptEnd p) s = .next (s.setPort p { x with
      rotation := some { r with phase := 4 }
      actions := x.actions ++ [{ code := 1, arg0 := r.logical, arg1 := r.old }, { code := 2, arg0 := r.logical, arg1 := 0 }] }))

/-- R295, R296, R294 and R298: a lane declared failed here or by the partner is handled at once, or after the rotation that runs; a margin
below 32 sets the lane's drift flag; once a telemetry window has ended its counts are loaded: those of this end's own flits, stalls and
turned packets, and what the lanes' receivers counted and measured. A command that names other counts changes nothing, which is the model's choice
(notes/assumptions/103.md). -/
def Obligations.LanesFailAndDrift : Prop :=
  ∀ (s : State) (p l i m tx rx stall : Nat) (fec margin : List Nat), portOk p = true → laneOk l = true → physOk i = true →
    let x := s.port p
    let n := x.counts s.tick
    (x.alive = true → x.rotation = none → (x.lane i).st ≠ 3 → exec (.laneFailureDetect p i) s = .next (s.laneFails p i)) ∧
    (x.alive = true → x.rotation ≠ none → (x.lane i).st ≠ 3 →
      exec (.laneFailureDetect p i) s = .next (s.setPort p { x with failedDuring := x.failedDuring ++ [i] })) ∧
    (x.alive = true → x.rotation = none → exec (.failed p l) s = .next (s.laneFailsThere p l)) ∧
    (x.alive = true → x.rotation ≠ none → exec (.failed p l) s = .next (s.setPort p { x with failedDuring := x.failedDuring ++ [32 + l] })) ∧
    (x.alive = true → m < 32 → ∃ t, exec (.driftAlarm p i m) s = .next t ∧ ((t.port p).lane i).drift = true ∧ ((t.port p).lane i).margin = m ∧
      (∀ q, q ≠ p → t.port q = s.port q) ∧ t = { s with ports := t.ports }) ∧
    (s.portOn p = true → s.windowEnded p = true →
      exec (.telemetryWindowEnd p n.tx n.rx n.stall fec margin) s = .next (s.loadTelemetry p fec margin) ∧
      ((∀ j, driftsAt x fec margin j = false) → ∃ t, s.loadTelemetry p fec margin = t ∧
        (∀ j, j < 18 → ((t.port p).lane j).fecCorr = min (fec.getD j 0) 0xFFFF ∧ ((t.port p).lane j).margin = margin.getD j (x.lane j).margin % 256) ∧
        (x.telNow.win = windowOf s.tick → x.telLast.win + 1 = windowOf s.tick →
          (t.port p).telTx = x.telLast.tx ∧ (t.port p).telRx = x.telLast.rx ∧ (t.port p).telStall = x.telLast.stall ∧
          (t.port p).telTurned = min x.telLast.turned 0xFFFF) ∧
        (t.port p).telStart = (windowOf s.tick - 1) * 25000 ∧ t.windowEnded p = false ∧
        (∀ q, q ≠ p → t.port q = s.port q) ∧ t = { s with ports := t.ports })) ∧
    (s.windowEnded p = false ∨ tx ≠ n.tx ∨ rx ≠ n.rx ∨ stall ≠ n.stall → exec (.telemetryWindowEnd p tx rx stall fec margin) s = .next s) ∧
    (windowOf s.tick ≤ x.telNext → s.windowEnded p = false)

/-! ### Gauze flits and links (13) -/

/-- R273 to R278 and R295: a data flit that is valid, outside a failed codeword and in sequence is accepted, and moves the expected SEQ on
by one; another, one whose CRC fails among them, makes a NAK due, unless one was sent within 25 ticks, and does not move it: that any
unexpected SEQ does so is the model's reading (notes/assumptions/59.md). The fourth failed codeword of a lane within 25 ticks declares the
lane failed; a codeword counts once, in FEC_UNCORR too, with the first of its flits, an idle or control flit as well (the model's reading,
notes/assumptions/61.md). A control flit acts once its CRC holds, and only counts otherwise; one that is due is sent, before flits that a NAK
asks for. An idle flit is noted. -/
def Obligations.FlitsArriveAndLeave : Prop :=
  ∀ (s : State) (p : Nat) (b : Bytes) (bad : Option (Nat × Nat)), portOk p = true → (s.port p).alive = true → b.length = 64 →
    (bad.all fun e => physOk e.1) = true →
    let x := s.port p
    let gives := fun i c => (x.lane i).st ≠ 3 ∧ (∀ e ∈ x.badAt, s.tick < e.2.2 + 25 → ¬(e.1 = i ∧ e.2.1 = c)) ∧
      3 ≤ (x.badAt.filter fun e => e.1 == i && decide (s.tick < e.2.2 + 25)).length
    let counted := s.setPort p { x with crcFail := min (x.crcFail + 1) 0xFFFF }
    (x.st = pUP → flKind b = 0 → flitCrcOk b = true → flSeq b = x.rxSeq → ∃ t, exec (.dataFlitReceive p b none) s = .next t ∧
      (t.port p).rxSeq = (x.rxSeq + 1) % 65536 ∧ (t.port p).lastValid = s.tick ∧ (t.port p).crcFail = x.crcFail ∧ sameBytes s t ∧
      (flTail b = false → t.arrived = s.arrived ∧ t.egress = s.egress)) ∧
    (x.st = pUP → flitCrcOk b = false ∨ flKind b = 0 ∧ (bad ≠ none ∨ flSeq b ≠ x.rxSeq) → x.nakAt = none → x.badAt = [] →
      ∃ t, exec (.dataFlitReceive p b bad) s = .next t ∧
        (t.port p).rxSeq = x.rxSeq ∧ (t.port p).nakDue = some x.rxSeq ∧ t = { s with ports := t.ports }) ∧
    (∀ i c, bad = some (i, c) → flKind b = 0 → gives i c → ∃ u : State, exec (.dataFlitReceive p b bad) s = .next (u.noteFailure p i) ∧
        ∃ c : Port, u = { s with ports := u.ports } ∧ u.port p = { x with
          lastValid := c.lastValid, crcFail := c.crcFail, fecUncorr := min (x.fecUncorr + 1) 0xFFFF, nakDue := c.nakDue, badAt := c.badAt }) ∧
    (flKind b = 2 → flitCrcOk b = true → exec (.idleFlitReceive p b none) s = .next (s.setPort p { x with lastValid := s.tick })) ∧
    (∀ i c, bad = some (i, c) → flKind b = 2 → x.badAt = [] →
      exec (.idleFlitReceive p b bad) s = .next ((s.setPort p (x.badCodeword i c s.tick)).receiveIdle p b) ∧
      (x.badCodeword i c s.tick).badAt = [(i, c, s.tick)] ∧ (x.badCodeword i c s.tick).badCodeword i c s.tick = x.badCodeword i c s.tick) ∧
    (∀ i c, bad = some (i, c) → flKind b = 2 → gives i c → ∃ u : State, exec (.idleFlitReceive p b bad) s = .next (u.noteFailure p i) ∧ (u.port p).fecUncorr = min (x.fecUncorr + 1) 0xFFFF) ∧
    (flitCrcOk b = false → exec (.idleFlitReceive p b none) s = .next counted ∧ exec (.controlFlitReceive p b none) s = .next counted) ∧
    (flKind b = 1 → flitCrcOk b = true → exec (.controlFlitReceive p b none) s = .next (s.receiveControl p (CtlFlit.ofBytes b))) ∧
    (s.controlDue p = true → exec (.controlFlitSend p) s = .next (s.sendControl p) ∧
      ((s.sendControl p).port p).sent = some (s.controlFlit p) ∧ ((s.sendControl p).port p).nakDue = none ∧
      (x.resend = [] → ((s.sendControl p).port p).line = x.line ++ [(s.controlFlit p).bytes]) ∧ (∀ i, s.chosen p i = false) ∧ s.sendAgain p = s)

/-- R273, R277 and Tables 13.1 and 13.3: every flit that the module sends has 64 bytes and its CRC-24, and what it carries reads back: of a
data flit its VC, class, HEAD, TAIL, SEQ and payload, of a control flit every field.
R280 and Tables 13.4 and 13.6: the payload bytes of the flits that carry a packet give the packet back: every field of its headers, and its
data without the padding of its last flit, for every kind whose header gives the length of its data. -/
def Obligations.FlitsCarryPacketsWhole : Prop :=
  (∀ f : Flit, f.wf = true → f.bytes.length = 64 ∧ flitCrcOk f.bytes = true ∧ flKind f.bytes = 0 ∧ flVc f.bytes = f.vc ∧ flClass f.bytes = f.cls ∧
    flHead f.bytes = f.head ∧ flTail f.bytes = f.tail ∧ flSeq f.bytes = f.seq ∧ (f.bytes.drop 3).take 58 = f.payload) ∧
  (∀ c : CtlFlit, c.wf = true → c.bytes.length = 64 ∧ flitCrcOk c.bytes = true ∧ flKind c.bytes = 1 ∧ CtlFlit.ofBytes c.bytes = c) ∧
  ∀ k : Packet, onWire k = true → pkOfWire k.cls (pkWire k) = k ∧ (pkWire k).length = 58 * pkFlits k ∧
    ∀ seq, ((pkToFlits k k.cls seq).map (·.payload)).flatten = pkWire k ∧ (pkToFlits k k.cls seq).length = pkFlits k

/-- R291 and R293: a port that has taken no valid flit for 200 ticks, or whose signal is lost on more than half of its lanes, declares its
link lost, which leaves the port DOWN with LOST, its cause and an empty replay buffer; a transaction whose request was sent 250,000 ticks ago
fails with NODE_LOST; a training that ends leaves the state that R286 and R288 give. -/
def Obligations.LinksAreLost : Prop :=
  ∀ (s : State) (p lanes node pod port active : Nat) (failed : List Nat) (k : Txn), portOk p = true →
    let x := s.port p
    (s.silent p = true → exec (.linkSilence p) s = .next (s.declareLost p lcSILENCE)) ∧
    (s.silent p = false → exec (.linkSilence p) s = .next s) ∧
    (x.alive = true → x.lastValid + 200 < s.tick → s.silent p = true) ∧ (s.tick < x.lastValid + 200 → s.silent p = false) ∧
    (x.alive = true → lanes ≤ 18 → x.width < 2 * lanes → exec (.lossOfSignal p lanes) s = .next (s.declareLost p lcLOS)) ∧
    (∀ cause, (x.lose cause).st = pDOWN ∧ (x.lose cause).lost = true ∧ (x.lose cause).cause = cause ∧ (x.lose cause).replay = []) ∧
    (s.txns.find? (·.txn == k.txn) = some k → k.queued = false → s.runOut (k.sent + 250000) = true →
      exec (.transactionTimeout k.txn) s = .next (s.respond k.txn stNODE_LOST 0 0 []).advance) ∧
    (s.txns.find? (·.txn == k.txn) = some k → k.queued = true → exec (.transactionTimeout k.txn) s = .next s) ∧
    (portOk port = true → active = 8 ∨ active = 16 → failed.all physOk = true → x.st = pTRAINING →
      exec (.trainingEnd p node pod port failed active) s = .next (s.endTraining p node pod port active failed).advance)

/-- Tables 13.8 and 13.9, R286, R287, R292 and R294: a write of 1 to LOST clears it, and a HELD port carries data again; RELEASE_HELD ends
the collectives held on the port; RETRAIN trains a port that is down or mismatched; CAL_NOW puts the lane named next. All while the
port's L-tile serves. -/
def Obligations.PortsTakeWrites : Prop :=
  ∀ (s : State) (p : Nat) (w : Wr), s.barTakes = true → portOk p = true → s.portOn p = true →
    let x := s.port p
    let u := s.setPort p { x with ctlLane := w.upd 1 4 x.ctlLane }
    (w.sets 3 = true → w.sets 14 = false → exec (.lostClear p w) s = .next (s.setPort p { x with
      lost := false, st := if x.lost = true ∧ x.st = pHELD then pUP else x.st })) ∧
    (w.sets 0 = true → w.sets 5 = false → w.sets 6 = false → exec (.calNow p w) s = .next (u.calibrateNext p (w.upd 1 4 x.ctlLane))) ∧
    (w.sets 0 = false → w.sets 5 = true → w.sets 6 = false → exec (.releaseHeld p w) s = .next (u.releaseHeld p)) ∧
    (w.sets 0 = false → w.sets 5 = false → w.sets 6 = true → exec (.retrain p w) s = .next (u.retrain p)) ∧
    (s.portUsed p = true → x.st = pDOWN ∨ x.st = pMISMATCH → (u.retrain p).port p = { (u.train p).port p with st := pTRAINING }) ∧
    (x.st = pUP ∨ s.portUsed p = false → u.retrain p = u)

/-- R278, R279, R284 and R285: the packet whose turn it is leaves by the port of its route, into the replay buffer; one that has no port
to leave by is delivered here or answered with NODE_LOST, and one whose port cannot take it yet stays.
R293, R374 and R375: a beacon settles whose record is the primary one, is remembered until the end of the next window, goes on to the
other ports, and ends what crosses the lost link, once for each loss, as the model reads it (notes/assumptions/98.md); the memory of a fault ends with its window. -/
def Obligations.PacketsAndBeaconsMoveOn : Prop :=
  (∀ (s : State) (i : Nat) (k : Packet), s.egress[i]? = some k →
      (∀ p q, s.exit? k = some (p, q) → s.chosen p i = true → ∃ t : State, exec (.packetForward i) s = .next t.returnSlots ∧ t.egress = s.egress.eraseIdx i ∧
        let fs := pkToFlits q q.cls (s.port p).txSeq
        (t.port p).replay = (s.port p).replay ++ fs ∧ (t.port p).line = (s.port p).line ++ fs.map Flit.bytes ∧
        (t.port p).txSeq = ((s.port p).txSeq + pkFlits q) % 65536 ∧ t.txns = (s.noteSent q).txns ∧
        (∀ n, n ≠ p → t.port n = s.port n) ∧ t = { s with egress := t.egress, ports := t.ports, txns := t.txns }) ∧
      (∀ p q, s.exit? k = some (p, q) → s.chosen p i = false → exec (.packetForward i) s = .next s) ∧
      (s.exit? k = none → s.nextHop k = .deliver → exec (.packetForward i) s =
        .next (({ s with egress := s.egress.eraseIdx i, arrived := s.arrived ++ [k] } : State).noteSent k)) ∧
      (s.exit? k = none → s.nextHop k = .lost →
        exec (.packetForward i) s = .next (({ s with egress := s.egress.eraseIdx i } : State).refuseLost k).advance.returnSlots)) ∧
  ∀ (s : State) (p : Nat) (k : Packet) (f : FaultId),
    (portOk p = true → s.holds k = true → k.kind = kBEACON →
      let x := BeaconData.ofPacket k
      let u := (s.take k).settlePrimary x
      exec (.beacon p k) s =
        .next (((((u.seeFault x.fid x.origin).forwardBeacon p x).learnLoss (s.topo.portLink x.node x.port) x.tick).advance).returnSlots) ∧
      (∀ v : State, ∀ l n, v.knowsLoss l n = true → v.learnLoss l n = v) ∧
      (∀ v : State, ∀ l n, v.knowsLoss l n = false → v.learnLoss l n = (v.noteLoss l n).failLink l) ∧
      ∃ e ∈ (u.seeFault x.fid x.origin).log.seen, e.1 = x.fid ∧ e.2.2 = (windowOf s.tick + 2) * 25000) ∧
    ∃ t, exec (.beaconSeenExpiry f) s = .next t ∧ t = { s with log := { s.log with seen := t.log.seen } } ∧
      ∀ e, e ∈ t.log.seen ↔ e ∈ s.log.seen ∧ ¬(e.1 = f ∧ e.2.2 ≤ s.tick)

/-! ### Packets at their destination (13, 14, 15) -/

/-- R280, R283 and R348: a packet whole at this module is taken off the arrivals and served by its kind and subkind, in the order of its
source and VC. RACC, BUCKET, DELTA and COLL packets alone are checked first: with E = CURRENT_EPOCH, one of epoch E is accepted, but for
RACC, BUCKET and DELTA once a switch has begun; one of epoch E' = PENDING_EPOCH once a switch has begun completes it first and is then
accepted, unless the switch is held (the model's reading of R356, notes/assumptions/43.md); any other is counted and answered with EPOCH_STALE, and
does nothing else; that PARAM_DATA ends the read that it would answer instead is the model's reading (notes/assumptions/90.md). A segment of
a stage queue's later message waits for its turn (the model's reading, notes/assumptions/117.md). -/
def Obligations.PacketsAreServed : Prop :=
  ∀ (s : State) (k : Packet) (m : Meets), s.holds k = true → ∀ e ∈ packetRows k m, e.1 = true →
    let u := s.take k
    let checked := k.kind = kRACC ∨ k.kind = kBUCKET ∨ k.kind = kDELTA ∨ k.kind = kCOLL
    let accepted := k.epoch = s.epochNow ∧ (s.shard.begun = false ∨ k.kind = kCOLL)
    let switches := k.epoch ≠ s.epochNow ∧ s.shard.begun = true ∧ s.switchHeld = false ∧ k.epoch = s.epochPending
    (s.firstOfItsVc k = false ∨ s.stageTurn k = false → exec e.2 s = .next s) ∧
    (s.firstOfItsVc k = true → s.stageTurn k = true →
      (¬checked ∨ accepted → exec e.2 s = .next (u.servePacket k m).advance.returnSlots) ∧
      (checked → switches → exec e.2 s = .next ((u.decideSwitch 0).servePacket k m).advance.returnSlots) ∧
      (checked → ¬accepted → ¬switches →
        (¬(k.kind = kCOLL ∧ coSub k = skPARAM_DATA) → exec e.2 s = .next (u.countStale.answer k stEPOCH_STALE 0).advance.returnSlots) ∧
        (k.kind = kCOLL → coSub k = skPARAM_DATA → exec e.2 s = .next (u.countStale.respond k.txn stEPOCH_STALE 0 0 []).advance.returnSlots)))

/-- R280, R281 and R166, with nothing else under way here: a WRITE to memory that serves puts its data there and nowhere else, a READ_REQ
changes no byte of memory, a SIGNAL adds to its counter and to no other; each is answered by exactly one packet to its sender, under its
transaction, with status OK.
R280 and R331: the last response to a bucket's forward ends its transaction, and the forward has landed when every status was OK; one to an
earlier forward of the bucket says nothing of it; a response
that nothing waits for ends its transaction alone; a response to none is discarded. -/
def Obligations.MemoryPacketsAct : Prop :=
  (∀ (s : State) (k : Packet), s.holds k = true → s.firstOfItsVc k = true → s.descs = [] →
      (∀ x ∈ s.txns, x.queued = true → s.partnerLost x.dst = false) →
      let answered := fun (t : State) (kind status : Nat) (data : Bytes) => ∃ r : Packet, t.egress = s.egress ++ [r] ∧ r.dst = k.src ∧ r.src = s.node ∧
        r.kind = kind ∧ r.txn = k.txn ∧ r.hdr = opHeader k.addr data.length 0 status 0 0 ∧ r.data = data
      (k.kind = kWRITE → s.rangeStatus k.addr k.data.length false = stOK → s.asleep (s.rangeDomains k.addr k.data.length) = [] →
        ∃ t, exec (.write k {}) s = .next t ∧ t.readBytes k.addr k.data.length = k.data ∧ sameBytesBut s t k.addr k.data.length ∧ answered t kACK stOK []) ∧
      (k.kind = kWRITE → ∀ st, s.rangeStatus k.addr k.data.length false = st → st ≠ stOK →
        ∃ t, exec (.write k {}) s = .next t ∧ sameBytes s t ∧ answered t kACK st []) ∧
      (k.kind = kREAD_REQ → s.populated k.addr k.bytes = true → s.touchesRetired k.addr k.bytes = false → 0 < k.bytes →
        s.asleep (s.rangeDomains k.addr k.bytes) = [] →
        ∃ t, exec (.readReq k {}) s = .next t ∧ sameBytes s t ∧ answered t kREAD_RESP stOK (s.readBytes k.addr k.bytes)) ∧
      (k.kind = kSIGNAL → s.clusterPresent (k.addr / 64) = true → s.domOn (k.addr / 64 / 16) = true →
        ∃ t, exec (.signalPacket k) s = .next t ∧ sameBytes s t ∧ answered t kACK stOK [] ∧
          ∀ n c, t.counter n c = if n = k.addr / 64 ∧ c = k.addr % 64 then s.counter n c + BitVec.ofNat 32 (field k.data 0 4) else s.counter n c)) ∧
  ∀ (s : State) (n st fl resp : Nat) (data : Bytes),
    ((∀ t ∈ s.txns, t.txn ≠ n) → s.respond n st fl resp data = s) ∧
    (∀ t b id, s.txns = [t] → t.txn = n → t.use = .mirror b id →
      let u := s.respond n st fl resp data
      u.txns = [] ∧ ((s.bkt b).fwdSent = true → (s.bkt b).fwdId = id →
        (st = stOK → (s.bkt b).fwdFailed = false → (u.bkt b).fwdDone = true) ∧
        (st ≠ stOK → (u.bkt b).fwdFailed = true ∧ (u.bkt b).fwdDone = (s.bkt b).fwdDone)) ∧
      ((s.bkt b).fwdSent = false ∨ (s.bkt b).fwdId ≠ id → u.bkt b = s.bkt b)) ∧
    (∀ t, s.txns = [t] → t.txn = n → t.use = .plain → s.respond n st fl resp data = { s with txns := [] })

/-- R302: a contribution to an open bucket that this module owns counts n in COUNT when its step is the bucket's and COUNT stays at most
EXPECTED, which it then completes when it reaches it; one for another step, or one too many, counts nothing and marks the bucket; one
for a bucket that the module neither owns nor mirrors is stray. That one at a bucket's mirror changes nothing is the model's reading
(notes/assumptions/40.md). -/
def Obligations.BucketsCount : Prop :=
  ∀ (s : State) (b n step : Nat) (r : BucketRec),
    let x := s.bkt b
    (s.bucketRec b = some r → s.role b = some false → x.countN = 0xFFFFFFFF - x.count →
      (x.step ≠ step ∨ x.eff ≠ .opened ∨ r.expected < x.count + n → s.countBucket b n step = s.setBkt b { x with
        fault := true, misstep := x.misstep || x.step != step
        overcount := x.overcount || (x.eff != .opened || decide (r.expected < x.count + n)) }) ∧
      (x.step = step → x.eff = .opened → x.count + n ≤ r.expected → s.countBucket b n step = (s.setBkt b
        ({ x with count := x.count + n, countN := 0xFFFFFFFF - (x.count + n) }.goto (if x.count + n = r.expected then .complete else .opened))).checkPrefetch b)) ∧
    (s.role b = none → s.countBucket b n step = { s with grad := { s.grad with stray := min (s.grad.stray + 1) 0xFFFF } }) ∧
    (s.role b = some true → s.countBucket b n step = s)

/-- R340 and R343 to R345: a segment of the next bytes that its group feeds into a stage queue is offered, and starts once it has credit and
its source serves: to the stage's module as a STAGE_DATA packet, with SENT moved on by its length. One without credit waits, and each tick
that it does counts at its group. Which segments a stage offers, so that one that is not the next or that its group does not feed changes
nothing, is the model's reading (notes/assumptions/50.md). -/
def Obligations.StagesSend : Prop :=
  (∀ (s : State) (g : StageSeg), g.wf = true → s.up = true → s.shard.sends = [] →
      let key := stageKey g.stage g.dir
      let x := s.shard.tx.get {} key
      (s.feeds g = true → s.follows g = true →
        (s.lacksCredit g = false → s.stageNode g.stage ≠ s.node → s.touchesRetired g.src g.len = false → s.asleep (s.rangeDomains g.src g.len) = [] →
          ∃ t, exec (.stageSend g) s = .next t ∧ sameBytes s t ∧ t.shard.sends = [] ∧ (t.shard.tx.get {} key).sent = (x.sent + g.len) % 2 ^ 64 ∧
            (t.shard.tx.get {} key).freed = x.freed ∧ ∃ k : Packet, t.egress = s.egress ++ [k] ∧ k.dst = s.stageNode g.stage ∧ k.kind = kCOLL ∧
              k.data = s.readBytes g.src g.len) ∧
        (s.lacksCredit g = true → ∃ t, exec (.stageSend g) s = .next t ∧ sameBytes s t ∧ t.shard.sends = [g] ∧ t.egress = s.egress ∧
          (t.shard.tx.get {} key).sent = x.sent ∧ (t.shard.tx.get {} key).freed = x.freed)) ∧
      (s.feeds g = false ∨ s.follows g = false → exec (.stageSend g) s = .next s)) ∧
  ∀ (s : State) (g : StageSeg), s.shard.sends = [g] → s.lacksCredit g = true →
    let x := s.shard.stall.get (0, 0) g.group
    s.stageTick.shard.stall.get (0, 0) g.group =
      if g.dir = 0 then (min (x.1 + 1) 0xFFFFFFFF, x.2) else (x.1, min (x.2 + 1) 0xFFFFFFFF)

/-! ### Memory and the whole state -/

/-- R261 and R249: a byte reads what was last written there, and writing one leaves every other; SRAM that nothing has written reads 0.
R59: a range zeroed as a whole reads 0, and every other byte as before. -/
def Obligations.WrittenBytesRead : Prop :=
  (∀ (s : State) (a n x : Nat), (s.zeroRange a n).read8 x = if a ≤ x ∧ x < a + n then 0 else s.read8 x) ∧
  ∀ (s : State) (a x : Nat) (b : Byte),
    (s.write8 a b).read8 x = (if x = a then b else s.read8 x) ∧
    (∀ bs : Bytes, (s.writeBytes a bs).readBytes a bs.length = bs ∧ (x < a ∨ a + bs.length ≤ x → (s.writeBytes a bs).read8 x = s.read8 x)) ∧
    (isSram x = true → SMap.find? s.mem x = none → s.read8 x = 0)

/-- The memory at reset is in its canonical form (the model's choice of representation, notes/assumptions/4.md). -/
def Obligations.MemoryFormAtReset : Prop := State.reset.MemForm

/-- Every step keeps the memory in its canonical form, the model's own representation (notes/assumptions/4.md): addresses rising, and no 0
listed where an unlisted byte reads 0. -/
def Obligations.StepsKeepMemoryForm : Prop := ∀ s t : State, s.MemForm → step s = .next t → t.MemForm

/-- R387: no step moves TMR_TICK back, unless it takes or gives the flannel domain its supply. -/
def Obligations.TimeNeverGoesBack : Prop :=
  ∀ (s t : State) (c : Instr), c ≠ .flannelPowerUp → c ≠ .flannelPowerLoss → exec c s = .next t → s.tick ≤ t.tick

/-- No command touches the queue of commands that wait (the model's own queue, notes/assumptions/1.md). -/
def Obligations.CommandsLeaveTheQueue : Prop := ∀ (s t : State) (c : Instr), exec c s = .next t → t.pending = s.pending

/-- What the machine holds right after reset, where the spec says it: every switched domain off, TMR_TICK 0, an empty log with LAST_RESET 0,
no image in force, GENERATION 0, no queue or ring enabled, no descriptor under way; and the reset values of Table 17.10. That the model starts
before the first start, and that a core's registers then hold 0, are its own choices (notes/assumptions/7.md and 10.md); this says nothing of
supply and pin levels. -/
def Obligations.ResetValues : Prop :=
  let s := State.reset
  s.pending = [] ∧ s.tick = 0 ∧ s.log = {} ∧ s.log.lastReset = lrPOWER_UP ∧ s.up = false ∧ s.startPhase = 0 ∧ s.calico.generation = 0 ∧ s.epochNow = 0 ∧
  s.dmk.inForce = none ∧ (∀ q, (s.sq q).enable = false ∧ (s.cq q).enable = false ∧ (s.sq q).sizeLog2 = 4) ∧ s.descs = [] ∧ s.txns = [] ∧
  (∀ d, (s.dom d).st = .off ∧ (s.dom d).force = 0) ∧ (∀ d, d < 32 → (s.dom d).retainAfter = 100 ∧ (s.dom d).offAfter = 1000000) ∧
  (∀ d, 32 ≤ d → d < 40 → (s.dom d).retainAfter = 1000 ∧ (s.dom d).offAfter = 10000000) ∧
  (∀ d, 40 ≤ d → d < 44 → (s.dom d).retainAfter = 1000 ∧ (s.dom d).offAfter = 0) ∧
  (∀ d, 44 ≤ d → d < 47 → (s.dom d).retainAfter = 0 ∧ (s.dom d).offAfter = 0) ∧
  (∀ d, 47 ≤ d → d < 58 → (s.dom d).retainAfter = 10000 ∧ (s.dom d).offAfter = 0) ∧
  (∀ k, (s.core k).st = .idle ∧ (s.core k).pc = 0 ∧ ∀ i, (s.core k).reg i = 0) ∧ (∀ n c, s.counter n c = 0) ∧ s.hif.attn = 0 ∧ s.hif.bar2Base = 0 ∧
  s.scrLimits = (1, 72, 2048, 4096)
end

