-- ==== Sys2Proof/Laws/Exec.lean ====
section
/-! SUPPORT. exec on each command is that command's meaning. -/

namespace Sys2Proof.Machine

@[simp] theorem exec_matmul (o : Offer) (s : State) : exec (.matmul o) s = execMatmul o s := rfl
@[simp] theorem exec_matmulStart (n : Nat) (s : State) : exec (.matmulStart n) s = execMatmulStart n s := rfl
@[simp] theorem exec_matmulIntervalEnd (n busy : Nat) (s : State) : exec (.matmulIntervalEnd n busy) s = execMatmulIntervalEnd n busy s := rfl
@[simp] theorem exec_matmulWritebackEnd (n busy : Nat) (s : State) : exec (.matmulWritebackEnd n busy) s = execMatmulWritebackEnd n busy s := rfl
@[simp] theorem exec_curvgather (o : Offer) (s : State) : exec (.curvgather o) s = execCurvgather o s := rfl
@[simp] theorem exec_deltaSegmentRetry (id : Nat) (s : State) : exec (.deltaSegmentRetry id) s = execDeltaSegmentRetry id s := rfl
@[simp] theorem exec_vecop (o : Offer) (s : State) : exec (.vecop o) s = execVecop o s := rfl
@[simp] theorem exec_vectorDescriptorStart (n cycle : Nat) (delays : List Nat) (s : State) : exec (.vectorDescriptorStart n cycle delays) s = execVectorDescriptorStart n cycle delays s := rfl
@[simp] theorem exec_compress (o : Offer) (s : State) : exec (.compress o) s = execCompress o s := rfl
@[simp] theorem exec_expand (o : Offer) (s : State) : exec (.expand o) s = execExpand o s := rfl
@[simp] theorem exec_stashPut (o : Offer) (s : State) : exec (.stashPut o) s = execStashPut o s := rfl
@[simp] theorem exec_stashGet (o : Offer) (s : State) : exec (.stashGet o) s = execStashGet o s := rfl
@[simp] theorem exec_stashTake (o : Offer) (s : State) : exec (.stashTake o) s = execStashTake o s := rfl
@[simp] theorem exec_stashFree (o : Offer) (s : State) : exec (.stashFree o) s = execStashFree o s := rfl
@[simp] theorem exec_copy (o : Offer) (s : State) : exec (.copy o) s = execCopy o s := rfl
@[simp] theorem exec_racc (o : Offer) (s : State) : exec (.racc o) s = execRacc o s := rfl
@[simp] theorem exec_gather (o : Offer) (s : State) : exec (.gather o) s = execGather o s := rfl
@[simp] theorem exec_gatherRetry (id : Nat) (s : State) : exec (.gatherRetry id) s = execGatherRetry id s := rfl
@[simp] theorem exec_gatherDeadline (id : Nat) (s : State) : exec (.gatherDeadline id) s = execGatherDeadline id s := rfl
@[simp] theorem exec_gatherRoot (o : Offer) (s : State) : exec (.gatherRoot o) s = execGatherRoot o s := rfl
@[simp] theorem exec_drop (o : Offer) (s : State) : exec (.drop o) s = execDrop o s := rfl
@[simp] theorem exec_dropRoot (o : Offer) (s : State) : exec (.dropRoot o) s = execDropRoot o s := rfl
@[simp] theorem exec_bcast (o : Offer) (s : State) : exec (.bcast o) s = execBcast o s := rfl
@[simp] theorem exec_permute (o : Offer) (s : State) : exec (.permute o) s = execPermute o s := rfl
@[simp] theorem exec_permuteDrainTimeout (id : Nat) (s : State) : exec (.permuteDrainTimeout id) s = execPermuteDrainTimeout id s := rfl
@[simp] theorem exec_permuteFinal (s : State) : exec .permuteFinal s = execPermuteFinal s := rfl
@[simp] theorem exec_finalDrainTimeout (s : State) : exec .finalDrainTimeout s = execFinalDrainTimeout s := rfl
@[simp] theorem exec_gate (o : Offer) (s : State) : exec (.gate o) s = execGate o s := rfl
@[simp] theorem exec_gateRecordForm (ces : List (Nat × Nat)) (s : State) : exec (.gateRecordForm ces) s = execGateRecordForm s ces := rfl
@[simp] theorem exec_solve (o : Offer) (s : State) : exec (.solve o) s = execSolve o s := rfl
@[simp] theorem exec_solveStart (e : Nat) (s : State) : exec (.solveStart e) s = execSolveStart e s := rfl
@[simp] theorem exec_solveIterationEnd (e : Nat) (ces : List (Nat × Nat)) (s : State) : exec (.solveIterationEnd e ces) s = execSolveIterationEnd e s ces := rfl
@[simp] theorem exec_solveFactorisationEnd (e : Nat) (ces : List (Nat × Nat)) (s : State) : exec (.solveFactorisationEnd e ces) s = execSolveFactorisationEnd e s ces := rfl
@[simp] theorem exec_solveDeadline (id : Nat) (ces : List (Nat × Nat)) (s : State) : exec (.solveDeadline id ces) s = execSolveDeadline id s ces := rfl
@[simp] theorem exec_solvePublish (e : Nat) (ces : List (Nat × Nat)) (s : State) : exec (.solvePublish e ces) s = execSolvePublish e s ces := rfl
@[simp] theorem exec_fence (o : Offer) (s : State) : exec (.fence o) s = execFence o s := rfl
@[simp] theorem exec_signal (o : Offer) (s : State) : exec (.signal o) s = execSignal o s := rfl
@[simp] theorem exec_descriptorCompletion (id : Nat) (s : State) : exec (.descriptorCompletion id) s = execDescriptorCompletion id s := rfl
@[simp] theorem exec_trackerEntryGrant (n : Nat) (s : State) : exec (.trackerEntryGrant n) s = execTrackerEntryGrant n s := rfl
@[simp] theorem exec_issue (k : Nat) (m : OfferMeets) (s : State) : exec (.issue k m) s = execIssue k m s := rfl
@[simp] theorem exec_wait (k : Nat) (s : State) : exec (.wait k) s = execWait k s := rfl
@[simp] theorem exec_waitTimeout (k : Nat) (s : State) : exec (.waitTimeout k) s = execWaitTimeout k s := rfl
@[simp] theorem exec_loop (k : Nat) (s : State) : exec (.loop k) s = execLoop k s := rfl
@[simp] theorem exec_beq (k : Nat) (s : State) : exec (.beq k) s = execBeq k s := rfl
@[simp] theorem exec_bne (k : Nat) (s : State) : exec (.bne k) s = execBne k s := rfl
@[simp] theorem exec_blt (k : Nat) (s : State) : exec (.blt k) s = execBlt k s := rfl
@[simp] theorem exec_bge (k : Nat) (s : State) : exec (.bge k) s = execBge k s := rfl
@[simp] theorem exec_bltu (k : Nat) (s : State) : exec (.bltu k) s = execBltu k s := rfl
@[simp] theorem exec_bgeu (k : Nat) (s : State) : exec (.bgeu k) s = execBgeu k s := rfl
@[simp] theorem exec_jump (k : Nat) (s : State) : exec (.jump k) s = execJump k s := rfl
@[simp] theorem exec_add (k : Nat) (s : State) : exec (.add k) s = execAdd k s := rfl
@[simp] theorem exec_sub (k : Nat) (s : State) : exec (.sub k) s = execSub k s := rfl
@[simp] theorem exec_addi (k : Nat) (s : State) : exec (.addi k) s = execAddi k s := rfl
@[simp] theorem exec_shl (k : Nat) (s : State) : exec (.shl k) s = execShl k s := rfl
@[simp] theorem exec_shr (k : Nat) (s : State) : exec (.shr k) s = execShr k s := rfl
@[simp] theorem exec_sra (k : Nat) (s : State) : exec (.sra k) s = execSra k s := rfl
@[simp] theorem exec_and (k : Nat) (s : State) : exec (.and k) s = execAnd k s := rfl
@[simp] theorem exec_or (k : Nat) (s : State) : exec (.or k) s = execOr k s := rfl
@[simp] theorem exec_xor (k : Nat) (s : State) : exec (.xor k) s = execXor k s := rfl
@[simp] theorem exec_coreLoad (k : Nat) (ce : Option Nat) (s : State) : exec (.coreLoad k ce) s = execCoreLoad k ce s := rfl
@[simp] theorem exec_coreStore (k : Nat) (lost : Bool) (s : State) : exec (.coreStore k lost) s = execCoreStore k lost s := rfl
@[simp] theorem exec_storeRetry (k : Nat) (lost : Bool) (s : State) : exec (.storeRetry k lost) s = execStoreRetry k lost s := rfl
@[simp] theorem exec_coreFence (k : Nat) (s : State) : exec (.coreFence k) s = execCoreFence k s := rfl
@[simp] theorem exec_coreSignal (k : Nat) (s : State) : exec (.coreSignal k) s = execCoreSignal k s := rfl
@[simp] theorem exec_halt (k : Nat) (s : State) : exec (.halt k) s = execHalt k s := rfl
@[simp] theorem exec_sqDoorbell (q : Nat) (w : Wr) (s : State) : exec (.sqDoorbell q w) s = execSqDoorbell q w s := rfl
@[simp] theorem exec_sqEntryFetch (h : HostData) (m : OfferMeets) (s : State) : exec (.sqEntryFetch h m) s = execSqEntryFetch h m s := rfl
@[simp] theorem exec_fetchErrClear (q : Nat) (s : State) : exec (.fetchErrClear q) s = execFetchErrClear q s := rfl
@[simp] theorem exec_sqEnable (q : Nat) (w : Wr) (s : State) : exec (.sqEnable q w) s = execSqEnable q w s := rfl
@[simp] theorem exec_sqDisable (q : Nat) (w : Wr) (s : State) : exec (.sqDisable q w) s = execSqDisable q w s := rfl
@[simp] theorem exec_sqAbort (q : Nat) (w : Wr) (s : State) : exec (.sqAbort q w) s = execSqAbort q w s := rfl
@[simp] theorem exec_cqEnable (q : Nat) (w : Wr) (s : State) : exec (.cqEnable q w) s = execCqEnable q w s := rfl
@[simp] theorem exec_cqDisable (q : Nat) (w : Wr) (s : State) : exec (.cqDisable q w) s = execCqDisable q w s := rfl
@[simp] theorem exec_cqHeadWrite (q : Nat) (w : Wr) (s : State) : exec (.cqHeadWrite q w) s = execCqHeadWrite q w s := rfl
@[simp] theorem exec_dmkLoad (w : Wr) (nv : NvEnd) (s : State) : exec (.dmkLoad w nv) s = execDmkLoad w s nv := rfl
@[simp] theorem exec_damaskClearDone (s : State) : exec .damaskClearDone s = execDamaskClearDone s := rfl
@[simp] theorem exec_dmkStore (w : Wr) (nv : NvEnd) (s : State) : exec (.dmkStore w nv) s = execDmkStore w nv s := rfl
@[simp] theorem exec_dmkErase (w : Wr) (nv : NvEnd) (s : State) : exec (.dmkErase w nv) s = execDmkErase w s nv := rfl
@[simp] theorem exec_dmkSetBoot (w : Wr) (nv : NvEnd) (s : State) : exec (.dmkSetBoot w nv) s = execDmkSetBoot w s nv := rfl
@[simp] theorem exec_bootDamaskLoad (s : State) : exec .bootDamaskLoad s = execBootDamaskLoad s := rfl
@[simp] theorem exec_seqLoad (w : Wr) (ces : List (Nat × Nat)) (s : State) : exec (.seqLoad w ces) s = execSeqLoad w s ces := rfl
@[simp] theorem exec_seqStart (w : Wr) (s : State) : exec (.seqStart w) s = execSeqStart w s := rfl
@[simp] theorem exec_seqStop (w : Wr) (s : State) : exec (.seqStop w) s = execSeqStop w s := rfl
@[simp] theorem exec_retire (w : Wr) (nv : NvEnd) (s : State) : exec (.retire w nv) s = execRetire w nv s := rfl
@[simp] theorem exec_release (w : Wr) (nv : NvEnd) (s : State) : exec (.release w nv) s = execRelease w nv s := rfl
@[simp] theorem exec_stage (w : Wr) (nv : NvEnd) (s : State) : exec (.stage w nv) s = execStage w nv s := rfl
@[simp] theorem exec_activate (w : Wr) (s : State) : exec (.activate w) s = execActivate w s := rfl
@[simp] theorem exec_unstage (w : Wr) (s : State) : exec (.unstage w) s = execUnstage w s := rfl
@[simp] theorem exec_revert (w : Wr) (s : State) : exec (.revert w) s = execRevert w s := rfl
@[simp] theorem exec_mpBoot (adoptOk : Bool) (s : State) : exec (.mpBoot adoptOk) s = execMpBoot adoptOk s := rfl
@[simp] theorem exec_firmwareReload (component unit : Nat) (s : State) : exec (.firmwareReload component unit) s = execFirmwareReload component unit s := rfl
@[simp] theorem exec_calNow (p : Nat) (w : Wr) (s : State) : exec (.calNow p w) s = execCalNow p w s := rfl
@[simp] theorem exec_releaseHeld (p : Nat) (w : Wr) (s : State) : exec (.releaseHeld p w) s = execReleaseHeld p w s := rfl
@[simp] theorem exec_retrain (p : Nat) (w : Wr) (s : State) : exec (.retrain p w) s = execRetrain p w s := rfl
@[simp] theorem exec_lostClear (p : Nat) (w : Wr) (s : State) : exec (.lostClear p w) s = execLostClear p w s := rfl
@[simp] theorem exec_cancel (w : Wr) (s : State) : exec (.cancel w) s = execCancel w s := rfl
@[simp] theorem exec_clearBuckets (w : Wr) (s : State) : exec (.clearBuckets w) s = execClearBuckets w s := rfl
@[simp] theorem exec_unhold (w : Wr) (ces : List (Nat × Nat)) (s : State) : exec (.unhold w ces) s = execUnhold w s ces := rfl
@[simp] theorem exec_gblStepWrite (w : Wr) (s : State) : exec (.gblStepWrite w) s = execGblStepWrite w s := rfl
@[simp] theorem exec_gblBar2BaseWrite (w : Wr) (s : State) : exec (.gblBar2BaseWrite w) s = execGblBar2BaseWrite w s := rfl
@[simp] theorem exec_gblCounterWrite (n c : Nat) (w : Wr) (s : State) : exec (.gblCounterWrite n c w) s = execGblCounterWrite n c w s := rfl
@[simp] theorem exec_forcePolicy (d : Nat) (w : Wr) (s : State) : exec (.forcePolicy d w) s = execForcePolicy d w s := rfl
@[simp] theorem exec_forceOn (d : Nat) (w : Wr) (s : State) : exec (.forceOn d w) s = execForceOn d w s := rfl
@[simp] theorem exec_forceRetain (d : Nat) (w : Wr) (s : State) : exec (.forceRetain d w) s = execForceRetain d w s := rfl
@[simp] theorem exec_forceOff (d : Nat) (w : Wr) (s : State) : exec (.forceOff d w) s = execForceOff d w s := rfl
@[simp] theorem exec_attnClear (w : Wr) (sameTick : Nat) (s : State) : exec (.attnClear w sameTick) s = execAttnClear w sameTick s := rfl
@[simp] theorem exec_registerWrite (off : Nat) (w : Wr) (sameTick : Nat) (s : State) : exec (.registerWrite off w sameTick) s = execRegisterWrite off w s sameTick := rfl
@[simp] theorem exec_registerReadClear (off : Nat) (h : Half) (s : State) : exec (.registerReadClear off h) s = execRegisterReadClear off h s := rfl
@[simp] theorem exec_bar0BadAccess (off size : Nat) (write : Bool) (s : State) : exec (.bar0BadAccess off size write) s = execBar0BadAccess off size write s := rfl
@[simp] theorem exec_bar2Read (a len : Nat) (ces : List (Nat × Nat)) (s : State) : exec (.bar2Read a len ces) s = execBar2Read a len ces s := rfl
@[simp] theorem exec_bar2Write (a : Nat) (b : Bytes) (losses : Nat) (ces : List (Nat × Nat)) (s : State) : exec (.bar2Write a b losses ces) s = execBar2Write a b losses s ces := rfl
@[simp] theorem exec_configRequest (off : Nat) (write : Option Nat) (s : State) : exec (.configRequest off write) s = execConfigRequest off write s := rfl
@[simp] theorem exec_d3hotEntry (s : State) : exec .d3hotEntry s = execD3hotEntry s := rfl
@[simp] theorem exec_d0Return (s : State) : exec .d0Return s = execD0Return s := rfl
@[simp] theorem exec_hotReset (dt : Nat) (s : State) : exec (.hotReset dt) s = execHotReset dt s := rfl
@[simp] theorem exec_perstNAssert (dt : Nat) (s : State) : exec (.perstNAssert dt) s = execPerstNAssert dt s := rfl
@[simp] theorem exec_modResetNAssert (dt : Nat) (s : State) : exec (.modResetNAssert dt) s = execModResetNAssert dt s := rfl
@[simp] theorem exec_vinPgDeassert (dt : Nat) (s : State) : exec (.vinPgDeassert dt) s = execVinPgDeassert dt s := rfl
@[simp] theorem exec_moduleStart (pr : Probe) (s : State) : exec (.moduleStart pr) s = execModuleStart pr s := rfl
@[simp] theorem exec_calicoRepublish (s : State) : exec .calicoRepublish s = execCalicoRepublish s := rfl
@[simp] theorem exec_calicoPublishEnd (s : State) : exec .calicoPublishEnd s = execCalicoPublishEnd s := rfl
@[simp] theorem exec_flannelPowerUp (s : State) : exec .flannelPowerUp s = execFlannelPowerUp s := rfl
@[simp] theorem exec_flannelPowerLoss (s : State) : exec .flannelPowerLoss s = execFlannelPowerLoss s := rfl
@[simp] theorem exec_nvThresholdFall (vin : Nat) (s : State) : exec (.nvThresholdFall vin) s = execNvThresholdFall vin s := rfl
@[simp] theorem exec_nvThresholdRise (vin : Nat) (s : State) : exec (.nvThresholdRise vin) s = execNvThresholdRise vin s := rfl
@[simp] theorem exec_lowThresholdFall (vin : Nat) (s : State) : exec (.lowThresholdFall vin) s = execLowThresholdFall vin s := rfl
@[simp] theorem exec_lowThresholdRise (vin : Nat) (s : State) : exec (.lowThresholdRise vin) s = execLowThresholdRise vin s := rfl
@[simp] theorem exec_supplyShutdown (vin dt : Nat) (s : State) : exec (.supplyShutdown vin dt) s = execSupplyShutdown vin dt s := rfl
@[simp] theorem exec_throttleCurrent (iin : Nat) (s : State) : exec (.throttleCurrent iin) s = execThrottleCurrent iin s := rfl
@[simp] theorem exec_throttlePower (pin : Nat) (s : State) : exec (.throttlePower pin) s = execThrottlePower pin s := rfl
@[simp] theorem exec_throttleEnd (pin iin : Nat) (s : State) : exec (.throttleEnd pin iin) s = execThrottleEnd pin iin s := rfl
@[simp] theorem exec_refclkLost (s : State) : exec .refclkLost s = execRefclkLost s := rfl
@[simp] theorem exec_refclkRestore (s : State) : exec .refclkRestore s = execRefclkRestore s := rfl
@[simp] theorem exec_thermAlertAssert (celsius : Nat) (s : State) : exec (.thermAlertAssert celsius) s = execThermAlertAssert celsius s := rfl
@[simp] theorem exec_thermAlertRelease (celsius : Nat) (s : State) : exec (.thermAlertRelease celsius) s = execThermAlertRelease celsius s := rfl
@[simp] theorem exec_thermalForceLow (celsius : Nat) (s : State) : exec (.thermalForceLow celsius) s = execThermalForceLow celsius s := rfl
@[simp] theorem exec_thermalForceRelease (celsius : Nat) (s : State) : exec (.thermalForceRelease celsius) s = execThermalForceRelease celsius s := rfl
@[simp] theorem exec_xspiOwnChange (level : Bool) (writes : List (Nat × Bytes)) (s : State) : exec (.xspiOwnChange level writes) s = execXspiOwnChange level s writes := rfl
@[simp] theorem exec_bypass (op : Nat) (s : State) : exec (.bypass op) s = execBypass s op := rfl
@[simp] theorem exec_idcode (s : State) : exec .idcode s = execIdcode s := rfl
@[simp] theorem exec_samplePreload (cells : Bytes) (s : State) : exec (.samplePreload cells) s = execSamplePreload cells s := rfl
@[simp] theorem exec_extest (s : State) : exec .extest s = execExtest s := rfl
@[simp] theorem exec_clamp (s : State) : exec .clamp s = execClamp s := rfl
@[simp] theorem exec_highz (s : State) : exec .highz s = execHighz s := rfl
@[simp] theorem exec_i3cRead (off : Nat) (x : I3cXfer) (s : State) : exec (.i3cRead off x) s = execI3cRead off s x := rfl
@[simp] theorem exec_i3cWrite (off : Nat) (b : Bytes) (x : I3cXfer) (s : State) : exec (.i3cWrite off b x) s = execI3cWrite off b s x := rfl
@[simp] theorem exec_entdaa (addr : Nat) (s : State) : exec (.entdaa addr) s = execEntdaa addr s := rfl
@[simp] theorem exec_setdasa (addr target : Nat) (s : State) : exec (.setdasa addr target) s = execSetdasa addr s target := rfl
@[simp] theorem exec_rstdaa (s : State) : exec .rstdaa s = execRstdaa s := rfl
@[simp] theorem exec_getpid (addr : Option Nat) (s : State) : exec (.getpid addr) s = execGetpid s addr := rfl
@[simp] theorem exec_getbcr (addr : Option Nat) (s : State) : exec (.getbcr addr) s = execGetbcr s addr := rfl
@[simp] theorem exec_getdcr (addr : Option Nat) (s : State) : exec (.getdcr addr) s = execGetdcr s addr := rfl
@[simp] theorem exec_getstatus (addr : Option Nat) (s : State) : exec (.getstatus addr) s = execGetstatus s addr := rfl
@[simp] theorem exec_getmxds (addr : Option Nat) (s : State) : exec (.getmxds addr) s = execGetmxds s addr := rfl
@[simp] theorem exec_uncorrectableError (errs : List (FaultId × Nat × Nat)) (dt : Nat) (s : State) : exec (.uncorrectableError errs dt) s = execUncorrectableError errs dt s := rfl
@[simp] theorem exec_farLinkDown (port linkState dt : Nat) (s : State) : exec (.farLinkDown port linkState dt) s = execFarLinkDown port linkState dt s := rfl
@[simp] theorem exec_faultWindowClose (s : State) : exec .faultWindowClose s = execFaultWindowClose s := rfl
@[simp] theorem exec_faultLogPersist (part : Option Nat) (s : State) : exec (.faultLogPersist part) s = execFaultLogPersist s part := rfl
@[simp] theorem exec_scrubAccess (u : Nat) (found : Option (Nat × Nat)) (more : List (Nat × Nat)) (s : State) : exec (.scrubAccess u found more) s = execScrubAccess u found more s := rfl
@[simp] theorem exec_scrubOverdue (u : Nat) (s : State) : exec (.scrubOverdue u) s = execScrubOverdue u s := rfl
@[simp] theorem exec_domainRetainTimeout (d : Nat) (s : State) : exec (.domainRetainTimeout d) s = execDomainRetainTimeout d s := rfl
@[simp] theorem exec_domainOffTimeout (d : Nat) (s : State) : exec (.domainOffTimeout d) s = execDomainOffTimeout d s := rfl
@[simp] theorem exec_domainSleepComplete (d : Nat) (s : State) : exec (.domainSleepComplete d) s = execDomainSleepComplete d s := rfl
@[simp] theorem exec_domainWakeComplete (d : Nat) (lost : List (Nat × Nat × Nat)) (s : State) : exec (.domainWakeComplete d lost) s = execDomainWakeComplete d s lost := rfl
@[simp] theorem exec_wakeFail (d phase : Nat) (s : State) : exec (.wakeFail d phase) s = execWakeFail d phase s := rfl
@[simp] theorem exec_envelopeFallsEnd (s : State) : exec .envelopeFallsEnd s = execEnvelopeFallsEnd s := rfl
@[simp] theorem exec_envelopeRisesEnd (s : State) : exec .envelopeRisesEnd s = execEnvelopeRisesEnd s := rfl
@[simp] theorem exec_sergeSwap (e : Nat) (s : State) : exec (.sergeSwap e) s = execSergeSwap e s := rfl
@[simp] theorem exec_deltaPacketFold (f : Nat) (ces : List (Nat × Nat)) (s : State) : exec (.deltaPacketFold f ces) s = execDeltaPacketFold f s ces := rfl
@[simp] theorem exec_scheduledRootRefresh (f : Nat) (o : Offer) (s : State) : exec (.scheduledRootRefresh f o) s = execScheduledRootRefresh f o s := rfl
@[simp] theorem exec_recalSlotStart (r : Nat) (s : State) : exec (.recalSlotStart r) s = execRecalSlotStart r s := rfl
@[simp] theorem exec_recalSlotEnd (r waited : Nat) (s : State) : exec (.recalSlotEnd r waited) s = execRecalSlotEnd r waited s := rfl
@[simp] theorem exec_prefetchEnd (b : Nat) (ces : List (Nat × Nat)) (s : State) : exec (.prefetchEnd b ces) s = execPrefetchEnd b s ces := rfl
@[simp] theorem exec_dataMoverRetry (n : Nat) (lost : Bool) (s : State) : exec (.dataMoverRetry n lost) s = execDataMoverRetry n lost s := rfl
@[simp] theorem exec_dataFlitReceive (p : Nat) (flit : Bytes) (badLane : Option (Nat × Nat)) (s : State) : exec (.dataFlitReceive p flit badLane) s = execDataFlitReceive p flit badLane s := rfl
@[simp] theorem exec_controlFlitReceive (p : Nat) (flit : Bytes) (badLane : Option (Nat × Nat)) (s : State) : exec (.controlFlitReceive p flit badLane) s = execControlFlitReceive p flit badLane s := rfl
@[simp] theorem exec_controlFlitSend (p : Nat) (s : State) : exec (.controlFlitSend p) s = execControlFlitSend p s := rfl
@[simp] theorem exec_move (p lane phys : Nat) (s : State) : exec (.move p lane phys) s = execMove p lane phys s := rfl
@[simp] theorem exec_moved (p lane : Nat) (s : State) : exec (.moved p lane) s = execMoved p lane s := rfl
@[simp] theorem exec_failed (p lane : Nat) (s : State) : exec (.failed p lane) s = execFailed p lane s := rfl
@[simp] theorem exec_width (p w : Nat) (s : State) : exec (.width p w) s = execWidth p w s := rfl
@[simp] theorem exec_drift (p lane : Nat) (s : State) : exec (.drift p lane) s = execDrift p lane s := rfl
@[simp] theorem exec_calRotation (p : Nat) (s : State) : exec (.calRotation p) s = execCalRotation p s := rfl
@[simp] theorem exec_laneAdaptEnd (p : Nat) (s : State) : exec (.laneAdaptEnd p) s = execLaneAdaptEnd p s := rfl
@[simp] theorem exec_laneFailureDetect (p phys : Nat) (s : State) : exec (.laneFailureDetect p phys) s = execLaneFailureDetect p phys s := rfl
@[simp] theorem exec_linkSilence (p : Nat) (s : State) : exec (.linkSilence p) s = execLinkSilence p s := rfl
@[simp] theorem exec_lossOfSignal (p lanes : Nat) (s : State) : exec (.lossOfSignal p lanes) s = execLossOfSignal p lanes s := rfl
@[simp] theorem exec_transactionTimeout (txn : Nat) (s : State) : exec (.transactionTimeout txn) s = execTransactionTimeout txn s := rfl
@[simp] theorem exec_trainingEnd (p partnerNode partnerPod partnerPort : Nat) (failedLanes : List Nat) (partnerActive : Nat) (s : State) : exec (.trainingEnd p partnerNode partnerPod partnerPort failedLanes partnerActive) s = execTrainingEnd p partnerNode partnerPod partnerPort failedLanes s partnerActive := rfl
@[simp] theorem exec_telemetryWindowEnd (p txData rxData stallTicks : Nat) (fecCorr margin : List Nat) (s : State) : exec (.telemetryWindowEnd p txData rxData stallTicks fecCorr margin) s = execTelemetryWindowEnd p txData rxData stallTicks fecCorr margin s := rfl
@[simp] theorem exec_packetForward (j : Nat) (s : State) : exec (.packetForward j) s = execPacketForward j s := rfl
@[simp] theorem exec_readReq (k : Packet) (m : Meets) (s : State) : exec (.readReq k m) s = execReadReq k s m := rfl
@[simp] theorem exec_readResp (k : Packet) (m : Meets) (s : State) : exec (.readResp k m) s = execReadResp k s m := rfl
@[simp] theorem exec_write (k : Packet) (m : Meets) (s : State) : exec (.write k m) s = execWrite k s m := rfl
@[simp] theorem exec_raccPacket (k : Packet) (m : Meets) (s : State) : exec (.raccPacket k m) s = execRaccPacket k s m := rfl
@[simp] theorem exec_signalPacket (k : Packet) (s : State) : exec (.signalPacket k) s = execSignalPacket k s := rfl
@[simp] theorem exec_delta (k : Packet) (m : Meets) (s : State) : exec (.delta k m) s = execDelta k s m := rfl
@[simp] theorem exec_deltaReservationTimeout (f txn : Nat) (s : State) : exec (.deltaReservationTimeout f txn) s = execDeltaReservationTimeout f txn s := rfl
@[simp] theorem exec_bucket (k : Packet) (s : State) : exec (.bucket k) s = execBucket k s := rfl
@[simp] theorem exec_ack (k : Packet) (s : State) : exec (.ack k) s = execAck k s := rfl
@[simp] theorem exec_beacon (p : Nat) (k : Packet) (s : State) : exec (.beacon p k) s = execBeacon p k s := rfl
@[simp] theorem exec_beaconSeenExpiry (f : FaultId) (s : State) : exec (.beaconSeenExpiry f) s = execBeaconSeenExpiry f s := rfl
@[simp] theorem exec_gateUp (k : Packet) (m : Meets) (s : State) : exec (.gateUp k m) s = execGateUp k s m := rfl
@[simp] theorem exec_gateDown (k : Packet) (m : Meets) (s : State) : exec (.gateDown k m) s = execGateDown k s m := rfl
@[simp] theorem exec_bucketRelease (ces : List (Nat × Nat)) (s : State) : exec (.bucketRelease ces) s = execBucketRelease s ces := rfl
@[simp] theorem exec_ringMax (k : Packet) (s : State) : exec (.ringMax k) s = execRingMax k s := rfl
@[simp] theorem exec_ringScale (k : Packet) (s : State) : exec (.ringScale k) s = execRingScale k s := rfl
@[simp] theorem exec_ringData (k : Packet) (m : Meets) (s : State) : exec (.ringData k m) s = execRingData k s m := rfl
@[simp] theorem exec_mirrorFwd (k : Packet) (m : Meets) (s : State) : exec (.mirrorFwd k m) s = execMirrorFwd k s m := rfl
@[simp] theorem exec_fprint (k : Packet) (m : Meets) (s : State) : exec (.fprint k m) s = execFprint k s m := rfl
@[simp] theorem exec_bcastData (k : Packet) (m : Meets) (s : State) : exec (.bcastData k m) s = execBcastData k s m := rfl
@[simp] theorem exec_paramRead (k : Packet) (m : Meets) (s : State) : exec (.paramRead k m) s = execParamRead k s m := rfl
@[simp] theorem exec_paramData (k : Packet) (m : Meets) (s : State) : exec (.paramData k m) s = execParamData k s m := rfl
@[simp] theorem exec_rootHold (k : Packet) (m : Meets) (s : State) : exec (.rootHold k m) s = execRootHold k s m := rfl
@[simp] theorem exec_rootDrop (k : Packet) (s : State) : exec (.rootDrop k) s = execRootDrop k s := rfl
@[simp] theorem exec_stageSend (g : StageSeg) (s : State) : exec (.stageSend g) s = execStageSend g s := rfl
@[simp] theorem exec_stageData (k : Packet) (m : Meets) (s : State) : exec (.stageData k m) s = execStageData k s m := rfl
@[simp] theorem exec_stageCredit (k : Packet) (s : State) : exec (.stageCredit k) s = execStageCredit k s := rfl
@[simp] theorem exec_permuteData (k : Packet) (m : Meets) (s : State) : exec (.permuteData k m) s = execPermuteData k s m := rfl
@[simp] theorem exec_reshardUp (k : Packet) (s : State) : exec (.reshardUp k) s = execReshardUp k s := rfl
@[simp] theorem exec_reshardDown (k : Packet) (s : State) : exec (.reshardDown k) s = execReshardDown k s := rfl
@[simp] theorem exec_flannelTick (x : Sample) (s : State) : exec (.flannelTick x) s = execFlannelTick s x := rfl
@[simp] theorem exec_idleFlitReceive (p : Nat) (flit : Bytes) (badLane : Option (Nat × Nat)) (s : State) : exec (.idleFlitReceive p flit badLane) s = execIdleFlitReceive p s flit badLane := rfl
@[simp] theorem exec_startResidualEnd (e : Nat) (ces : List (Nat × Nat)) (s : State) : exec (.startResidualEnd e ces) s = execStartResidualEnd e s ces := rfl
@[simp] theorem exec_stateWriteBackEnd (b : Nat) (ces : List (Nat × Nat)) (s : State) : exec (.stateWriteBackEnd b ces) s = execStateWriteBackEnd b s ces := rfl
@[simp] theorem exec_farLinkRecoveryStart (port : Nat) (s : State) : exec (.farLinkRecoveryStart port) s = execFarLinkRecoveryStart port s := rfl
@[simp] theorem exec_farLinkRecoveryEnd (port : Nat) (s : State) : exec (.farLinkRecoveryEnd port) s = execFarLinkRecoveryEnd port s := rfl
@[simp] theorem exec_pcieLinkUp (speed width : Nat) (flitMode : Bool) (s : State) : exec (.pcieLinkUp speed width flitMode) s = execPcieLinkUp speed width flitMode s := rfl
@[simp] theorem exec_driftAlarm (p phys margin : Nat) (s : State) : exec (.driftAlarm p phys margin) s = execDriftAlarm p phys margin s := rfl
@[simp] theorem exec_testLogicReset (s : State) : exec .testLogicReset s = execTestLogicReset s := rfl

end Sys2Proof.Machine
end

