-- ==== Sys2Proof/Laws/Maps.lean ====
section
/-! SUPPORT. Laws of sparse maps: what a key reads after it or another key has been set or taken off. -/

namespace Sys2Proof.Machine.SMap

variable {α : Type}

@[simp] theorem find_nil (k : Nat) : find? ([] : SMap α) k = none := rfl

theorem find_put_same (m : SMap α) (k : Nat) (v : α) : find? (put m k v) k = some v := by
  induction m with
  | nil => simp [put, find?]
  | cons e r ih =>
    obtain ⟨j, u⟩ := e
    unfold put
    split
    · simp [find?]
    · rename_i h
      split
      · simp [find?]
      · simp [find?, h, ih]

theorem find_put_other (m : SMap α) (k i : Nat) (v : α) (h : i ≠ k) : find? (put m k v) i = find? m i := by
  induction m with
  | nil => simp [put, find?, Ne.symm h]
  | cons e r ih =>
    obtain ⟨j, u⟩ := e
    unfold put
    split
    · rename_i hj
      subst hj
      simp [find?, Ne.symm h]
    · split
      · simp [find?, Ne.symm h]
      · simp [find?, ih]

theorem find_erase_same (m : SMap α) (k : Nat) : find? (erase m k) k = none := by
  induction m with
  | nil => rfl
  | cons e r ih =>
    obtain ⟨j, u⟩ := e
    by_cases h : j = k
    · subst h
      simpa [erase, find?] using ih
    · simpa [erase, find?, h] using ih

theorem find_erase_other (m : SMap α) (k i : Nat) (h : i ≠ k) : find? (erase m k) i = find? m i := by
  induction m with
  | nil => rfl
  | cons e r ih =>
    obtain ⟨j, u⟩ := e
    by_cases hj : j = k
    · subst hj
      simpa [erase, find?, Ne.symm h] using ih
    · by_cases hi : j = i
      · subst hi
        simp [erase, find?, hj]
      · simpa [erase, find?, hj, hi] using ih

/-- An empty map reads its default everywhere. -/
@[simp] theorem get_nil (d : α) (k : Nat) : get d ([] : SMap α) k = d := rfl

theorem find_map (m : SMap α) (f : α → α) (k : Nat) : find? (m.map fun e => (e.1, f e.2)) k = (find? m k).map f := by
  induction m with
  | nil => rfl
  | cons e r ih =>
    obtain ⟨j, u⟩ := e
    by_cases h : j = k
    · simp [find?, h]
    · simpa [find?, h] using ih

/-- A function that keeps the default commutes with reading. -/
theorem get_map (d : α) (m : SMap α) (f : α → α) (k : Nat) (h : f d = d) :
    get d (m.map fun e => (e.1, f e.2)) k = f (get d m k) := by
  unfold get
  rw [find_map]
  cases find? m k <;> simp [h]

variable [DecidableEq α]

/-- A key reads what it was set to. -/
@[simp] theorem get_set_same (d : α) (m : SMap α) (k : Nat) (v : α) : (m.set d k v).get d k = v := by
  unfold set get
  split
  · simp_all [find_erase_same]
  · simp [find_put_same]

/-- Setting one key leaves the others. -/
theorem get_set_other (d : α) (m : SMap α) (k i : Nat) (v : α) (h : i ≠ k) : (m.set d k v).get d i = m.get d i := by
  unfold set get
  split
  · rw [find_erase_other _ _ _ h]
  · rw [find_put_other _ _ _ _ h]

/-- Both at once. -/
theorem get_set (d : α) (m : SMap α) (k i : Nat) (v : α) : (m.set d k v).get d i = if i = k then v else m.get d i := by
  split
  · subst i
    exact get_set_same d m k v
  · rename_i h
    exact get_set_other d m k i v h

end Sys2Proof.Machine.SMap
end

