-- ==== Sys2Proof/Laws/Memory.lean ====
section
/-! SUPPORT. Laws of memory: the canonical form is kept by every operation on it, a byte reads what was written there, and a write or a
zeroing leaves every other byte. -/

namespace Sys2Proof.Machine

/-! ### Sorted maps -/

/-- The keys of `m` rise. -/
abbrev Rising {α : Type} (m : List (Nat × α)) : Prop := m.Pairwise (fun x y => x.1 < y.1)

theorem mem_put {α : Type} {m : SMap α} {k : Nat} {v : α} {e : Nat × α} (h : e ∈ SMap.put m k v) : e = (k, v) ∨ e ∈ m := by
  induction m with
  | nil => simpa [SMap.put] using h
  | cons x r ih =>
    obtain ⟨j, u⟩ := x
    unfold SMap.put at h
    split at h
    · rcases List.mem_cons.1 h with h | h
      · exact .inl h
      · exact .inr (List.mem_cons_of_mem _ h)
    · split at h
      · rcases List.mem_cons.1 h with h | h
        · exact .inl h
        · exact .inr h
      · rcases List.mem_cons.1 h with h | h
        · exact .inr (h ▸ List.mem_cons_self ..)
        · exact (ih h).imp_right (List.mem_cons_of_mem _)

theorem rising_put {α : Type} {m : SMap α} (k : Nat) (v : α) (h : Rising m) : Rising (SMap.put m k v) := by
  induction m with
  | nil => simp [SMap.put]
  | cons x r ih =>
    obtain ⟨j, u⟩ := x
    rw [Rising, List.pairwise_cons] at h
    unfold SMap.put
    split
    · subst j
      exact List.pairwise_cons.2 ⟨h.1, h.2⟩
    · split
      · rename_i hk
        refine List.pairwise_cons.2 ⟨fun e he => ?_, List.pairwise_cons.2 h⟩
        rcases List.mem_cons.1 he with rfl | he
        · exact hk
        · exact lt_trans hk (h.1 e he)
      · refine List.pairwise_cons.2 ⟨fun e he => ?_, ih h.2⟩
        rcases mem_put he with rfl | he
        · dsimp only
          omega
        · exact h.1 e he

theorem rising_erase {α : Type} {m : SMap α} (k : Nat) (h : Rising m) : Rising (SMap.erase m k) := h.filter _

/-! ### Zeroed ranges -/

theorem inRanges_addRange (z : List (Nat × Nat)) (lo hi x : Nat) (h : lo ≤ hi) :
    inRanges (addRange z lo hi) x = true ↔ inRanges z x = true ∨ lo ≤ x ∧ x < hi := by
  induction z generalizing lo hi with
  | nil => simp [addRange, inRanges]
  | cons r rest ih =>
    unfold addRange
    split
    · simp [inRanges, or_comm]
    · split
      · have := ih lo hi h
        simp only [inRanges, List.any_cons, Bool.or_eq_true] at this ⊢
        rw [this]
        exact or_assoc.symm
      · have := ih (min lo r.1) (max hi r.2) (by omega)
        rw [this]
        simp only [inRanges, List.any_cons, Bool.or_eq_true, Bool.and_eq_true, decide_eq_true_eq]
        constructor
        · rintro (h1 | h1)
          · exact .inl (.inr h1)
          · by_cases h2 : lo ≤ x ∧ x < hi
            · exact .inr h2
            · exact .inl (.inl (by omega))
        · rintro ((h1 | h1) | h1)
          · exact .inr (by omega)
          · exact .inl h1
          · exact .inr (by omega)

theorem zeroAt_addRange (z : List (Nat × Nat)) (lo hi x : Nat) (h : lo ≤ hi) :
    zeroAt (addRange z lo hi) x = true ↔ zeroAt z x = true ∨ lo ≤ x ∧ x < hi := by
  simp only [zeroAt, Bool.or_eq_true, inRanges_addRange z lo hi x h, or_assoc]

/-! ### The canonical form is kept -/

theorem memoryWf_put {z : List (Nat × Nat)} {m : List Host.Cell} (a : Nat) (b : Byte) (h : memoryWf z m) : memoryWf z (memPut z m a b) := by
  unfold memPut
  split
  · exact ⟨rising_erase a h.1, fun c hc => h.2 c (List.mem_of_mem_filter hc)⟩
  · rename_i hb
    refine ⟨rising_put a b h.1, fun c hc hz h0 => ?_⟩
    rcases mem_put hc with rfl | hc
    · exact hb ⟨hz, h0⟩
    · exact h.2 c hc hz h0

theorem memoryWf_drop {z : List (Nat × Nat)} {m : List Host.Cell} (lo hi : Nat) (h : memoryWf z m) : memoryWf z (memDrop m lo hi) :=
  ⟨h.1.filter _, fun c hc => h.2 c (List.mem_of_mem_filter hc)⟩

theorem memoryWf_zero {z : List (Nat × Nat)} {m : List Host.Cell} (lo hi : Nat) (hle : lo ≤ hi) (h : memoryWf z m) :
    memoryWf (addRange z lo hi) (memDrop m lo hi) := by
  refine ⟨(memoryWf_drop lo hi h).1, fun c hc hz => ?_⟩
  have hm := List.mem_filter.1 hc
  rcases (zeroAt_addRange z lo hi c.1 hle).1 hz with hz | hz
  · exact h.2 c hm.1 hz
  · simp [hz.1, hz.2] at hm

theorem State.write8_memForm {s : State} (a : Nat) (b : Byte) (h : s.MemForm) : (s.write8 a b).MemForm := memoryWf_put a b h

theorem State.writeBytes_memForm {s : State} (a : Nat) (bs : Bytes) (h : s.MemForm) : (s.writeBytes a bs).MemForm := by
  induction bs generalizing s a with
  | nil => exact h
  | cons b r ih => exact ih _ (s.write8_memForm a b h)

theorem State.clearSram_memForm {s : State} (lo hi : Nat) (h : s.MemForm) : (s.clearSram lo hi).MemForm := memoryWf_drop lo hi h

theorem State.zeroRange_memForm {s : State} (a n : Nat) (h : s.MemForm) : (s.zeroRange a n).MemForm := by
  unfold State.zeroRange
  split
  · exact h
  · exact memoryWf_zero a (a + n) (Nat.le_add_right a n) h

/-! ### What one write does -/

theorem find_memPut_other (z : List (Nat × Nat)) (m : List Host.Cell) (a x : Nat) (b : Byte) (h : x ≠ a) :
    SMap.find? (memPut z m a b) x = SMap.find? m x := by
  unfold memPut
  split
  · exact SMap.find_erase_other _ _ _ h
  · exact SMap.find_put_other _ _ _ _ h

/-- A list of bytes written has the effect of its writes in turn. -/
@[simp] theorem State.writeBytes_nil (s : State) (a : Nat) : s.writeBytes a [] = s := rfl

theorem State.writeBytes_cons (s : State) (a : Nat) (b : Byte) (r : Bytes) : s.writeBytes a (b :: r) = (s.write8 a b).writeBytes (a + 1) r := rfl

theorem find_memDrop (m : List Host.Cell) (lo hi x : Nat) :
    SMap.find? (memDrop m lo hi) x = if lo ≤ x ∧ x < hi then none else SMap.find? m x := by
  unfold memDrop
  induction m with
  | nil => simp
  | cons e r ih =>
    obtain ⟨j, u⟩ := e
    by_cases hj : j = x
    · subst j
      by_cases hx : lo ≤ x ∧ x < hi
      · rw [List.filter_cons_of_neg (by simp [hx.1, hx.2]), ih]
        simp [hx]
      · rw [List.filter_cons_of_pos (by simp; omega)]
        simp [SMap.find?, hx]
    · by_cases hd : lo ≤ j ∧ j < hi
      · rw [List.filter_cons_of_neg (by simp [hd.1, hd.2]), ih]
        simp [SMap.find?, hj]
      · rw [List.filter_cons_of_pos (by simp; omega)]
        simp only [SMap.find?, hj, if_false]
        exact ih

end Sys2Proof.Machine
end

