-- ==== Sys2Proof/Laws/Keeps.lean ====
section
/-! SUPPORT. What every operation on the state keeps: the queue of commands that wait, the canonical form of memory, and time, which
does not go back. One lemma per operation: applied to a state that keeps all this of `s0`, it gives one that does. -/

namespace Sys2Proof.Machine

/-- A state with these fields has the queue of `s`, its memory in canonical form if `s` has, and is not earlier. -/
structure Kept (s : State) (pending : List Instr) (mem : List Host.Cell) (zeroed : List (Nat × Nat)) (tick : Nat) : Prop where
  pending : pending = s.pending
  mem : s.MemForm → memoryWf zeroed mem
  tick : s.tick ≤ tick

/-- State `t` keeps the queue of `s`, has its memory in canonical form if `s` has, and is not earlier. -/
abbrev Keeps (s t : State) : Prop := Kept s t.pending t.mem t.zeroed t.tick

theorem Keeps.refl (s : State) : Keeps s s := ⟨rfl, id, le_refl _⟩

theorem Keeps.trans {s t u : State} (h : Keeps s t) (k : Keeps t u) : Keeps s u :=
  ⟨k.pending.trans h.pending, fun m => k.mem (h.mem m), h.tick.trans k.tick⟩

theorem Keeps.foldl {α : Type} {s : State} {f : State → α → State} {l : List α} (hf : ∀ t x, Keeps s t → Keeps s (f t x)) {t : State}
    (h : Keeps s t) : Keeps s (l.foldl f t) := by
  induction l generalizing t with
  | nil => exact h
  | cons x r ih => exact ih (hf t x h)

theorem Keeps.foldlFst {α β : Type} {s : State} {f : State × β → α → State × β} {l : List α} (hf : ∀ t x, Keeps s t.1 → Keeps s (f t x).1)
    {t : State × β} (h : Keeps s t.1) : Keeps s (l.foldl f t).1 := by
  induction l generalizing t with
  | nil => exact h
  | cons x r ih => exact ih (hf t x h)

theorem Keeps.foldlSt {α : Type} {s : State} {f : Applied → α → Applied} {l : List α} (hf : ∀ t x, Keeps s t.st → Keeps s (f t x).st)
    {t : Applied} (h : Keeps s t.st) : Keeps s (l.foldl f t).st := by
  induction l generalizing t with
  | nil => exact h
  | cons x r ih => exact ih (hf t x h)

theorem Keeps.getD {s t : State} {o : Option State} (ho : ∀ u, o = some u → Keeps s u) (h : Keeps s t) : Keeps s (o.getD t) := by
  cases o with
  | none => exact h
  | some u => exact ho u rfl

theorem State.write8_keeps {s0 s : State} (a : Nat) (b : Byte) (h : Keeps s0 s) : Keeps s0 (s.write8 a b) :=
  ⟨h.1, fun m => State.write8_memForm a b (h.2 m), h.3⟩

theorem State.writeBytes_keeps {s0 s : State} (a : Nat) (bs : Bytes) (h : Keeps s0 s) : Keeps s0 (s.writeBytes a bs) := by
  induction bs generalizing s a with
  | nil => exact h
  | cons b r ih => exact ih _ (State.write8_keeps a b h)

theorem State.clearSram_keeps {s0 s : State} (lo hi : Nat) (h : Keeps s0 s) : Keeps s0 (s.clearSram lo hi) :=
  ⟨h.1, fun m => State.clearSram_memForm lo hi (h.2 m), h.3⟩

theorem State.zeroRange_keeps {s0 s : State} (a n : Nat) (h : Keeps s0 s) : Keeps s0 (s.zeroRange a n) := by
  refine ⟨?_, fun m => State.zeroRange_memForm a n (h.2 m), ?_⟩
  · unfold State.zeroRange
    split
    · exact h.1
    · exact h.1
  · unfold State.zeroRange
    split
    · exact h.3
    · exact h.3

end Sys2Proof.Machine
end

