-- ==== Sys2Proof/Laws/KeepsOps.lean ====
section
/-! SUPPORT. What every operation on the state keeps, one lemma per operation (see Sys2Proof/Laws/Keeps.lean), in the order in which they
build on each other; at the end, what the common forms of a command's meaning keep. -/

namespace Sys2Proof.Machine

theorem State.setTime_keeps {s0 s : State} (t : Nat) (h : Keeps s0 s) (ht : s.tick ≤ t / 64) : Keeps s0 (s.setTime t) :=
  ⟨h.1, h.2, h.3.trans ht⟩

theorem State.powerDown_keeps {s0 s : State} (h : Keeps s0 s) : Keeps s0 s.powerDown :=
  ⟨h.1, fun _ => ⟨List.Pairwise.nil, fun _ hc => absurd hc List.not_mem_nil⟩, h.3⟩

theorem Keeps.withRemaps {s t : State} (r : List ((Nat × Nat × Nat) × Nat)) (h : Keeps s t) : Keeps s { t with remaps := r } := ⟨h.1, h.2, h.3⟩

theorem Keeps.withPhase {s t : State} (n : Nat) (h : Keeps s t) : Keeps s { t with startPhase := n } := ⟨h.1, h.2, h.3⟩

theorem State.underMap_keeps {s0 s : State} (m : Option (List Nat)) {f : State → State} (hf : ∀ t, Keeps s0 t → Keeps s0 (f t)) (h : Keeps s0 s) :
    Keeps s0 (s.underMap m f) := by
  unfold State.underMap
  split
  · exact hf _ h
  · rename_i m
    have k := hf { s with flash := { s.flash with retired := m } } ⟨h.1, h.2, h.3⟩
    exact ⟨k.1, k.2, k.3⟩

theorem State.assignDynamic_keeps {s0 s : State} (addr : Nat) (h : Keeps s0 s) : Keeps s0 (State.assignDynamic s addr) := by
  unfold State.assignDynamic
  dsimp only [Keeps]
  repeat' first
    | with_reducible assumption
    | dsimp only [Keeps]
    | split

theorem State.attn_keeps {s0 s : State} (i : Nat) (h : Keeps s0 s) : Keeps s0 (State.attn s i) := by
  unfold State.attn
  dsimp only [Keeps]
  exact h

theorem State.fwEnd_keeps {s0 s : State} (r : Nat) (h : Keeps s0 s) : Keeps s0 (State.fwEnd s r) := by
  unfold State.fwEnd
  dsimp only [Keeps]
  repeat' first
    | with_reducible assumption
    | with_reducible apply State.attn_keeps

theorem State.setDom_keeps {s0 s : State} (d : Nat) (x : Domain) (h : Keeps s0 s) : Keeps s0 (State.setDom s d x) := by
  unfold State.setDom
  dsimp only [Keeps]
  exact h

theorem State.calicoDirty_keeps {s0 s : State} (h : Keeps s0 s) : Keeps s0 (State.calicoDirty s) := by
  unfold State.calicoDirty
  dsimp only [Keeps]
  exact h

theorem State.swapCluster_keeps {s0 s : State} (n : Nat) (h : Keeps s0 s) : Keeps s0 (State.swapCluster s n) := by
  unfold State.swapCluster
  dsimp only [Keeps]
  repeat' first
    | with_reducible assumption
    | with_reducible apply State.calicoDirty_keeps
    | dsimp only [Keeps]
    | split

theorem State.swapCores_keeps {s0 s : State} (n : Nat) (h : Keeps s0 s) : Keeps s0 (State.swapCores s n) := by
  unfold State.swapCores
  dsimp only [Keeps]
  repeat' first
    | with_reducible assumption
    | with_reducible apply State.calicoDirty_keeps
    | dsimp only [Keeps]
    | split

theorem State.loadRemapsBut_keeps {s0 s : State} (a1 : Nat) (lost : List (Nat × Nat × Nat)) (h : Keeps s0 s) : Keeps s0 (State.loadRemapsBut s a1 lost) := by
  unfold State.loadRemapsBut
  dsimp only [Keeps]
  exact h

theorem State.loadRemaps_keeps {s0 s : State} (a1 : Nat) (h : Keeps s0 s) : Keeps s0 (State.loadRemaps s a1) := by
  unfold State.loadRemaps
  dsimp only [Keeps]
  repeat' first
    | with_reducible assumption
    | with_reducible apply State.loadRemapsBut_keeps

theorem State.rampHalf_keeps {s0 s : State} (a1 : Nat) (h : Keeps s0 s) : Keeps s0 (State.rampHalf s a1) := by
  unfold State.rampHalf
  dsimp only [Keeps]
  repeat' first
    | with_reducible assumption
    | with_reducible apply State.swapCluster_keeps
    | with_reducible apply State.swapCores_keeps
    | with_reducible apply State.loadRemaps_keeps
    | with_reducible apply State.setDom_keeps
    | with_reducible refine Keeps.foldl (fun _ _ _ => ?_) ?_
    | dsimp only [Keeps]
    | split

theorem State.replaceEngine_keeps {s0 s : State} (e : Nat) (h : Keeps s0 s) : Keeps s0 (State.replaceEngine s e) := by
  unfold State.replaceEngine
  dsimp only [Keeps]
  repeat' first
    | with_reducible assumption
    | with_reducible apply State.clearSram_keeps
    | with_reducible apply State.setDom_keeps
    | with_reducible apply State.calicoDirty_keeps
    | dsimp only [Keeps]
    | split

theorem State.wake_keeps {s0 s : State} (d : Nat) (h : Keeps s0 s) : Keeps s0 (State.wake s d) := by
  unfold State.wake
  dsimp only [Keeps]
  repeat' first
    | with_reducible assumption
    | with_reducible apply State.setDom_keeps
    | with_reducible apply State.rampHalf_keeps
    | with_reducible apply State.replaceEngine_keeps
    | dsimp only [Keeps]
    | split

theorem State.wakeAll_keeps {s0 s : State} (ds : List Nat) (h : Keeps s0 s) : Keeps s0 (State.wakeAll s ds) := by
  unfold State.wakeAll
  dsimp only [Keeps]
  repeat' first
    | with_reducible assumption
    | with_reducible apply State.wake_keeps
    | with_reducible refine Keeps.foldl (fun _ _ _ => ?_) ?_

theorem State.park_keeps {s0 s : State} (w : Waiting) (h : Keeps s0 s) : Keeps s0 (State.park s w) := by
  unfold State.park
  dsimp only [Keeps]
  exact h

theorem State.putOff_keeps {s0 s : State} (w : Waiting) (ds : List Nat) (h : Keeps s0 s) : Keeps s0 (State.putOff s w ds) := by
  unfold State.putOff
  dsimp only [Keeps]
  repeat' first
    | with_reducible assumption
    | with_reducible apply State.wakeAll_keeps
    | with_reducible apply State.park_keeps
    | dsimp only [Keeps]
    | split

theorem State.appendFault_keeps {s0 s : State} (r : FaultRec) (h : Keeps s0 s) : Keeps s0 (State.appendFault s r) := by
  unfold State.appendFault
  dsimp only [Keeps]
  repeat' first
    | with_reducible assumption
    | with_reducible apply State.attn_keeps

theorem State.logFault_keeps {s0 s : State} (f : FaultId) (severity phys detail : Nat) (beacons : Bool) (h : Keeps s0 s) : Keeps s0 (State.logFault s f severity phys detail beacons) := by
  unfold State.logFault
  dsimp only [Keeps]
  repeat' first
    | with_reducible assumption
    | with_reducible apply State.appendFault_keeps
    | dsimp only [Keeps]
    | split

theorem State.setCluster_keeps {s0 s : State} (n : Nat) (c : Cluster) (h : Keeps s0 s) : Keeps s0 (State.setCluster s n c) := by
  unfold State.setCluster
  dsimp only [Keeps]
  exact h

theorem State.correctedAt_keeps {s0 s : State} (u loc detail : Nat) (h : Keeps s0 s) : Keeps s0 (State.correctedAt s u loc detail) := by
  unfold State.correctedAt
  dsimp only [Keeps]
  repeat' first
    | with_reducible assumption
    | with_reducible apply State.logFault_keeps
    | with_reducible apply State.setCluster_keeps
    | dsimp only [Keeps]
    | split

theorem State.corrected_keeps {s0 s : State} (a detail : Nat) (h : Keeps s0 s) : Keeps s0 (State.corrected s a detail) := by
  unfold State.corrected
  dsimp only [Keeps]
  repeat' first
    | with_reducible assumption
    | with_reducible apply State.correctedAt_keeps
    | dsimp only [Keeps]
    | split

theorem State.corrections_keeps {s0 s : State} (ces : List (Nat × Nat)) (a n : Nat) (h : Keeps s0 s) : Keeps s0 (State.corrections s ces a n) := by
  unfold State.corrections
  dsimp only [Keeps]
  repeat' first
    | with_reducible assumption
    | with_reducible apply State.corrected_keeps
    | with_reducible refine Keeps.foldl (fun _ _ _ => ?_) ?_

theorem State.touch_keeps {s0 s : State} (ds : List Nat) (h : Keeps s0 s) : Keeps s0 (State.touch s ds) := by
  unfold State.touch
  dsimp only [Keeps]
  repeat' first
    | with_reducible assumption
    | with_reducible apply State.setDom_keeps
    | with_reducible refine Keeps.foldl (fun _ _ _ => ?_) ?_

theorem State.writeDirectory_keeps {s0 s : State} (active staged : Nat) (h : Keeps s0 s) : Keeps s0 (State.writeDirectory s active staged) := by
  unfold State.writeDirectory
  dsimp only [Keeps]
  repeat' first
    | with_reducible assumption
    | with_reducible apply State.calicoDirty_keeps
    | dsimp only [Keeps]
    | split

theorem State.stageDelta_keeps {s0 s : State} (b : Bytes) (nv : NvEnd) (h : Keeps s0 s) : Keeps s0 (State.stageDelta s b nv) := by
  unfold State.stageDelta
  dsimp only [Keeps]
  repeat' first
    | with_reducible assumption
    | with_reducible apply State.writeDirectory_keeps
    | with_reducible apply State.fwEnd_keeps
    | dsimp only [Keeps]
    | split

theorem State.runStage_keeps {s0 s : State} (a : Nat) (nv : NvEnd) (h : Keeps s0 s) : Keeps s0 (State.runStage s a nv) := by
  unfold State.runStage
  dsimp only [Keeps]
  repeat' first
    | with_reducible assumption
    | with_reducible apply State.fwEnd_keeps
    | with_reducible apply State.putOff_keeps
    | with_reducible apply State.corrections_keeps
    | with_reducible apply State.touch_keeps
    | with_reducible apply State.stageDelta_keeps
    | dsimp only [Keeps]
    | split

theorem State.bootFrom_keeps {s0 s : State} (b code : Nat) (fellBack warm : Bool) (h : Keeps s0 s) : Keeps s0 (State.bootFrom s b code fellBack warm) := by
  unfold State.bootFrom
  dsimp only [Keeps]
  exact h

theorem State.setPort_keeps {s0 s : State} (p : Nat) (x : Port) (h : Keeps s0 s) : Keeps s0 (State.setPort s p x) := by
  unfold State.setPort
  dsimp only [Keeps]
  exact h

theorem State.noteCodeword_keeps {s0 s : State} (p : Nat) (bad : Option (Nat × Nat)) (h : Keeps s0 s) : Keeps s0 (State.noteCodeword s p bad) := by
  unfold State.noteCodeword
  dsimp only [Keeps]
  repeat' first
    | with_reducible assumption
    | with_reducible apply State.setPort_keeps
    | dsimp only [Keeps]
    | split

theorem State.revert_keeps {s0 s : State} (h : Keeps s0 s) : Keeps s0 (State.revert s) := by
  unfold State.revert
  dsimp only [Keeps]
  repeat' first
    | with_reducible assumption
    | with_reducible apply State.fwEnd_keeps
    | with_reducible apply State.writeDirectory_keeps
    | dsimp only [Keeps]
    | split

theorem State.setEng_keeps {s0 s : State} (e : Nat) (x : Engine) (h : Keeps s0 s) : Keeps s0 (State.setEng s e x) := by
  unfold State.setEng
  dsimp only [Keeps]
  exact h

theorem State.setProducts_keeps {s0 s : State} (e : Nat) (ps : List (List (List (Nat × Nat)))) (at_ : Option Nat) (h : Keeps s0 s) :
    Keeps s0 (State.setProducts s e ps at_) := by
  unfold State.setProducts
  exact State.setEng_keeps _ _ h

theorem State.writeStore_keeps {s0 s : State} (n off : Nat) (b : Bytes) (h : Keeps s0 s) : Keeps s0 (State.writeStore s n off b) := by
  unfold State.writeStore
  dsimp only [Keeps]
  repeat' first
    | with_reducible assumption
    | with_reducible apply State.writeBytes_keeps

theorem writeStores_keeps {s0 s : State} (bs : Bytes) (off : Nat) (l : List Nat) (h : Keeps s0 s) :
    Keeps s0 (l.foldl (fun t n => t.writeStore n off bs) s) :=
  Keeps.foldl (f := fun t n => t.writeStore n off bs) (fun _ n k => State.writeStore_keeps n _ _ k) h


theorem sendTile_aux {s0 u : State} (draws : Nat) (l : List Offload) (k : Keeps s0 u) :
    Keeps s0 { u with draws := draws, offloads := l } := ⟨k.1, k.2, k.3⟩

theorem State.sendTile_keeps {s0 s : State} (e : Nat) (v : Solve) (d : Desc) (interval n : Nat) (m : Nat × Nat) (h : Keeps s0 s) :
    Keeps s0 (State.sendTile s e v d interval n m) := by
  exact sendTile_aux _ _ (State.writeStore_keeps n (So.offBuf d.bytes) (stagedBytes s.draws) h)

theorem State.sendTilesGo_keeps {s0 s : State} (e : Nat) (v : Solve) (d : Desc) (interval fuel : Nat) (h : Keeps s0 s) :
    Keeps s0 (State.sendTilesGo e v d interval fuel s) := by
  induction fuel generalizing s with
  | zero => exact h
  | succ k ih =>
    unfold State.sendTilesGo
    split
    · split
      · exact h
      · split
        · exact State.wakeAll_keeps _ h
        · exact ih (State.setProducts_keeps _ _ _ (State.sendTile_keeps _ _ _ _ _ _ ⟨h.1, h.2, h.3⟩))
    · exact ih (State.setProducts_keeps _ _ _ h)
    · split
      · exact h
      · exact ih (State.setProducts_keeps _ _ _ h)
    · exact h

theorem State.sendTiles_keeps {s0 s : State} (e : Nat) (h : Keeps s0 s) : Keeps s0 (State.sendTiles s e) := by
  unfold State.sendTiles
  dsimp only [Keeps]
  repeat' first
    | with_reducible assumption
    | with_reducible apply State.sendTilesGo_keeps
    | dsimp only [Keeps]
    | split

theorem State.beginUnit_keeps {s0 s : State} (e : Nat) (h : Keeps s0 s) : Keeps s0 (State.beginUnit s e) := by
  unfold State.beginUnit
  dsimp only [Keeps]
  repeat' first
    | with_reducible assumption
    | with_reducible apply State.sendTiles_keeps
    | with_reducible apply State.setProducts_keeps
    | dsimp only [Keeps]
    | split

theorem State.noteUnderrun_keeps {s0 s : State} (e flags : Nat) (h : Keeps s0 s) : Keeps s0 (State.noteUnderrun s e flags) := by
  unfold State.noteUnderrun
  dsimp only [Keeps]
  repeat' first
    | with_reducible assumption
    | with_reducible apply State.setEng_keeps

theorem State.engineErrors_keeps {s0 s : State} (e : Nat) (d : Option Desc) (ces : List (Nat × Nat)) (h : Keeps s0 s) : Keeps s0 (State.engineErrors s e d ces) := by
  unfold State.engineErrors
  dsimp only [Keeps]
  repeat' first
    | with_reducible assumption
    | with_reducible apply State.corrections_keeps
    | with_reducible refine Keeps.foldl (fun _ _ _ => ?_) ?_
    | dsimp only [Keeps]
    | split

theorem State.workEnds_keeps {s0 s : State} (e : Nat) (phase : SolvePhase) (isOf : Nat → Bool) (f : Solve → Solve) (ces : List (Nat × Nat)) (h : Keeps s0 s) : Keeps s0 (State.workEnds s e phase isOf f ces) := by
  unfold State.workEnds
  dsimp only [Keeps]
  repeat' first
    | with_reducible assumption
    | with_reducible apply State.engineErrors_keeps
    | with_reducible apply State.beginUnit_keeps
    | with_reducible apply State.noteUnderrun_keeps
    | with_reducible apply State.setEng_keeps
    | dsimp only [Keeps]
    | split

theorem State.send_keeps {s0 s : State} (k : Packet) (h : Keeps s0 s) : Keeps s0 (State.send s k) := by
  unfold State.send
  dsimp only [Keeps]
  exact h

theorem State.request_keeps {s0 s : State} (use : TxnUse) (dst kind sub epoch : Nat) (hdr data : Bytes) (addr len off : Nat) (h : Keeps s0 s) : Keeps s0 (State.request s use dst kind sub epoch hdr data addr len off) := by
  unfold State.request
  dsimp only [Keeps]
  repeat' first
    | with_reducible assumption
    | with_reducible apply State.send_keeps

theorem State.sendBucket_keeps {s0 s : State} (d : Desc) (count : Nat) (h : Keeps s0 s) : Keeps s0 (State.sendBucket s d count) := by
  unfold State.sendBucket
  dsimp only [Keeps]
  repeat' first
    | with_reducible assumption
    | with_reducible apply State.request_keeps

theorem putCell_keeps {s0 s t : State} (n off : Nat) (a : Acc) (add : Bool) (h : Keeps s0 s) (e : putCell s n off a add = some t) : Keeps s0 t := by
  unfold putCell at e
  split at e
  · split at e
    · cases e
      exact State.writeStore_keeps _ _ _ h
    · cases e
  · cases e
    exact State.writeStore_keeps _ _ _ h

theorem putFp32_keeps {s0 s : State} (n off v : Nat) (add : Bool) (h : Keeps s0 s) : Keeps s0 (putFp32 s n off v add).1 := by
  unfold putFp32
  dsimp only [Keeps]
  repeat' first
    | with_reducible assumption
    | with_reducible apply State.writeStore_keeps
    | dsimp only [Keeps]
    | split

theorem mmPut_keeps {s0 s : State} (b : Bytes) (c : MatCfg) (n j m col v : Nat) (h : Keeps s0 s) : Keeps s0 (mmPut b c n j m col v s).1 := by
  unfold mmPut
  extract_lets off add old cell
  split
  · exact State.writeStore_keeps _ _ _ h
  · split
    · split
      · split
        · rename_i e
          exact putCell_keeps _ _ _ _ h e
        · exact h
      · split
        · split
          · exact h
          · rename_i e
            have k := putCell_keeps _ _ _ _ h e
            split
            · exact k
            · split
              · exact k
              · exact putFp32_keeps _ _ _ _ k
        · exact putFp32_keeps _ _ _ _ h
    · split
      · exact State.writeStore_keeps _ _ _ h
      · exact putFp32_keeps _ _ _ _ h

theorem mmContribute_keeps {s0 s : State} (b : Bytes) (c : MatCfg) (n i : Nat) (ps : List Nat) (h : Keeps s0 s) : Keeps s0 (mmContribute b c n i ps s).1 := by
  unfold mmContribute
  dsimp only [Keeps]
  repeat' first
    | with_reducible assumption
    | with_reducible apply mmPut_keeps
    | with_reducible refine Keeps.foldl (fun _ _ _ => ?_) ?_
    | with_reducible refine Keeps.foldlFst (fun _ _ _ => ?_) ?_

theorem mmContribution_keeps {s0 s : State} (b : Bytes) (c : MatCfg) (n i : Nat) (h : Keeps s0 s) : Keeps s0 (mmContribution b c n i s).1 := by
  unfold mmContribution
  exact mmContribute_keeps _ _ _ _ _ h

theorem State.answer_keeps {s0 s : State} (k : Packet) (status flags resp : Nat) (data : Bytes) (h : Keeps s0 s) : Keeps s0 (State.answer s k status flags resp data) := by
  unfold State.answer
  dsimp only [Keeps]
  repeat' first
    | with_reducible assumption
    | with_reducible apply State.send_keeps

theorem State.forwardErrors_keeps {s0 s : State} (old : State) (ces : List (Nat × Nat)) (h : Keeps s0 s) (h2 : Keeps s0 old) : Keeps s0 (State.forwardErrors s old ces) := by
  unfold State.forwardErrors
  dsimp only [Keeps]
  repeat' first
    | with_reducible assumption
    | with_reducible apply State.corrections_keeps
    | with_reducible refine Keeps.foldl (fun _ _ _ => ?_) ?_

theorem State.sendColl_keeps {s0 s : State} (dst sub flags b12 b13 subject step : Nat) (data : Bytes) (h : Keeps s0 s) : Keeps s0 (State.sendColl s dst sub flags b12 b13 subject step data) := by
  unfold State.sendColl
  dsimp only [Keeps]
  repeat' first
    | with_reducible assumption
    | with_reducible apply State.request_keeps

theorem State.updDesc_keeps {s0 s : State} (id : Nat) (f : Desc → Desc) (h : Keeps s0 s) : Keeps s0 (State.updDesc s id f) := by
  unfold State.updDesc
  dsimp only [Keeps]
  exact h

theorem State.moverWrite_keeps {s0 s : State} (id a : Nat) (b : Bytes) (h : Keeps s0 s) : Keeps s0 (State.moverWrite s id a b) := by
  unfold State.moverWrite
  dsimp only [Keeps]
  repeat' first
    | with_reducible assumption
    | with_reducible apply State.writeBytes_keeps
    | with_reducible apply State.write8_keeps
    | with_reducible apply State.updDesc_keeps
    | with_reducible apply State.setCluster_keeps
    | with_reducible refine Keeps.foldl (fun _ _ _ => ?_) ?_
    | dsimp only [Keeps]
    | split

theorem State.setBkt_keeps {s0 s : State} (b : Nat) (x : Bkt) (h : Keeps s0 s) : Keeps s0 (State.setBkt s b x) := by
  unfold State.setBkt
  dsimp only [Keeps]
  exact h

theorem State.startPrefetch_keeps {s0 s : State} (b : Nat) (h : Keeps s0 s) : Keeps s0 (State.startPrefetch s b) := by
  unfold State.startPrefetch
  dsimp only [Keeps]
  repeat' first
    | with_reducible assumption
    | with_reducible apply State.putOff_keeps
    | with_reducible apply State.setBkt_keeps
    | with_reducible apply State.wakeAll_keeps
    | dsimp only [Keeps]
    | split

theorem State.settleMirror_keeps {s0 s : State} (b : Nat) (h : Keeps s0 s) : Keeps s0 (State.settleMirror s b) := by
  unfold State.settleMirror
  dsimp only [Keeps]
  repeat' first
    | with_reducible assumption
    | with_reducible apply State.setBkt_keeps
    | dsimp only [Keeps]
    | split

theorem State.checkPrefetch_keeps {s0 s : State} (b : Nat) (h : Keeps s0 s) : Keeps s0 (State.checkPrefetch s b) := by
  unfold State.checkPrefetch
  dsimp only [Keeps]
  repeat' first
    | with_reducible assumption
    | with_reducible apply State.startPrefetch_keeps
    | dsimp only [Keeps]
    | split

theorem State.reopen_keeps {s0 s : State} (b step : Nat) (clearFault : Bool) (h : Keeps s0 s) : Keeps s0 (State.reopen s b step clearFault) := by
  unfold State.reopen
  dsimp only [Keeps]
  repeat' first
    | with_reducible assumption
    | with_reducible apply State.setBkt_keeps
    | with_reducible apply State.startPrefetch_keeps
    | with_reducible apply State.settleMirror_keeps
    | with_reducible apply State.checkPrefetch_keeps
    | dsimp only [Keeps]
    | split

theorem State.zeroOutside_keeps {s0 s : State} (a len : Nat) (h : Keeps s0 s) : Keeps s0 (State.zeroOutside s a len) := by
  unfold State.zeroOutside
  dsimp only [Keeps]
  repeat' first
    | with_reducible assumption
    | with_reducible apply State.zeroRange_keeps
    | with_reducible refine Keeps.foldl (fun _ _ _ => ?_) ?_
    | dsimp only [Keeps]
    | split

theorem State.zeroBuffer_keeps {s0 s : State} (b : Nat) (h : Keeps s0 s) : Keeps s0 (State.zeroBuffer s b) := by
  unfold State.zeroBuffer
  dsimp only [Keeps]
  repeat' first
    | with_reducible assumption
    | with_reducible apply State.zeroOutside_keeps
    | with_reducible apply State.putOff_keeps
    | dsimp only [Keeps]
    | split

theorem State.skipBucket_keeps {s0 s : State} (b step : Nat) (h : Keeps s0 s) : Keeps s0 (State.skipBucket s b step) := by
  unfold State.skipBucket
  dsimp only [Keeps]
  repeat' first
    | with_reducible assumption
    | with_reducible apply State.reopen_keeps
    | with_reducible apply State.zeroBuffer_keeps
    | dsimp only [Keeps]
    | split

theorem State.collRequest_keeps {s0 s : State} (use : TxnUse) (dst sub flags b12 b13 subject step : Nat) (data : Bytes) (addr len off : Nat) (h : Keeps s0 s) : Keeps s0 (State.collRequest s use dst sub flags b12 b13 subject step data addr len off) := by
  unfold State.collRequest
  dsimp only [Keeps]
  repeat' first
    | with_reducible assumption
    | with_reducible apply State.request_keeps

theorem State.sendForward_keeps {s0 s : State} (b step mirror : Nat) (h : Keeps s0 s) : Keeps s0 (State.sendForward s b step mirror) := by
  unfold State.sendForward
  dsimp only [Keeps]
  repeat' first
    | with_reducible assumption
    | with_reducible apply State.collRequest_keeps
    | with_reducible apply State.setBkt_keeps
    | with_reducible refine Keeps.foldl (fun _ _ _ => ?_) ?_
    | dsimp only [Keeps]
    | split

theorem State.forwardBuffer_keeps {s0 s : State} (b step mirror : Nat) (h : Keeps s0 s) : Keeps s0 (State.forwardBuffer s b step mirror) := by
  unfold State.forwardBuffer
  dsimp only [Keeps]
  repeat' first
    | with_reducible assumption
    | with_reducible apply State.sendForward_keeps
    | with_reducible apply State.putOff_keeps
    | dsimp only [Keeps]
    | split

theorem State.decideBucket_keeps {s0 s : State} (b step : Nat) (h : Keeps s0 s) : Keeps s0 (State.decideBucket s b step) := by
  unfold State.decideBucket
  dsimp only [Keeps]
  repeat' first
    | with_reducible assumption
    | with_reducible apply State.setBkt_keeps
    | with_reducible apply State.forwardBuffer_keeps
    | with_reducible apply State.startPrefetch_keeps
    | with_reducible apply State.settleMirror_keeps
    | dsimp only [Keeps]
    | split

theorem State.setWork_keeps {s0 s : State} (id : Nat) (w : Work) (h : Keeps s0 s) : Keeps s0 (State.setWork s id w) := by
  unfold State.setWork
  dsimp only [Keeps]
  repeat' first
    | with_reducible assumption
    | with_reducible apply State.updDesc_keeps

theorem State.applyDecision_keeps {s0 s : State} (d : Desc) (x : Decision) (h : Keeps s0 s) : Keeps s0 (State.applyDecision s d x) := by
  unfold State.applyDecision
  dsimp only [Keeps]
  repeat' first
    | with_reducible assumption
    | with_reducible apply State.sendColl_keeps
    | with_reducible apply State.moverWrite_keeps
    | with_reducible apply State.skipBucket_keeps
    | with_reducible apply State.decideBucket_keeps
    | with_reducible apply State.setWork_keeps
    | with_reducible refine Keeps.foldl (fun _ _ _ => ?_) ?_
    | dsimp only [Keeps]
    | split

theorem State.tryCombine_keeps {s0 s : State} (h : Keeps s0 s) : Keeps s0 (State.tryCombine s) := by
  unfold State.tryCombine
  dsimp only [Keeps]
  repeat' first
    | with_reducible assumption
    | with_reducible apply State.sendColl_keeps
    | with_reducible apply State.applyDecision_keeps
    | with_reducible refine Keeps.foldl (fun _ _ _ => ?_) ?_
    | dsimp only [Keeps]
    | split

theorem State.serveGateUp_keeps {s0 s : State} (k : Packet) (m : Meets) (h : Keeps s0 s) : Keeps s0 (State.serveGateUp s k m) := by
  unfold State.serveGateUp
  dsimp only [Keeps]
  repeat' first
    | with_reducible assumption
    | with_reducible apply State.answer_keeps
    | with_reducible apply State.forwardErrors_keeps
    | with_reducible apply State.tryCombine_keeps
    | dsimp only [Keeps]
    | split

theorem State.sleep_keeps {s0 s : State} (d : Nat) (off : Bool) (h : Keeps s0 s) : Keeps s0 (State.sleep s d off) := by
  unfold State.sleep
  dsimp only [Keeps]
  repeat' first
    | with_reducible assumption
    | with_reducible apply State.setDom_keeps

theorem State.turnOff_keeps {s0 s : State} (d : Nat) (h : Keeps s0 s) : Keeps s0 (State.turnOff s d) := by
  unfold State.turnOff
  dsimp only [Keeps]
  repeat' first
    | with_reducible assumption
    | with_reducible apply State.sleep_keeps
    | dsimp only [Keeps]
    | split

theorem State.settleForce_keeps {s0 s : State} (d : Nat) (h : Keeps s0 s) : Keeps s0 (State.settleForce s d) := by
  unfold State.settleForce
  dsimp only [Keeps]
  repeat' first
    | with_reducible assumption
    | with_reducible apply State.sleep_keeps
    | with_reducible apply State.setDom_keeps
    | dsimp only [Keeps]
    | split

theorem State.settleForces_keeps {s0 s : State} (h : Keeps s0 s) : Keeps s0 (State.settleForces s) := by
  unfold State.settleForces
  dsimp only [Keeps]
  repeat' first
    | with_reducible assumption
    | with_reducible apply State.turnOff_keeps
    | with_reducible apply State.settleForce_keeps
    | with_reducible refine Keeps.foldl (fun _ _ _ => ?_) ?_

theorem State.queueAction_keeps {s0 s : State} (p : Nat) (a : Action) (h : Keeps s0 s) : Keeps s0 (State.queueAction s p a) := by
  unfold State.queueAction
  dsimp only [Keeps]
  repeat' first
    | with_reducible assumption
    | with_reducible apply State.setPort_keeps

theorem State.announceWidth_keeps {s0 s : State} (p : Nat) (h : Keeps s0 s) : Keeps s0 (State.announceWidth s p) := by
  unfold State.announceWidth
  dsimp only [Keeps]
  repeat' first
    | with_reducible assumption
    | with_reducible apply State.queueAction_keeps
    | dsimp only [Keeps]
    | split

theorem State.beginFalls_keeps {s0 s : State} (t since : Nat) (h : Keeps s0 s) : Keeps s0 (State.beginFalls s t since) := by
  unfold State.beginFalls
  dsimp only [Keeps]
  repeat' first
    | with_reducible assumption
    | with_reducible apply State.settleForces_keeps
    | with_reducible apply State.announceWidth_keeps
    | with_reducible refine Keeps.foldl (fun _ _ _ => ?_) ?_

theorem State.noteWake_keeps {s0 s : State} (d : Nat) (h : Keeps s0 s) : Keeps s0 (State.noteWake s d) := by
  unfold State.noteWake
  dsimp only [Keeps]
  repeat' first
    | with_reducible assumption
    | dsimp only [Keeps]
    | split

theorem State.endFalls_keeps {s0 s : State} (h : Keeps s0 s) : Keeps s0 (State.endFalls s) := by
  unfold State.endFalls
  dsimp only [Keeps]
  repeat' first
    | with_reducible assumption
    | with_reducible apply State.beginFalls_keeps
    | with_reducible apply State.wake_keeps
    | with_reducible apply State.noteWake_keeps
    | with_reducible refine Keeps.foldl (fun _ _ _ => ?_) ?_
    | dsimp only [Keeps]
    | split

theorem State.endWidening_keeps {s0 s : State} (p w : Nat) (h : Keeps s0 s) : Keeps s0 (State.endWidening s p w) := by
  unfold State.endWidening
  dsimp only [Keeps]
  repeat' first
    | with_reducible assumption
    | with_reducible apply State.queueAction_keeps
    | with_reducible apply State.setPort_keeps
    | dsimp only [Keeps]
    | split

theorem State.moveBack_keeps {s0 s : State} (p : Nat) (h : Keeps s0 s) : Keeps s0 (State.moveBack s p) := by
  unfold State.moveBack
  dsimp only [Keeps]
  repeat' first
    | with_reducible assumption
    | with_reducible apply State.queueAction_keeps
    | with_reducible apply State.setPort_keeps
    | dsimp only [Keeps]
    | split

theorem State.adaptEnds_keeps {s0 s : State} (p : Nat) (h : Keeps s0 s) : Keeps s0 (State.adaptEnds s p) := by
  unfold State.adaptEnds
  dsimp only [Keeps]
  repeat' first
    | with_reducible assumption
    | with_reducible apply State.endWidening_keeps
    | with_reducible apply State.moveBack_keeps
    | dsimp only [Keeps]
    | split

theorem State.i3cTo_keeps {s0 s : State} (addr : Option Nat) (t : State) (h : Keeps s0 s) (h2 : Keeps s0 t) : Keeps s0 (State.i3cTo s addr t) := by
  unfold State.i3cTo
  dsimp only [Keeps]
  repeat' first
    | with_reducible assumption
    | dsimp only [Keeps]
    | split

theorem State.i3cAnswer_keeps {s0 s : State} (r : Reply) (h : Keeps s0 s) : Keeps s0 (State.i3cAnswer s r) := by
  unfold State.i3cAnswer
  dsimp only [Keeps]
  repeat' first
    | with_reducible assumption
    | dsimp only [Keeps]
    | split

theorem State.setCore_keeps {s0 s : State} (k : Nat) (c : Core) (h : Keeps s0 s) : Keeps s0 (State.setCore s k c) := by
  unfold State.setCore
  dsimp only [Keeps]
  repeat' first
    | with_reducible assumption
    | with_reducible apply State.setCluster_keeps

theorem State.coreFault_keeps {s0 s : State} (k cause : Nat) (h : Keeps s0 s) : Keeps s0 (State.coreFault s k cause) := by
  unfold State.coreFault
  dsimp only [Keeps]
  repeat' first
    | with_reducible assumption
    | with_reducible apply State.settleForces_keeps
    | with_reducible apply State.touch_keeps
    | with_reducible apply State.setCore_keeps

theorem State.dmkEnd_keeps {s0 s : State} (f : Fail) (h : Keeps s0 s) : Keeps s0 (State.dmkEnd s f) := by
  unfold State.dmkEnd
  dsimp only [Keeps]
  repeat' first
    | with_reducible assumption
    | with_reducible apply State.attn_keeps

theorem State.checkEnv_keeps {s0 s : State} (h : Keeps s0 s) : Keeps s0 (State.checkEnv s) := by
  unfold State.checkEnv
  dsimp only [Keeps]
  repeat' first
    | with_reducible assumption
    | with_reducible apply State.beginFalls_keeps
    | dsimp only [Keeps]
    | split

theorem State.recordEnv_keeps {s0 s : State} (code : Nat) (h : Keeps s0 s) : Keeps s0 (State.recordEnv s code) := by
  unfold State.recordEnv
  dsimp only [Keeps]
  repeat' first
    | with_reducible assumption
    | with_reducible apply State.checkEnv_keeps

theorem State.resetBuckets_keeps {s0 s : State} (h : Keeps s0 s) : Keeps s0 (State.resetBuckets s) := by
  unfold State.resetBuckets
  dsimp only [Keeps]
  exact h

theorem State.writeNat_keeps {s0 s : State} (a n v : Nat) (h : Keeps s0 s) : Keeps s0 (State.writeNat s a n v) := by
  unfold State.writeNat
  dsimp only [Keeps]
  repeat' first
    | with_reducible assumption
    | with_reducible apply State.writeBytes_keeps

theorem State.setHeader_keeps {s0 s : State} (f active : Nat) (busy : Bool) (h : Keeps s0 s) : Keeps s0 (State.setHeader s f active busy) := by
  unfold State.setHeader
  dsimp only [Keeps]
  repeat' first
    | with_reducible assumption
    | with_reducible apply State.writeNat_keeps
    | dsimp only [Keeps]
    | split

theorem State.setFactor_keeps {s0 s : State} (f : Nat) (x : Factor) (h : Keeps s0 s) : Keeps s0 (State.setFactor s f x) := by
  unfold State.setFactor
  dsimp only [Keeps]
  exact h

theorem State.createFactor_keeps {s0 s : State} (f : Nat) (h : Keeps s0 s) : Keeps s0 (State.createFactor s f) := by
  unfold State.createFactor
  dsimp only [Keeps]
  repeat' first
    | with_reducible assumption
    | with_reducible apply State.zeroRange_keeps
    | with_reducible apply State.writeNat_keeps
    | with_reducible apply State.setHeader_keeps
    | with_reducible apply State.setFactor_keeps
    | with_reducible refine Keeps.foldl (fun _ _ _ => ?_) ?_

theorem State.resetFactors_keeps {s0 s : State} (old : State) (h : Keeps s0 s) (h2 : Keeps s0 old) : Keeps s0 (State.resetFactors s old) := by
  unfold State.resetFactors
  dsimp only [Keeps]
  repeat' first
    | with_reducible assumption
    | with_reducible apply State.writeBytes_keeps
    | with_reducible apply State.createFactor_keeps
    | with_reducible refine Keeps.foldl (fun _ _ _ => ?_) ?_

theorem State.resetStashes_keeps {s0 s : State} (old : Option Image) (h : Keeps s0 s) : Keeps s0 (State.resetStashes s old) := by
  unfold State.resetStashes
  dsimp only [Keeps]
  exact h

theorem State.train_keeps {s0 s : State} (p : Nat) (h : Keeps s0 s) : Keeps s0 (State.train s p) := by
  unfold State.train
  dsimp only [Keeps]
  repeat' first
    | with_reducible assumption
    | with_reducible apply State.setPort_keeps

theorem State.bringUp_keeps {s0 s : State} (p : Nat) (h : Keeps s0 s) : Keeps s0 (State.bringUp s p) := by
  unfold State.bringUp
  dsimp only [Keeps]
  repeat' first
    | with_reducible assumption
    | with_reducible apply State.setPort_keeps
    | with_reducible apply State.train_keeps
    | with_reducible apply State.wake_keeps
    | dsimp only [Keeps]
    | split

theorem State.retrainChanged_keeps {s0 s : State} (old : Topology) (h : Keeps s0 s) : Keeps s0 (State.retrainChanged s old) := by
  unfold State.retrainChanged
  dsimp only [Keeps]
  repeat' first
    | with_reducible assumption
    | with_reducible apply State.bringUp_keeps
    | with_reducible apply State.train_keeps
    | with_reducible refine Keeps.foldl (fun _ _ _ => ?_) ?_
    | dsimp only [Keeps]
    | split

theorem State.putInForce_keeps {s0 s : State} (im : Image) (pipeReset : Bool) (h : Keeps s0 s) : Keeps s0 (State.putInForce s im pipeReset) := by
  unfold State.putInForce
  dsimp only [Keeps]
  repeat' first
    | with_reducible assumption
    | with_reducible apply State.resetBuckets_keeps
    | with_reducible apply State.resetFactors_keeps
    | with_reducible apply State.resetStashes_keeps
    | with_reducible apply State.calicoDirty_keeps
    | with_reducible apply State.retrainChanged_keeps
    | with_reducible apply State.checkPrefetch_keeps
    | with_reducible apply State.wake_keeps
    | with_reducible apply State.settleForces_keeps
    | with_reducible apply State.touch_keeps
    | with_reducible refine Keeps.foldl (fun _ _ _ => ?_) ?_
    | dsimp only [Keeps]
    | split

theorem State.clearMemory_keeps {s0 s : State} (rs : List (Nat × Nat)) (h : Keeps s0 s) : Keeps s0 (State.clearMemory s rs) := by
  unfold State.clearMemory
  dsimp only [Keeps]
  repeat' first
    | with_reducible assumption
    | with_reducible apply State.zeroRange_keeps
    | with_reducible apply State.wakeAll_keeps
    | with_reducible refine Keeps.foldl (fun _ _ _ => ?_) ?_

theorem State.applyLoad_keeps {s0 s : State} (c : LoadCase) (new im : Image) (h : Keeps s0 s) : Keeps s0 (State.applyLoad s c new im).1 := by
  have k : Keeps s0 (if (clearRanges (s.dmk.inForce.bind (·.memory)) im.memory).isEmpty then
      ((s.clearMemory (clearRanges (s.dmk.inForce.bind (·.memory)) im.memory)).putInForce im new.pipeline.isSome).recordEnv (im.power.getD 1)
      else (s.clearMemory (clearRanges (s.dmk.inForce.bind (·.memory)) im.memory)).putInForce im new.pipeline.isSome) := by
    split
    · exact State.recordEnv_keeps _ (State.putInForce_keeps _ _ (State.clearMemory_keeps _ h))
    · exact State.putInForce_keeps _ _ (State.clearMemory_keeps _ h)
  cases c with
  | reshard => exact h
  | live =>
    dsimp only [State.applyLoad]
    have k1 : ∀ x, Keeps s0 { s with dmk := x } := fun _ => ⟨h.1, h.2, h.3⟩
    cases new.power with
    | none => exact k1 _
    | some e => exact State.recordEnv_keeps e (k1 _)
  | _ => exact k

theorem State.loadImage_keeps {s0 s : State} (b : Bytes) (held : Bool) (h : Keeps s0 s) : Keeps s0 (State.loadImage s b held) := by
  unfold State.loadImage
  dsimp only [Keeps]
  repeat' first
    | with_reducible assumption
    | with_reducible apply State.touch_keeps
    | with_reducible apply State.putOff_keeps
    | with_reducible apply State.dmkEnd_keeps
    | with_reducible apply State.applyLoad_keeps
    | dsimp only [Keeps]
    | split

theorem State.loadSlot_keeps {s0 s : State} (slot : Nat) (h : Keeps s0 s) : Keeps s0 (State.loadSlot s slot) := by
  unfold State.loadSlot
  dsimp only [Keeps]
  repeat' first
    | with_reducible assumption
    | with_reducible apply State.dmkEnd_keeps
    | with_reducible apply State.loadImage_keeps
    | dsimp only [Keeps]
    | split

theorem State.bootEnds_keeps {s0 s : State} (h : Keeps s0 s) : Keeps s0 (State.bootEnds s) := by
  unfold State.bootEnds
  dsimp only [Keeps]
  repeat' first
    | with_reducible assumption
    | dsimp only [Keeps]
    | split

theorem State.bootLoad_keeps {s0 s : State} (h : Keeps s0 s) : Keeps s0 (State.bootLoad s) := by
  unfold State.bootLoad
  dsimp only [Keeps]
  repeat' first
    | with_reducible assumption
    | with_reducible apply State.bootEnds_keeps
    | with_reducible apply State.loadSlot_keeps
    | dsimp only [Keeps]
    | split

theorem State.dirtyIfLanes_keeps {s0 s : State} (old : State) (p : Nat) (h : Keeps s0 s) (h2 : Keeps s0 old) : Keeps s0 (State.dirtyIfLanes s old p) := by
  unfold State.dirtyIfLanes
  dsimp only [Keeps]
  repeat' first
    | with_reducible assumption
    | with_reducible apply State.calicoDirty_keeps
    | dsimp only [Keeps]
    | split

theorem State.sendBeacon_keeps {s0 s : State} (q : Nat) (x : BeaconData) (h : Keeps s0 s) : Keeps s0 (State.sendBeacon s q x) := by
  unfold State.sendBeacon
  dsimp only [Keeps]
  repeat' first
    | with_reducible assumption
    | with_reducible apply State.send_keeps
    | dsimp only [Keeps]
    | split

theorem State.sendBeacons_keeps {s0 s : State} (p : Nat) (x : BeaconData) (h : Keeps s0 s) : Keeps s0 (State.sendBeacons s p x) := by
  unfold State.sendBeacons
  dsimp only [Keeps]
  repeat' first
    | with_reducible assumption
    | with_reducible apply State.sendBeacon_keeps
    | with_reducible refine Keeps.foldl (fun _ _ _ => ?_) ?_

theorem State.logLoss_keeps {s0 s : State} (p cause partner : Nat) (h : Keeps s0 s) : Keeps s0 (State.logLoss s p cause partner) := by
  unfold State.logLoss
  dsimp only [Keeps]
  repeat' first
    | with_reducible assumption
    | with_reducible apply State.logFault_keeps
    | with_reducible apply State.sendBeacons_keeps
    | dsimp only [Keeps]
    | split

theorem State.rootRecord_keeps {s0 s : State} (d : Desc) (node f handle : Nat) (ans : Bytes) (h : Keeps s0 s) : Keeps s0 (State.rootRecord s d node f handle ans) := by
  unfold State.rootRecord
  dsimp only [Keeps]
  repeat' first
    | with_reducible assumption
    | with_reducible apply State.moverWrite_keeps
    | dsimp only [Keeps]
    | split

theorem State.sendElements_keeps {s0 s : State} (d : Desc) (x : Later) (h : Keeps s0 s) : Keeps s0 (State.sendElements d s x) := by
  unfold State.sendElements
  dsimp only [Keeps]
  repeat' first
    | with_reducible assumption
    | with_reducible apply State.request_keeps

theorem State.sendLater_keeps {s0 s : State} (d : Desc) (h : Keeps s0 s) : Keeps s0 (State.sendLater s d) := by
  unfold State.sendLater
  dsimp only [Keeps]
  repeat' first
    | with_reducible assumption
    | with_reducible apply State.sendElements_keeps
    | with_reducible apply State.updDesc_keeps
    | with_reducible refine Keeps.foldl (fun _ _ _ => ?_) ?_

theorem State.countBucket_keeps {s0 s : State} (b n step : Nat) (h : Keeps s0 s) : Keeps s0 (State.countBucket s b n step) := by
  unfold State.countBucket
  dsimp only [Keeps]
  repeat' first
    | with_reducible assumption
    | with_reducible apply State.setBkt_keeps
    | with_reducible apply State.checkPrefetch_keeps
    | dsimp only [Keeps]
    | split

theorem State.endRemote_keeps {s0 s : State} (d : Desc) (phase st fl : Nat) (r : Word) (h : Keeps s0 s) : Keeps s0 (State.endRemote s d phase st fl r) := by
  unfold State.endRemote
  dsimp only [Keeps]
  repeat' first
    | with_reducible assumption
    | with_reducible apply State.setWork_keeps
    | with_reducible apply State.sendBucket_keeps
    | with_reducible apply State.countBucket_keeps
    | dsimp only [Keeps]
    | split

theorem State.askDest_keeps {s0 s : State} (d : Desc) (r : Nat × Nat) (h : Keeps s0 s) : Keeps s0 (State.askDest d s r) := by
  unfold State.askDest
  dsimp only [Keeps]
  repeat' first
    | with_reducible assumption
    | with_reducible apply State.request_keeps

theorem State.sendChecked_keeps {s0 s : State} (d : Desc) (ps : List Later) (h : Keeps s0 s) : Keeps s0 (State.sendChecked s d ps).1 := by
  unfold State.sendChecked
  dsimp only [Keeps]
  repeat' first
    | with_reducible assumption
    | with_reducible apply State.sendElements_keeps
    | with_reducible apply State.askDest_keeps
    | with_reducible apply State.updDesc_keeps
    | with_reducible refine Keeps.foldl (fun _ _ _ => ?_) ?_
    | with_reducible refine Keeps.foldlFst (fun _ _ _ => ?_) ?_
    | dsimp only [Keeps]
    | split

theorem State.moverWriteOk_keeps {s0 s : State} (id a : Nat) (b : Bytes) (h : Keeps s0 s) : Keeps s0 (State.moverWriteOk s id a b).1 := by
  unfold State.moverWriteOk
  dsimp only [Keeps]
  repeat' first
    | with_reducible assumption
    | with_reducible apply State.moverWrite_keeps
    | with_reducible refine Keeps.foldl (fun _ _ _ => ?_) ?_
    | with_reducible refine Keeps.foldlFst (fun _ _ _ => ?_) ?_
    | dsimp only [Keeps]
    | split

theorem State.placeGot_keeps {s0 s : State} (d : Desc) (h : Keeps s0 s) : Keeps s0 (State.placeGot s d).1 := by
  unfold State.placeGot
  dsimp only [Keeps]
  repeat' first
    | with_reducible assumption
    | with_reducible apply State.moverWriteOk_keeps
    | with_reducible apply State.updDesc_keeps
    | with_reducible refine Keeps.foldl (fun _ _ _ => ?_) ?_
    | with_reducible refine Keeps.foldlFst (fun _ _ _ => ?_) ?_

theorem State.moveGot_keeps {s0 s : State} (d : Desc) (phase st fl : Nat) (r : Word) (h : Keeps s0 s) : Keeps s0 (State.moveGot s d phase st fl r) := by
  unfold State.moveGot
  dsimp only [Keeps]
  repeat' first
    | with_reducible assumption
    | with_reducible apply State.endRemote_keeps
    | with_reducible apply State.updDesc_keeps
    | with_reducible apply State.sendChecked_keeps
    | with_reducible apply State.setWork_keeps
    | with_reducible apply State.putOff_keeps
    | with_reducible apply State.placeGot_keeps
    | dsimp only [Keeps]
    | split

theorem State.remoteStep_keeps {s0 s : State} (id : Nat) (h : Keeps s0 s) : Keeps s0 (State.remoteStep s id) := by
  unfold State.remoteStep
  dsimp only [Keeps]
  repeat' first
    | with_reducible assumption
    | with_reducible apply State.setWork_keeps
    | with_reducible apply State.sendLater_keeps
    | with_reducible apply State.endRemote_keeps
    | with_reducible apply State.updDesc_keeps
    | with_reducible apply State.moveGot_keeps
    | dsimp only [Keeps]
    | split

theorem State.finishRemote_keeps {s0 s : State} (id : Nat) (h : Keeps s0 s) : Keeps s0 (State.finishRemote s id) := by
  unfold State.finishRemote
  dsimp only [Keeps]
  repeat' first
    | with_reducible assumption
    | with_reducible apply State.remoteStep_keeps

theorem State.finishRing_keeps {s0 s : State} (id : Nat) (h : Keeps s0 s) : Keeps s0 (State.finishRing s id) := by
  unfold State.finishRing
  dsimp only [Keeps]
  repeat' first
    | with_reducible assumption
    | with_reducible apply State.setWork_keeps
    | with_reducible apply State.sendBucket_keeps
    | dsimp only [Keeps]
    | split

theorem State.clearBuffer_keeps {s0 s : State} (n : Nat) (b : Bytes) (h : Keeps s0 s) : Keeps s0 (State.clearBuffer s n b) := by
  unfold State.clearBuffer
  dsimp only [Keeps]
  repeat' first
    | with_reducible assumption
    | with_reducible apply State.writeStore_keeps
    | with_reducible apply State.setCluster_keeps
    | with_reducible refine Keeps.foldl (fun _ _ _ => ?_) ?_

theorem State.curvAccepted_keeps {s0 s : State} (d : Desc) (p : Bytes) (flags : Nat) (h : Keeps s0 s) : Keeps s0 (State.curvAccepted s d p flags) := by
  unfold State.curvAccepted
  dsimp only [Keeps]
  repeat' first
    | with_reducible assumption
    | with_reducible apply State.setWork_keeps
    | with_reducible apply State.clearBuffer_keeps

theorem State.sendSegment_keeps {s0 s : State} (d : Desc) (p : Bytes) (i : Nat) (h : Keeps s0 s) : Keeps s0 (State.sendSegment s d p i) := by
  unfold State.sendSegment
  dsimp only [Keeps]
  repeat' first
    | with_reducible assumption
    | with_reducible apply State.request_keeps

theorem State.segmentAnswer_keeps {s0 s : State} (d : Desc) (p : Bytes) (acked : Nat) (retry : Option Nat) (fl st resp : Nat) (h : Keeps s0 s) : Keeps s0 (State.segmentAnswer s d p acked retry fl st resp) := by
  unfold State.segmentAnswer
  dsimp only [Keeps]
  repeat' first
    | with_reducible assumption
    | with_reducible apply State.setWork_keeps
    | with_reducible apply State.curvAccepted_keeps
    | with_reducible apply State.sendSegment_keeps
    | with_reducible refine Keeps.foldl (fun _ _ _ => ?_) ?_
    | dsimp only [Keeps]
    | split

theorem State.gatherEnd_keeps {s0 s : State} (id : Nat) (h : Keeps s0 s) : Keeps s0 (State.gatherEnd s id) := by
  unfold State.gatherEnd
  dsimp only [Keeps]
  repeat' first
    | with_reducible assumption
    | with_reducible apply State.setWork_keeps
    | with_reducible apply State.putOff_keeps
    | with_reducible apply State.placeGot_keeps
    | dsimp only [Keeps]
    | split

theorem State.endBcast_keeps {s0 s : State} (d : Desc) (h : Keeps s0 s) : Keeps s0 (State.endBcast s d) := by
  unfold State.endBcast
  dsimp only [Keeps]
  repeat' first
    | with_reducible assumption
    | with_reducible apply State.setWork_keeps
    | dsimp only [Keeps]
    | split

theorem State.descAnswer_keeps {s0 s : State} (d : Desc) (t : Txn) (st fl resp : Nat) (data : Bytes) (h : Keeps s0 s) : Keeps s0 (State.descAnswer s d t st fl resp data) := by
  unfold State.descAnswer
  dsimp only [Keeps]
  repeat' first
    | with_reducible assumption
    | with_reducible apply State.rootRecord_keeps
    | with_reducible apply State.setWork_keeps
    | with_reducible apply State.finishRemote_keeps
    | with_reducible apply State.updDesc_keeps
    | with_reducible apply State.finishRing_keeps
    | with_reducible apply State.segmentAnswer_keeps
    | with_reducible apply State.gatherEnd_keeps
    | with_reducible apply State.endBcast_keeps
    | dsimp only [Keeps]
    | split

theorem State.mirrorAnswer_keeps {s0 s : State} (b id st : Nat) (h : Keeps s0 s) : Keeps s0 (State.mirrorAnswer s b id st) := by
  unfold State.mirrorAnswer
  dsimp only [Keeps]
  repeat' first
    | with_reducible assumption
    | with_reducible apply State.setBkt_keeps
    | dsimp only [Keeps]
    | split

theorem State.sendFp_keeps {s0 s : State} (b flags : Nat) (run again : Word) (h : Keeps s0 s) : Keeps s0 (State.sendFp s b flags run again) := by
  unfold State.sendFp
  dsimp only [Keeps]
  repeat' first
    | with_reducible assumption
    | with_reducible apply State.sendColl_keeps
    | dsimp only [Keeps]
    | split

theorem State.overwriteAnswer_keeps {s0 s : State} (b st : Nat) (h : Keeps s0 s) : Keeps s0 (State.overwriteAnswer s b st) := by
  unfold State.overwriteAnswer
  dsimp only [Keeps]
  repeat' first
    | with_reducible assumption
    | with_reducible apply State.sendFp_keeps
    | dsimp only [Keeps]
    | split

theorem State.setParamStep_keeps {s0 s : State} (b step : Nat) (h : Keeps s0 s) : Keeps s0 (State.setParamStep s b step) := by
  unfold State.setParamStep
  dsimp only [Keeps]
  exact h

theorem State.endRelay_keeps {s0 s : State} (r : Relay) (h : Keeps s0 s) : Keeps s0 (State.endRelay s r) := by
  unfold State.endRelay
  dsimp only [Keeps]
  repeat' first
    | with_reducible assumption
    | with_reducible apply State.setParamStep_keeps
    | with_reducible apply State.answer_keeps
    | dsimp only [Keeps]
    | split

theorem State.setRelay_keeps {s0 s : State} (r : Relay) (h : Keeps s0 s) : Keeps s0 (State.setRelay s r) := by
  unfold State.setRelay
  dsimp only [Keeps]
  exact h

theorem State.relayAnswer_keeps {s0 s : State} (src up txn st : Nat) (h : Keeps s0 s) : Keeps s0 (State.relayAnswer s src up txn st) := by
  unfold State.relayAnswer
  dsimp only [Keeps]
  repeat' first
    | with_reducible assumption
    | with_reducible apply State.endRelay_keeps
    | with_reducible apply State.setRelay_keeps
    | dsimp only [Keeps]
    | split

theorem State.respond_keeps {s0 s : State} (txn st fl resp : Nat) (data : Bytes) (h : Keeps s0 s) : Keeps s0 (State.respond s txn st fl resp data) := by
  unfold State.respond
  dsimp only [Keeps]
  repeat' first
    | with_reducible assumption
    | with_reducible apply State.descAnswer_keeps
    | with_reducible apply State.mirrorAnswer_keeps
    | with_reducible apply State.overwriteAnswer_keeps
    | with_reducible apply State.relayAnswer_keeps
    | dsimp only [Keeps]
    | split

theorem State.failTxn_keeps {s0 s : State} (t : Txn) (h : Keeps s0 s) : Keeps s0 (State.failTxn s t) := by
  unfold State.failTxn
  dsimp only [Keeps]
  repeat' first
    | with_reducible assumption
    | with_reducible apply State.respond_keeps

theorem State.failNew_keeps {s0 s : State} (h : Keeps s0 s) : Keeps s0 (State.failNew s) := by
  unfold State.failNew
  dsimp only [Keeps]
  repeat' first
    | with_reducible assumption
    | with_reducible apply State.failTxn_keeps
    | with_reducible refine Keeps.foldl (fun _ _ _ => ?_) ?_

theorem State.writeCorrections_keeps {s0 s : State} (ces : List (Nat × Nat)) (a n : Nat) (h : Keeps s0 s) : Keeps s0 (State.writeCorrections s ces a n) := by
  unfold State.writeCorrections
  dsimp only [Keeps]
  repeat' first
    | with_reducible assumption
    | with_reducible apply State.corrected_keeps
    | with_reducible refine Keeps.foldl (fun _ _ _ => ?_) ?_

theorem State.meetErrors_keeps {s0 s : State} (d : Desc) (h : Keeps s0 s) : Keeps s0 (State.meetErrors s d) := by
  unfold State.meetErrors
  dsimp only [Keeps]
  repeat' first
    | with_reducible assumption
    | with_reducible apply State.corrections_keeps
    | with_reducible apply State.writeCorrections_keeps
    | with_reducible refine Keeps.foldl (fun _ _ _ => ?_) ?_
    | dsimp only [Keeps]
    | split

theorem cgEntry_keeps {s0 s : State} (b : Bytes) (c : MatCfg) (n v i j : Nat) (h : Keeps s0 s) : Keeps s0 (cgEntry b c n v i j s).1 := by
  unfold cgEntry
  dsimp only [Keeps]
  repeat' first
    | with_reducible assumption
    | with_reducible apply putFp32_keeps
    | dsimp only [Keeps]
    | split

theorem cgBlock_keeps {s0 s : State} (b : Bytes) (c : MatCfg) (n : Nat) (h : Keeps s0 s) : Keeps s0 (cgBlock b c n s).1 := by
  unfold cgBlock
  dsimp only [Keeps]
  repeat' first
    | with_reducible assumption
    | with_reducible apply cgEntry_keeps
    | with_reducible refine Keeps.foldl (fun _ _ _ => ?_) ?_
    | with_reducible refine Keeps.foldlFst (fun _ _ _ => ?_) ?_

theorem State.countArray_keeps {s0 s : State} (n prod busy : Nat) (h : Keeps s0 s) : Keeps s0 (State.countArray s n prod busy) := by
  unfold State.countArray
  dsimp only [Keeps]
  repeat' first
    | with_reducible assumption
    | with_reducible apply State.setCluster_keeps

theorem State.enterRing_keeps {s0 s : State} (f : Nat) (p : Bytes) (h : Keeps s0 s) : Keeps s0 (State.enterRing s f p) := by
  unfold State.enterRing
  dsimp only [Keeps]
  repeat' first
    | with_reducible assumption
    | with_reducible apply State.setFactor_keeps
    | with_reducible apply State.writeBytes_keeps
    | with_reducible refine Keeps.foldl (fun _ _ _ => ?_) ?_

theorem State.emitLocal_keeps {s0 s : State} (d : Desc) (p : Bytes) (flags : Nat) (h : Keeps s0 s) : Keeps s0 (State.emitLocal s d p flags) := by
  unfold State.emitLocal
  dsimp only [Keeps]
  repeat' first
    | with_reducible assumption
    | with_reducible apply State.setWork_keeps
    | with_reducible apply State.wakeAll_keeps
    | with_reducible apply State.curvAccepted_keeps
    | with_reducible apply State.enterRing_keeps
    | dsimp only [Keeps]
    | split

theorem State.runCurv_keeps {s0 s : State} (d : Desc) (h : Keeps s0 s) : Keeps s0 (State.runCurv s d) := by
  unfold State.runCurv
  dsimp only [Keeps]
  repeat' first
    | with_reducible assumption
    | with_reducible apply cgBlock_keeps
    | with_reducible apply State.countArray_keeps
    | with_reducible apply State.setCluster_keeps
    | with_reducible apply State.setWork_keeps
    | with_reducible apply State.emitLocal_keeps
    | with_reducible apply State.sendSegment_keeps
    | dsimp only [Keeps]
    | split

theorem State.settle_keeps {s0 s : State} (d : Desc) (status flags : Nat) (result : Word) (phase : Nat) (h : Keeps s0 s) : Keeps s0 (State.settle s d status flags result phase) := by
  unfold State.settle
  dsimp only [Keeps]
  repeat' first
    | with_reducible assumption
    | with_reducible apply State.finishRemote_keeps
    | with_reducible apply State.setWork_keeps

theorem State.afterRead_keeps {s0 s : State} (a n : Nat) (h : Keeps s0 s) : Keeps s0 (State.afterRead s a n) := by
  unfold State.afterRead
  dsimp only [Keeps]
  repeat' first
    | with_reducible assumption
    | dsimp only [Keeps]
    | split

theorem State.moveRow_keeps {s0 s : State} (d : Desc) (src dst len : Nat) (h : Keeps s0 s) : Keeps s0 (State.moveRow s d src dst len) := by
  unfold State.moveRow
  dsimp only [Keeps]
  repeat' first
    | with_reducible assumption
    | with_reducible apply State.afterRead_keeps
    | with_reducible apply State.moverWrite_keeps

theorem State.sendReads_keeps {s0 s : State} (use : TxnUse) (epoch src dst len : Nat) (h : Keeps s0 s) : Keeps s0 (State.sendReads s use epoch src dst len) := by
  unfold State.sendReads
  dsimp only [Keeps]
  repeat' first
    | with_reducible assumption
    | with_reducible apply State.request_keeps
    | with_reducible refine Keeps.foldl (fun _ _ _ => ?_) ?_

theorem State.runCopy_keeps {s0 s : State} (d : Desc) (h : Keeps s0 s) : Keeps s0 (State.runCopy s d) := by
  unfold State.runCopy
  dsimp only [Keeps]
  repeat' first
    | with_reducible assumption
    | with_reducible apply State.setWork_keeps
    | with_reducible apply State.settle_keeps
    | with_reducible apply State.moveRow_keeps
    | with_reducible apply State.sendChecked_keeps
    | with_reducible apply State.afterRead_keeps
    | with_reducible apply State.sendReads_keeps
    | with_reducible refine Keeps.foldl (fun _ _ _ => ?_) ?_
    | dsimp only [Keeps]
    | split

theorem State.setPass_keeps {s0 s : State} (b : Nat) (x : RingPass) (h : Keeps s0 s) : Keeps s0 (State.setPass s b x) := by
  unfold State.setPass
  dsimp only [Keeps]
  exact h

theorem State.sendBytes_keeps {s0 s : State} (dst sub b step : Nat) (data : Bytes) (h : Keeps s0 s) : Keeps s0 (State.sendBytes s dst sub b step data) := by
  unfold State.sendBytes
  dsimp only [Keeps]
  repeat' first
    | with_reducible assumption
    | with_reducible apply State.sendColl_keeps
    | with_reducible refine Keeps.foldl (fun _ _ _ => ?_) ?_

theorem State.ringBlock_keeps {s0 s : State} (d : Desc) (dist i : Nat) (inn : Option Bytes) (scale : Nat) (h : Keeps s0 s) : Keeps s0 (State.ringBlock s d dist i inn scale) := by
  unfold State.ringBlock
  dsimp only [Keeps]
  repeat' first
    | with_reducible assumption
    | with_reducible apply State.moverWrite_keeps
    | with_reducible apply State.collRequest_keeps
    | with_reducible apply State.setWork_keeps
    | with_reducible refine Keeps.foldl (fun _ _ _ => ?_) ?_
    | dsimp only [Keeps]
    | split

theorem State.ringAdvance.go_keeps {s0 s : State} (d : Desc) (dist bk nb a4 : Nat) (h : Keeps s0 s) : Keeps s0 (State.ringAdvance.go d dist bk nb a4 s) := by
  induction a4 generalizing s with
  | zero => exact h
  | succ k ih =>
    unfold State.ringAdvance.go
    dsimp only
    split
    · exact ih (State.setPass_keeps _ _ (State.ringBlock_keeps _ _ _ _ _ h))
    · exact h

theorem State.ringAdvance_keeps {s0 s : State} (bk : Nat) (h : Keeps s0 s) : Keeps s0 (State.ringAdvance s bk) := by
  unfold State.ringAdvance
  dsimp only [Keeps]
  repeat' first
    | with_reducible assumption
    | with_reducible apply State.setPass_keeps
    | with_reducible apply State.sendBytes_keeps
    | with_reducible apply State.ringBlock_keeps
    | with_reducible apply State.ringAdvance.go_keeps
    | with_reducible refine Keeps.foldl (fun _ _ _ => ?_) ?_
    | dsimp only [Keeps]
    | split

theorem State.sendLast_keeps {s0 s : State} (d : Desc) (ps : List Later) (h : Keeps s0 s) : Keeps s0 (State.sendLast s d ps).1 := by
  unfold State.sendLast
  dsimp only [Keeps]
  repeat' first
    | with_reducible assumption
    | with_reducible apply State.askDest_keeps
    | with_reducible apply State.updDesc_keeps
    | with_reducible apply State.sendElements_keeps
    | dsimp only [Keeps]
    | split

theorem applyElement_keeps {s0 s : State} (op a : Nat) (src : Bytes) (h : Keeps s0 s) : Keeps s0 (applyElement s op a src).st := by
  unfold applyElement
  dsimp only [Keeps]
  repeat' first
    | with_reducible assumption
    | with_reducible apply State.writeNat_keeps
    | with_reducible apply State.writeBytes_keeps
    | with_reducible refine Keeps.foldlSt (fun _ _ _ => ?_) ?_
    | dsimp only [Keeps]
    | split

theorem applyElements_keeps {s0 s : State} (op a : Nat) (els : List Bytes) (h : Keeps s0 s) : Keeps s0 (applyElements s op a els).st := by
  unfold applyElements
  refine Keeps.foldlSt (fun _ _ k => ?_) h
  exact applyElement_keeps _ _ _ k

theorem thinRun_keeps {s0 : State} (id : Nat) (b : Bytes) (acc : State × List (Nat × Bytes × Nat) × Nat) (g : Nat × Nat) (h : Keeps s0 acc.1) :
    Keeps s0 (State.thinRun id b acc g).1 := State.moverWrite_keeps _ _ _ h

theorem applyGroup_keeps {s0 : State} (op dst : Nat) (acc : Applied) (g : Nat × Bytes × Nat) (h : Keeps s0 acc.st) :
    Keeps s0 (applyGroup op dst acc g).st := applyElements_keeps _ _ _ h

theorem State.runVoile_keeps {s0 s : State} (d : Desc) (h : Keeps s0 s) : Keeps s0 (State.runVoile s d) := by
  unfold State.runVoile
  extract_lets b op dst here runs st0 r gs a s1
  have k : Keeps s0 r.1 := Keeps.foldlFst (fun _ _ k => thinRun_keeps _ _ _ _ k) h
  have ka : Keeps s0 a.st := Keeps.foldlSt (fun _ _ k => applyGroup_keeps _ _ _ _ k) k
  have k1 : Keeps s0 s1.1 := State.sendLast_keeps _ _ k
  clear_value r a s1
  split
  · exact State.setWork_keeps _ _ k
  · split
    · exact State.settle_keeps _ _ _ _ _ ka
    · exact State.settle_keeps _ _ _ _ _ k1

theorem State.sendRacc_keeps {s0 s : State} (d : Desc) (h : Keeps s0 s) : Keeps s0 (State.sendRacc s d).1 := by
  unfold State.sendRacc
  dsimp only [Keeps]
  repeat' first
    | with_reducible assumption
    | with_reducible apply State.sendLast_keeps

theorem State.askFirst_keeps {s0 s : State} (d : Desc) (h : Keeps s0 s) : Keeps s0 (State.askFirst s d) := by
  unfold State.askFirst
  dsimp only [Keeps]
  repeat' first
    | with_reducible assumption
    | with_reducible apply State.setWork_keeps
    | with_reducible apply State.askDest_keeps
    | dsimp only [Keeps]

theorem State.runRacc_keeps {s0 s : State} (d : Desc) (h : Keeps s0 s) : Keeps s0 (State.runRacc s d) := by
  unfold State.runRacc
  have k : ∀ (l : List Nat) (dst w op st0 : Nat), Keeps s0 (l.foldl (fun (acc : Applied) i =>
      let r := applyElement acc.st op (dst + i * racDst op) (acc.st.readBytes (Rc.src d.bytes + i * w) w)
      let q := if op = 5 ∧ r.status = stOK then r.st.moverWriteOk d.id (Rc.ret d.bytes + i * 8) r.old else (r.st, stOK)
      { st := q.1, status := worse acc.status (worse r.status q.2), flags := acc.flags ||| r.flags }) { st := s, status := st0 }).st :=
    fun l dst w op st0 => Keeps.foldlSt (fun a i k => by
      dsimp only
      split
      · exact State.moverWriteOk_keeps _ _ _ (applyElement_keeps _ _ _ k)
      · exact applyElement_keeps _ _ _ k) h
  extract_lets b op here compress w idx st0 dst a s1
  have ka : Keeps s0 a.st := k _ _ _ _ _
  have k1 : Keeps s0 s1.1 := State.sendRacc_keeps _ h
  clear_value a s1
  split
  · exact State.setWork_keeps _ _ h
  · split
    · exact State.askFirst_keeps _ h
    · split
      · exact State.ringAdvance_keeps _ (State.setWork_keeps _ _ h)
      · split
        · exact State.runVoile_keeps _ h
        · split
          · exact State.setWork_keeps _ _ h
          · split
            · exact State.settle_keeps _ _ _ _ _ ka
            · exact State.settle_keeps _ _ _ _ _ k1

theorem State.takeHold_keeps {s0 s : State} (f handle node : Nat) (h : Keeps s0 s) : Keeps s0 (State.takeHold s f handle node).1 := by
  unfold State.takeHold
  dsimp only [Keeps]
  repeat' first
    | with_reducible assumption
    | with_reducible apply State.setFactor_keeps
    | dsimp only [Keeps]
    | split

theorem State.gatherHere_keeps {s0 s : State} (d : Desc) (st : Nat) (retry : List (Nat × Nat × Nat)) (off len : Nat) (h : Keeps s0 s) : Keeps s0 (State.gatherHere s d st retry off len) := by
  unfold State.gatherHere
  dsimp only [Keeps]
  repeat' first
    | with_reducible assumption
    | with_reducible apply State.putOff_keeps
    | with_reducible apply State.setWork_keeps
    | with_reducible apply State.afterRead_keeps
    | with_reducible apply State.moverWrite_keeps
    | dsimp only [Keeps]
    | split

theorem State.gatherPiece_keeps {s0 s : State} (d : Desc) (off len : Nat) (h : Keeps s0 s) : Keeps s0 (State.gatherPiece s d off len) := by
  unfold State.gatherPiece
  dsimp only [Keeps]
  repeat' first
    | with_reducible assumption
    | with_reducible apply State.setWork_keeps
    | with_reducible apply State.gatherHere_keeps
    | with_reducible apply State.request_keeps
    | dsimp only [Keeps]
    | split

theorem State.runGather_keeps {s0 s : State} (d : Desc) (h : Keeps s0 s) : Keeps s0 (State.runGather s d) := by
  unfold State.runGather
  dsimp only [Keeps]
  repeat' first
    | with_reducible assumption
    | with_reducible apply State.setWork_keeps
    | with_reducible apply State.takeHold_keeps
    | with_reducible apply State.rootRecord_keeps
    | with_reducible apply State.settle_keeps
    | with_reducible apply State.request_keeps
    | with_reducible apply State.gatherEnd_keeps
    | with_reducible apply State.gatherPiece_keeps
    | with_reducible refine Keeps.foldl (fun _ _ _ => ?_) ?_
    | dsimp only [Keeps]
    | split

theorem State.dropHold_keeps {s0 s : State} (f handle node : Nat) (h : Keeps s0 s) : Keeps s0 (State.dropHold s f handle node) := by
  unfold State.dropHold
  dsimp only [Keeps]
  repeat' first
    | with_reducible assumption
    | with_reducible apply State.setFactor_keeps

theorem State.runDrop_keeps {s0 s : State} (d : Desc) (h : Keeps s0 s) : Keeps s0 (State.runDrop s d) := by
  unfold State.runDrop
  dsimp only [Keeps]
  repeat' first
    | with_reducible assumption
    | with_reducible apply State.setWork_keeps
    | with_reducible apply State.dropHold_keeps
    | with_reducible apply State.settle_keeps
    | with_reducible apply State.request_keeps
    | with_reducible apply State.moverWrite_keeps
    | dsimp only [Keeps]
    | split

theorem State.startWriteBack_keeps {s0 s : State} (b : Nat) (h : Keeps s0 s) : Keeps s0 (State.startWriteBack s b) := by
  unfold State.startWriteBack
  dsimp only [Keeps]
  repeat' first
    | with_reducible assumption
    | with_reducible apply State.setBkt_keeps
    | with_reducible apply State.wakeAll_keeps
    | dsimp only [Keeps]
    | split

theorem State.sendStream_keeps {s0 s : State} (id : Nat) (b : Bytes) (epoch : Nat) (data : Bytes) (x : Nat × Nat × Nat) (h : Keeps s0 s) : Keeps s0 (State.sendStream s id b epoch data x) := by
  unfold State.sendStream
  dsimp only [Keeps]
  repeat' first
    | with_reducible assumption
    | with_reducible apply State.send_keeps
    | with_reducible refine Keeps.foldl (fun _ _ _ => ?_) ?_

theorem State.endBcasts_keeps {s0 s : State} (b : Nat) (h : Keeps s0 s) : Keeps s0 (State.endBcasts s b) := by
  unfold State.endBcasts
  dsimp only [Keeps]
  repeat' first
    | with_reducible assumption
    | with_reducible apply State.endBcast_keeps
    | with_reducible refine Keeps.foldl (fun _ _ _ => ?_) ?_

theorem State.setFp_keeps {s0 s : State} (b : Nat) (x : FpState) (h : Keeps s0 s) : Keeps s0 (State.setFp s b x) := by
  unfold State.setFp
  dsimp only [Keeps]
  exact h

theorem State.sendWrites_keeps {s0 s : State} (use : TxnUse) (epoch ga : Nat) (b : Bytes) (h : Keeps s0 s) : Keeps s0 (State.sendWrites s use epoch ga b) := by
  unfold State.sendWrites
  dsimp only [Keeps]
  repeat' first
    | with_reducible assumption
    | with_reducible apply State.request_keeps
    | with_reducible refine Keeps.foldl (fun _ _ _ => ?_) ?_

theorem State.sendShard_keeps {s0 s : State} (b p : Nat) (h : Keeps s0 s) : Keeps s0 (State.sendShard s b p) := by
  unfold State.sendShard
  dsimp only [Keeps]
  repeat' first
    | with_reducible assumption
    | with_reducible apply State.request_keeps
    | with_reducible refine Keeps.foldl (fun _ _ _ => ?_) ?_
    | dsimp only [Keeps]

theorem State.overwritePeer_keeps {s0 s : State} (b : Nat) (h : Keeps s0 s) : Keeps s0 (State.overwritePeer s b) := by
  unfold State.overwritePeer
  dsimp only [Keeps]
  repeat' first
    | with_reducible assumption
    | with_reducible apply State.sendShard_keeps
    | with_reducible apply State.putOff_keeps
    | dsimp only [Keeps]
    | split

theorem State.resolve_keeps {s0 s : State} (b : Nat) (h : Keeps s0 s) : Keeps s0 (State.resolve s b) := by
  unfold State.resolve
  dsimp only [Keeps]
  repeat' first
    | with_reducible assumption
    | with_reducible apply State.logFault_keeps
    | with_reducible apply State.overwritePeer_keeps
    | dsimp only [Keeps]
    | split

theorem State.compareFp_keeps {s0 s : State} (b : Nat) (h : Keeps s0 s) : Keeps s0 (State.compareFp s b) := by
  unfold State.compareFp
  dsimp only [Keeps]
  repeat' first
    | with_reducible assumption
    | with_reducible apply State.endBcasts_keeps
    | with_reducible apply State.setBkt_keeps
    | with_reducible apply State.sendFp_keeps
    | with_reducible apply State.setFp_keeps
    | with_reducible apply State.setWork_keeps
    | with_reducible apply State.resolve_keeps
    | with_reducible refine Keeps.foldl (fun _ _ _ => ?_) ?_
    | dsimp only [Keeps]
    | split

theorem State.runBcast_keeps {s0 s : State} (d : Desc) (h : Keeps s0 s) : Keeps s0 (State.runBcast s d) := by
  unfold State.runBcast
  dsimp only [Keeps]
  repeat' first
    | with_reducible assumption
    | with_reducible apply State.setWork_keeps
    | with_reducible apply State.zeroOutside_keeps
    | with_reducible apply State.setParamStep_keeps
    | with_reducible apply State.reopen_keeps
    | with_reducible apply State.startWriteBack_keeps
    | with_reducible apply State.sendStream_keeps
    | with_reducible apply State.compareFp_keeps
    | with_reducible apply State.sendFp_keeps
    | with_reducible apply State.setFp_keeps
    | with_reducible apply State.endBcast_keeps
    | with_reducible refine Keeps.foldl (fun _ _ _ => ?_) ?_
    | dsimp only [Keeps]
    | split

theorem State.runPermute_keeps {s0 s : State} (d : Desc) (h : Keeps s0 s) : Keeps s0 (State.runPermute s d) := by
  unfold State.runPermute
  dsimp only [Keeps]
  repeat' first
    | with_reducible assumption
    | with_reducible apply State.moverWrite_keeps
    | with_reducible apply State.sendChecked_keeps
    | with_reducible apply State.settle_keeps
    | with_reducible apply State.afterRead_keeps
    | dsimp only [Keeps]
    | split

theorem State.runGate_keeps {s0 s : State} (d : Desc) (h : Keeps s0 s) : Keeps s0 (State.runGate s d) := by
  unfold State.runGate
  dsimp only [Keeps]
  repeat' first
    | with_reducible assumption
    | with_reducible apply State.setWork_keeps

theorem State.setCounter_keeps {s0 s : State} (n c : Nat) (v : Word32) (h : Keeps s0 s) : Keeps s0 (State.setCounter s n c v) := by
  unfold State.setCounter
  dsimp only [Keeps]
  repeat' first
    | with_reducible assumption
    | with_reducible apply State.setCluster_keeps

theorem State.addCounter_keeps {s0 s : State} (n c : Nat) (v : Word32) (h : Keeps s0 s) : Keeps s0 (State.addCounter s n c v) := by
  unfold State.addCounter
  dsimp only [Keeps]
  repeat' first
    | with_reducible assumption
    | with_reducible apply State.setCounter_keeps

theorem State.runSignal_keeps {s0 s : State} (d : Desc) (h : Keeps s0 s) : Keeps s0 (State.runSignal s d) := by
  unfold State.runSignal
  dsimp only [Keeps]
  repeat' first
    | with_reducible assumption
    | with_reducible apply State.setWork_keeps
    | with_reducible apply State.addCounter_keeps
    | with_reducible apply State.settle_keeps
    | with_reducible apply State.request_keeps
    | dsimp only [Keeps]
    | split

theorem State.runType_keeps {s0 s : State} (d : Desc) (h : Keeps s0 s) : Keeps s0 (State.runType s d) := by
  unfold State.runType
  dsimp only [Keeps]
  repeat' first
    | with_reducible assumption
    | with_reducible apply State.runCurv_keeps
    | with_reducible apply State.runCopy_keeps
    | with_reducible apply State.runRacc_keeps
    | with_reducible apply State.runGather_keeps
    | with_reducible apply State.runDrop_keeps
    | with_reducible apply State.runBcast_keeps
    | with_reducible apply State.runPermute_keeps
    | with_reducible apply State.runGate_keeps
    | with_reducible apply State.setWork_keeps
    | with_reducible apply State.runSignal_keeps
    | dsimp only [Keeps]
    | split

theorem State.run_keeps {s0 s : State} (d : Desc) (h : Keeps s0 s) : Keeps s0 (State.run s d) := by
  unfold State.run
  dsimp only [Keeps]
  repeat' first
    | with_reducible assumption
    | with_reducible refine State.underMap_keeps _ (fun _ _ => ?_) ?_
    | with_reducible apply State.setWork_keeps
    | with_reducible apply State.meetErrors_keeps
    | with_reducible apply State.runType_keeps
    | dsimp only [Keeps]
    | split

theorem State.advanceGo_keeps {s0 s : State} (n fuel : Nat) (h : Keeps s0 s) : Keeps s0 (State.advanceGo n fuel s) := by
  induction fuel generalizing s with
  | zero => exact h
  | succ k ih =>
    unfold State.advanceGo
    split
    · exact ih (State.failNew_keeps (State.run_keeps _ h))
    · exact h

theorem State.advanceBefore_keeps {s0 s : State} (n : Nat) (h : Keeps s0 s) : Keeps s0 (State.advanceBefore s n) := by
  unfold State.advanceBefore
  dsimp only [Keeps]
  repeat' first
    | with_reducible assumption
    | with_reducible apply State.advanceGo_keeps
    | with_reducible apply State.failNew_keeps

theorem State.advance_keeps {s0 s : State} (h : Keeps s0 s) : Keeps s0 (State.advance s) := by
  unfold State.advance
  dsimp only [Keeps]
  repeat' first
    | with_reducible assumption
    | with_reducible apply State.advanceBefore_keeps

theorem State.failLink_keeps {s0 s : State} (link : Nat × Nat) (h : Keeps s0 s) : Keeps s0 (State.failLink s link) := by
  unfold State.failLink
  dsimp only [Keeps]
  repeat' first
    | with_reducible assumption
    | with_reducible apply State.respond_keeps
    | with_reducible refine Keeps.foldl (fun _ _ _ => ?_) ?_

theorem State.noteLoss_keeps {s0 s : State} (link : Nat × Nat) (t : Nat) (h : Keeps s0 s) : Keeps s0 (State.noteLoss s link t) := by
  unfold State.noteLoss
  dsimp only [Keeps]
  exact h

theorem State.retryLocal_keeps {s0 s : State} (h : Keeps s0 s) : Keeps s0 (State.retryLocal s) := by
  unfold State.retryLocal
  dsimp only [Keeps]
  repeat' first
    | with_reducible assumption
    | with_reducible apply State.emitLocal_keeps
    | with_reducible refine Keeps.foldl (fun _ _ _ => ?_) ?_
    | dsimp only [Keeps]
    | split

theorem State.dropHolder_keeps {s0 s : State} (n : Nat) (h : Keeps s0 s) : Keeps s0 (State.dropHolder s n) := by
  unfold State.dropHolder
  dsimp only [Keeps]
  repeat' first
    | with_reducible assumption
    | with_reducible apply State.retryLocal_keeps

theorem State.holdLost_keeps {s0 s : State} (h : Keeps s0 s) : Keeps s0 (State.holdLost s) := by
  unfold State.holdLost
  dsimp only [Keeps]
  exact h

theorem State.losePartner_keeps {s0 s : State} (n : Nat) (h : Keeps s0 s) : Keeps s0 (State.losePartner s n) := by
  unfold State.losePartner
  dsimp only [Keeps]
  repeat' first
    | with_reducible assumption
    | with_reducible apply State.dropHolder_keeps
    | with_reducible apply State.holdLost_keeps
    | dsimp only [Keeps]
    | split

theorem State.declareLost_keeps {s0 s : State} (p cause : Nat) (h : Keeps s0 s) : Keeps s0 (State.declareLost s p cause) := by
  unfold State.declareLost
  dsimp only [Keeps]
  repeat' first
    | with_reducible assumption
    | with_reducible apply State.logLoss_keeps
    | with_reducible apply State.attn_keeps
    | with_reducible apply State.setPort_keeps
    | with_reducible apply State.advance_keeps
    | with_reducible apply State.failLink_keeps
    | with_reducible apply State.noteLoss_keeps
    | with_reducible apply State.losePartner_keeps

theorem State.afterFailure_keeps {s0 s : State} (old : State) (p : Nat) (h : Keeps s0 s) (h2 : Keeps s0 old) : Keeps s0 (State.afterFailure s old p) := by
  unfold State.afterFailure
  dsimp only [Keeps]
  repeat' first
    | with_reducible assumption
    | with_reducible apply State.dirtyIfLanes_keeps
    | with_reducible apply State.declareLost_keeps
    | with_reducible apply State.queueAction_keeps
    | with_reducible apply State.setPort_keeps
    | dsimp only [Keeps]
    | split

theorem State.laneFails_keeps {s0 s : State} (p i : Nat) (h : Keeps s0 s) : Keeps s0 (State.laneFails s p i) := by
  unfold State.laneFails
  dsimp only [Keeps]
  repeat' first
    | with_reducible assumption
    | with_reducible apply State.logFault_keeps
    | with_reducible apply State.setPort_keeps
    | with_reducible apply State.afterFailure_keeps
    | with_reducible apply State.queueAction_keeps
    | dsimp only [Keeps]
    | split

theorem State.laneFailsThere_keeps {s0 s : State} (p l : Nat) (h : Keeps s0 s) : Keeps s0 (State.laneFailsThere s p l) := by
  unfold State.laneFailsThere
  dsimp only [Keeps]
  repeat' first
    | with_reducible assumption
    | with_reducible apply State.afterFailure_keeps
    | with_reducible apply State.setPort_keeps
    | dsimp only [Keeps]
    | split

theorem State.handleFailure_keeps {s0 s : State} (p e : Nat) (h : Keeps s0 s) : Keeps s0 (State.handleFailure s p e) := by
  unfold State.handleFailure
  dsimp only [Keeps]
  repeat' first
    | with_reducible assumption
    | with_reducible apply State.laneFails_keeps
    | with_reducible apply State.laneFailsThere_keeps
    | dsimp only [Keeps]
    | split

theorem State.noteFailure_keeps {s0 s : State} (p e : Nat) (h : Keeps s0 s) : Keeps s0 (State.noteFailure s p e) := by
  unfold State.noteFailure
  dsimp only [Keeps]
  repeat' first
    | with_reducible assumption
    | with_reducible apply State.handleFailure_keeps
    | with_reducible apply State.setPort_keeps
    | dsimp only [Keeps]
    | split

theorem State.failsOnCodewords_keeps {s0 s : State} (p : Nat) (bad : Option (Nat × Nat)) (h : Keeps s0 s) : Keeps s0 (State.failsOnCodewords s p bad) := by
  unfold State.failsOnCodewords
  dsimp only [Keeps]
  repeat' first
    | with_reducible assumption
    | with_reducible apply State.noteFailure_keeps
    | dsimp only [Keeps]
    | split

theorem State.receiveIdle_keeps {s0 s : State} (p : Nat) (b : Bytes) (h : Keeps s0 s) : Keeps s0 (State.receiveIdle s p b) := by
  unfold State.receiveIdle
  dsimp only [Keeps]
  repeat' first
    | with_reducible assumption
    | with_reducible apply State.setPort_keeps

theorem State.portTick_keeps {s0 s : State} (p : Nat) (h : Keeps s0 s) : Keeps s0 (State.portTick s p) := by
  unfold State.portTick
  dsimp only [Keeps]
  repeat' first
    | with_reducible assumption
    | with_reducible apply State.setPort_keeps

theorem State.notePermute_keeps {s0 s : State} (b : Bytes) (status : Nat) (h : Keeps s0 s) : Keeps s0 (State.notePermute s b status) := by
  unfold State.notePermute
  dsimp only [Keeps]
  repeat' first
    | with_reducible assumption
    | dsimp only [Keeps]
    | split

theorem State.postRecord_keeps {s0 s : State} (q : Nat) (r : Record) (h : Keeps s0 s) : Keeps s0 (State.postRecord s q r) := by
  unfold State.postRecord
  dsimp only [Keeps]
  repeat' first
    | with_reducible assumption
    | dsimp only [Keeps]
    | split

theorem State.complete_keeps {s0 s : State} (iss : Issuer) (ctr : Option Nat) (b : Bytes) (status flags : Nat) (result : Word) (woke : Bool) (sqHead : Nat) (h : Keeps s0 s) : Keeps s0 (State.complete s iss ctr b status flags result woke sqHead) := by
  unfold State.complete
  dsimp only [Keeps]
  repeat' first
    | with_reducible assumption
    | with_reducible apply State.setCore_keeps
    | with_reducible apply State.addCounter_keeps
    | with_reducible apply State.postRecord_keeps
    | dsimp only [Keeps]
    | split

theorem State.noteGrant_keeps {s0 s : State} (iss : Issuer) (p : Place) (h : Keeps s0 s) : Keeps s0 (State.noteGrant s iss p) := by
  unfold State.noteGrant
  dsimp only [Keeps]
  repeat' first
    | with_reducible assumption
    | with_reducible apply State.setCluster_keeps
    | dsimp only [Keeps]
    | split

theorem State.accept_keeps {s0 s : State} (o : Offer) (sqHead : Nat) (h : Keeps s0 s) : Keeps s0 (State.accept s o sqHead) := by
  unfold State.accept
  dsimp only [Keeps]
  repeat' first
    | with_reducible assumption
    | with_reducible apply State.wakeAll_keeps
    | with_reducible apply State.noteGrant_keeps

theorem State.offer_keeps {s0 s t : State} (o : Offer) (sqHead : Nat) (h : Keeps s0 s) (e : State.offer s o sqHead = some t) : Keeps s0 t := by
  unfold State.offer at e
  dsimp only at e
  split at e
  · cases e
    exact State.notePermute_keeps _ _ (State.complete_keeps _ _ _ _ _ _ _ _ h)
  · split at e
    · cases e
    · cases e
      exact State.advance_keeps (State.accept_keeps _ _ h)

theorem State.offerRow_keeps {s0 s : State} (o : Offer) (isRow : Bool) (h : Keeps s0 s) : Keeps s0 (State.offerRow s o isRow) := by
  unfold State.offerRow
  split
  · refine Keeps.getD (fun t e => ?_) h
    split at e
    · exact State.offer_keeps _ _ h e
    · exact State.offer_keeps _ _ h e
  · exact h

theorem runCompress_keeps {s0 s : State} (b : Bytes) (n : Nat) (w : Walk) (h : Keeps s0 s) : Keeps s0 (runCompress s b n w) := by
  unfold runCompress
  dsimp only [Keeps]
  repeat' first
    | with_reducible assumption
    | with_reducible apply State.writeStore_keeps
    | with_reducible refine Keeps.foldl (fun _ _ _ => ?_) ?_
    | with_reducible refine Keeps.foldlFst (fun _ _ _ => ?_) ?_

theorem runExpand_keeps {s0 s : State} (b : Bytes) (n : Nat) (w : Walk) (h : Keeps s0 s) : Keeps s0 (runExpand s b n w) := by
  unfold runExpand
  dsimp only [Keeps]
  repeat' first
    | with_reducible assumption
    | with_reducible apply State.writeStore_keeps
    | with_reducible refine Keeps.foldl (fun _ _ _ => ?_) ?_
    | with_reducible refine Keeps.foldlFst (fun _ _ _ => ?_) ?_
    | dsimp only [Keeps]
    | split

theorem State.setStash_keeps {s0 s : State} (g : Nat) (x : Stash) (h : Keeps s0 s) : Keeps s0 (State.setStash s g x) := by
  unfold State.setStash
  dsimp only [Keeps]
  exact h

theorem State.writeOutside_keeps {s0 s : State} (a : Nat) (bs : Bytes) (h : Keeps s0 s) : Keeps s0 (State.writeOutside s a bs) := by
  unfold State.writeOutside
  dsimp only [Keeps]
  repeat' first
    | with_reducible assumption
    | with_reducible apply State.writeBytes_keeps
    | with_reducible refine Keeps.foldl (fun _ _ _ => ?_) ?_
    | dsimp only [Keeps]
    | split

theorem runPut_keeps {s0 s : State} (d : Desc) (n g : Nat) (w : Walk) (cycle : Nat) (delays : List Nat) (h : Keeps s0 s) : Keeps s0 (runPut s d n g w cycle delays).1 := by
  unfold runPut
  dsimp only [Keeps]
  repeat' first
    | with_reducible assumption
    | with_reducible apply State.setStash_keeps
    | with_reducible apply State.writeOutside_keeps
    | with_reducible apply State.writeStore_keeps
    | dsimp only [Keeps]
    | split

theorem runFree_keeps {s0 s : State} (d : Desc) (g : Nat) (h : Keeps s0 s) : Keeps s0 (runFree s d g).1 := by
  unfold runFree
  dsimp only [Keeps]
  repeat' first
    | with_reducible assumption
    | with_reducible apply State.setStash_keeps
    | dsimp only [Keeps]
    | split

theorem runGet_keeps {s0 s : State} (d : Desc) (n g : Nat) (w : Walk) (h : Keeps s0 s) : Keeps s0 (runGet s d n g w).1 := by
  unfold runGet
  dsimp only [Keeps]
  repeat' first
    | with_reducible assumption
    | with_reducible apply State.writeStore_keeps
    | with_reducible apply State.setStash_keeps
    | with_reducible refine Keeps.foldl (fun _ _ _ => ?_) ?_
    | with_reducible refine Keeps.foldlFst (fun _ _ _ => ?_) ?_
    | dsimp only [Keeps]
    | split

theorem runReduce_keeps {s0 s : State} (d : Desc) (n : Nat) (w : Walk) (h : Keeps s0 s) : Keeps s0 (runReduce s d n w).1 := by
  unfold runReduce
  exact Keeps.foldlFst (fun _ _ k => State.writeStore_keeps _ _ _ k) h

theorem putBit_keeps {s0 s : State} (n : Nat) (p : Nat × Nat × Bool) (h : Keeps s0 s) : Keeps s0 (putBit s n p) := by
  unfold putBit
  dsimp only [Keeps]
  repeat' first
    | with_reducible assumption
    | with_reducible apply State.writeStore_keeps

theorem runElements_keeps {s0 s : State} (d : Desc) (n : Nat) (w : Walk) (cycle : Nat) (delays : List Nat) (h : Keeps s0 s) : Keeps s0 (runElements s d n w cycle delays).1 := by
  unfold runElements
  dsimp only [Keeps]
  repeat' first
    | with_reducible assumption
    | with_reducible apply putBit_keeps
    | with_reducible apply State.writeStore_keeps
    | with_reducible refine Keeps.foldl (fun _ _ _ => ?_) ?_
    | with_reducible refine Keeps.foldlFst (fun _ _ _ => ?_) ?_
    | dsimp only [Keeps]
    | split

theorem State.runVector_keeps {s0 s : State} (d : Desc) (n cycle : Nat) (delays : List Nat) (h : Keeps s0 s) : Keeps s0 (State.runVector s d n cycle delays) := by
  unfold State.runVector
  dsimp only [Keeps]
  repeat' first
    | with_reducible assumption
    | with_reducible apply State.setWork_keeps
    | with_reducible apply runCompress_keeps
    | with_reducible apply runExpand_keeps
    | with_reducible apply runPut_keeps
    | with_reducible apply runFree_keeps
    | with_reducible apply runGet_keeps
    | with_reducible apply runReduce_keeps
    | with_reducible apply runElements_keeps
    | dsimp only [Keeps]
    | split

theorem State.startVector_keeps {s0 s : State} (n cycle : Nat) (delays : List Nat) (h : Keeps s0 s) : Keeps s0 (State.startVector s n cycle delays) := by
  unfold State.startVector
  dsimp only [Keeps]
  repeat' first
    | with_reducible assumption
    | with_reducible refine State.underMap_keeps _ (fun _ _ => ?_) ?_
    | with_reducible apply State.meetErrors_keeps
    | with_reducible apply State.runVector_keeps
    | with_reducible apply State.wakeAll_keeps
    | with_reducible apply State.updDesc_keeps
    | dsimp only [Keeps]
    | split

theorem State.sample_keeps {s0 s : State} (x : Sample) (h : Keeps s0 s) : Keeps s0 (State.sample s x) := by
  unfold State.sample
  dsimp only [Keeps]
  exact h

theorem State.countLoss_keeps {s0 s : State} (a : Nat) (dropped : Bool) (h : Keeps s0 s) : Keeps s0 (State.countLoss s a dropped) := by
  unfold State.countLoss
  dsimp only [Keeps]
  repeat' first
    | with_reducible assumption
    | with_reducible apply State.setCluster_keeps
    | dsimp only [Keeps]
    | split

theorem State.refuse_keeps {s0 s : State} (r : Reply) (e : Nat) (h : Keeps s0 s) : Keeps s0 (State.refuse s r e) := by
  unfold State.refuse
  dsimp only [Keeps]
  exact h

theorem State.bar0_keeps {s0 s : State} (t : State) (h : Keeps s0 s) (h2 : Keeps s0 t) : Keeps s0 (State.bar0 s t) := by
  unfold State.bar0
  dsimp only [Keeps]
  repeat' first
    | with_reducible assumption
    | with_reducible apply State.refuse_keeps
    | dsimp only [Keeps]
    | split

theorem State.seqEnd_keeps {s0 s : State} (st : Nat) (h : Keeps s0 s) : Keeps s0 (State.seqEnd s st) := by
  unfold State.seqEnd
  dsimp only [Keeps]
  repeat' first
    | with_reducible assumption
    | with_reducible apply State.attn_keeps

theorem State.storeTry_keeps {s0 s : State} (k off : Nat) (v : Word) (lost : Bool) (h : Keeps s0 s) : Keeps s0 (State.storeTry s k off v lost) := by
  unfold State.storeTry
  dsimp only [Keeps]
  repeat' first
    | with_reducible assumption
    | with_reducible apply State.setCore_keeps
    | with_reducible apply State.countLoss_keeps
    | with_reducible apply State.writeStore_keeps
    | dsimp only [Keeps]
    | split

theorem State.stopCore_keeps {s0 s : State} (k : Nat) (h : Keeps s0 s) : Keeps s0 (State.stopCore s k) := by
  unfold State.stopCore
  dsimp only [Keeps]
  repeat' first
    | with_reducible assumption
    | with_reducible apply State.storeTry_keeps
    | with_reducible apply State.setCore_keeps
    | dsimp only [Keeps]
    | split

theorem State.seqEffect_keeps {s0 s : State} (op n mask count a : Nat) (h : Keeps s0 s) : Keeps s0 (State.seqEffect s op n mask count a) := by
  unfold State.seqEffect
  dsimp only [Keeps]
  repeat' first
    | with_reducible assumption
    | with_reducible apply State.setCore_keeps
    | with_reducible apply State.touch_keeps
    | with_reducible apply State.stopCore_keeps
    | with_reducible refine Keeps.foldl (fun _ _ _ => ?_) ?_
    | dsimp only [Keeps]
    | split

theorem State.runSeq_keeps {s0 s : State} (op n mask count a : Nat) (ces : (List (Nat × Nat))) (h : Keeps s0 s) : Keeps s0 (State.runSeq s op n mask count a ces) := by
  unfold State.runSeq
  dsimp only [Keeps]
  repeat' first
    | with_reducible assumption
    | with_reducible apply State.seqEnd_keeps
    | with_reducible apply State.seqEffect_keeps
    | with_reducible apply State.corrections_keeps
    | with_reducible apply State.touch_keeps
    | with_reducible apply State.putOff_keeps
    | dsimp only [Keeps]
    | split

theorem State.writeSeqCtrl_keeps {s0 s : State} (w : Wr) (ces : (List (Nat × Nat))) (h : Keeps s0 s) : Keeps s0 (State.writeSeqCtrl s w ces) := by
  unfold State.writeSeqCtrl
  dsimp only [Keeps]
  repeat' first
    | with_reducible assumption
    | with_reducible apply State.advance_keeps
    | with_reducible apply State.settleForces_keeps
    | with_reducible apply State.runSeq_keeps
    | dsimp only [Keeps]
    | split

theorem State.keepMap_keeps {s0 s : State} (h : Keeps s0 s) : Keeps s0 (State.keepMap s) := by
  unfold State.keepMap
  dsimp only [Keeps]
  exact h

theorem State.runRetire_keeps {s0 s : State} (op p : Nat) (nv : NvEnd) (h : Keeps s0 s) : Keeps s0 (State.runRetire s op p nv) := by
  unfold State.runRetire
  dsimp only [Keeps]
  repeat' first
    | with_reducible assumption
    | with_reducible apply State.attn_keeps
    | with_reducible apply State.keepMap_keeps
    | with_reducible apply State.calicoDirty_keeps
    | dsimp only [Keeps]
    | split

theorem State.writeRetireCtrl_keeps {s0 s : State} (w : Wr) (nv : NvEnd) (h : Keeps s0 s) : Keeps s0 (State.writeRetireCtrl s w nv) := by
  unfold State.writeRetireCtrl
  dsimp only [Keeps]
  repeat' first
    | with_reducible assumption
    | with_reducible apply State.runRetire_keeps
    | dsimp only [Keeps]
    | split

theorem State.doDrift_keeps {s0 s : State} (p lane : Nat) (h : Keeps s0 s) : Keeps s0 (State.doDrift s p lane) := by
  unfold State.doDrift
  dsimp only [Keeps]
  repeat' first
    | with_reducible assumption
    | with_reducible apply State.setPort_keeps
    | dsimp only [Keeps]
    | split

theorem State.driftAlarm_keeps {s0 s : State} (p i : Nat) (h : Keeps s0 s) : Keeps s0 (State.driftAlarm s p i) := by
  unfold State.driftAlarm
  dsimp only [Keeps]
  repeat' first
    | with_reducible assumption
    | with_reducible apply State.setPort_keeps
    | with_reducible apply State.queueAction_keeps
    | with_reducible apply State.doDrift_keeps
    | dsimp only [Keeps]
    | split

theorem State.setSq_keeps {s0 s : State} (q : Nat) (x : Sq) (h : Keeps s0 s) : Keeps s0 (State.setSq s q x) := by
  unfold State.setSq
  dsimp only [Keeps]
  exact h

theorem State.ring_keeps {s0 s : State} (q t : Nat) (h : Keeps s0 s) : Keeps s0 (State.ring s q t) := by
  unfold State.ring
  dsimp only [Keeps]
  repeat' first
    | with_reducible assumption
    | with_reducible apply State.park_keeps
    | with_reducible apply State.setSq_keeps
    | dsimp only [Keeps]
    | split

theorem State.writeSqPtr_keeps {s0 s : State} (q : Nat) (w : Wr) (h : Keeps s0 s) : Keeps s0 (State.writeSqPtr s q w) := by
  unfold State.writeSqPtr
  dsimp only [Keeps]
  repeat' first
    | with_reducible assumption
    | with_reducible apply State.ring_keeps
    | with_reducible apply State.setSq_keeps
    | dsimp only [Keeps]
    | split

theorem State.coreGo_keeps {s0 s : State} (k : Nat) (c : Core) (pc : Nat) (h : Keeps s0 s) : Keeps s0 (State.coreGo s k c pc) := by
  unfold State.coreGo
  dsimp only [Keeps]
  repeat' first
    | with_reducible assumption
    | with_reducible apply State.setCore_keeps
    | with_reducible apply State.coreFault_keeps
    | dsimp only [Keeps]
    | split

theorem State.coreAlu_keeps {s0 s : State} (k w : Nat) (c : Core) (v : Word) (h : Keeps s0 s) : Keeps s0 (State.coreAlu s k w c v) := by
  unfold State.coreAlu
  dsimp only [Keeps]
  repeat' first
    | with_reducible assumption
    | with_reducible apply State.coreGo_keeps

theorem State.endAttempt_keeps {s0 s : State} (outcome status : Nat) (result : Word) (h : Keeps s0 s) : Keeps s0 (State.endAttempt s outcome status result) := by
  unfold State.endAttempt
  dsimp only [Keeps]
  repeat' first
    | with_reducible assumption
    | with_reducible apply State.setWork_keeps
    | dsimp only [Keeps]
    | split

theorem State.doSwitch_keeps {s0 s : State} (h : Keeps s0 s) : Keeps s0 (State.doSwitch s) := by
  unfold State.doSwitch
  dsimp only [Keeps]
  repeat' first
    | with_reducible assumption
    | with_reducible apply State.putInForce_keeps
    | with_reducible apply State.calicoDirty_keeps
    | with_reducible apply State.endAttempt_keeps
    | dsimp only [Keeps]
    | split

theorem State.decideSwitch_keeps {s0 s : State} (v : Nat) (h : Keeps s0 s) : Keeps s0 (State.decideSwitch s v) := by
  unfold State.decideSwitch
  dsimp only [Keeps]
  repeat' first
    | with_reducible assumption
    | with_reducible apply State.sendColl_keeps
    | with_reducible apply State.doSwitch_keeps
    | with_reducible apply State.endAttempt_keeps
    | with_reducible refine Keeps.foldl (fun _ _ _ => ?_) ?_
    | dsimp only [Keeps]
    | split

theorem State.countStale_keeps {s0 s : State} (h : Keeps s0 s) : Keeps s0 (State.countStale s) := by
  unfold State.countStale
  dsimp only [Keeps]
  exact h

theorem State.letIn_keeps {s0 s : State} (k : Packet) (h : Keeps s0 s) : Keeps s0 (State.letIn s k).1 := by
  unfold State.letIn
  dsimp only [Keeps]
  repeat' first
    | with_reducible assumption
    | with_reducible apply State.decideSwitch_keeps
    | with_reducible apply State.answer_keeps
    | with_reducible apply State.countStale_keeps
    | dsimp only [Keeps]
    | split

theorem State.wordsDone_keeps {s0 s : State} (id : Nat) (h : Keeps s0 s) : Keeps s0 (State.wordsDone s id) := by
  unfold State.wordsDone
  dsimp only [Keeps]
  repeat' first
    | with_reducible assumption
    | with_reducible apply State.advance_keeps
    | with_reducible apply State.finishRemote_keeps
    | with_reducible apply State.finishRing_keeps
    | dsimp only [Keeps]
    | split

theorem State.endTraining_keeps {s0 s : State} (p node pod port active : Nat) (failed : List Nat) (h : Keeps s0 s) : Keeps s0 (State.endTraining s p node pod port active failed) := by
  unfold State.endTraining
  dsimp only [Keeps]
  repeat' first
    | with_reducible assumption
    | with_reducible apply State.dirtyIfLanes_keeps
    | with_reducible apply State.declareLost_keeps
    | with_reducible apply State.setPort_keeps
    | with_reducible refine Keeps.foldl (fun _ _ _ => ?_) ?_
    | dsimp only [Keeps]
    | split

theorem State.loadIr_keeps {s0 s : State} (ir : Nat) (r : Reply) (h : Keeps s0 s) : Keeps s0 (State.loadIr s ir r) := by
  unfold State.loadIr
  dsimp only [Keeps]
  repeat' first
    | with_reducible assumption
    | dsimp only [Keeps]
    | split

theorem State.loadDriving_keeps {s0 s : State} (ir : Nat) (h : Keeps s0 s) : Keeps s0 (State.loadDriving s ir) := by
  unfold State.loadDriving
  dsimp only [Keeps]
  repeat' first
    | with_reducible assumption
    | with_reducible apply State.loadIr_keeps

theorem State.writebackEnd_keeps {s0 s : State} (n : Nat) (d : Desc) (busy : Nat) (h : Keeps s0 s) : Keeps s0 (State.writebackEnd s n d busy) := by
  unfold State.writebackEnd
  dsimp only [Keeps]
  repeat' first
    | with_reducible assumption
    | with_reducible apply mmContribute_keeps
    | with_reducible apply State.countArray_keeps
    | with_reducible apply State.setWork_keeps
    | with_reducible apply State.setCluster_keeps
    | dsimp only [Keeps]
    | split

theorem State.draw_keeps {s0 s : State} (h : Keeps s0 s) : Keeps s0 (State.draw s).2 := by
  unfold State.draw
  dsimp only [Keeps]
  exact h

theorem State.removePages_keeps {s0 s : State} (k : Nat) (h : Keeps s0 s) : Keeps s0 (State.removePages s k) := by
  unfold State.removePages
  dsimp only [Keeps]
  repeat' first
    | with_reducible assumption
    | with_reducible apply State.draw_keeps
    | with_reducible apply State.logFault_keeps
    | with_reducible apply State.calicoDirty_keeps
    | with_reducible refine Keeps.foldl (fun _ _ _ => ?_) ?_
    | dsimp only [Keeps]
    | split

theorem State.failUnits_keeps {s0 s : State} (d : Nat) (h : Keeps s0 s) : Keeps s0 (State.failUnits s d) := by
  unfold State.failUnits
  dsimp only [Keeps]
  repeat' first
    | with_reducible assumption
    | with_reducible refine Keeps.foldl (fun _ _ _ => ?_) ?_
    | dsimp only [Keeps]
    | split

theorem State.failOperations_keeps {s0 s : State} (d : Nat) (h : Keeps s0 s) : Keeps s0 (State.failOperations s d) := by
  unfold State.failOperations
  dsimp only [Keeps]
  repeat' first
    | with_reducible assumption
    | with_reducible apply State.bootEnds_keeps
    | with_reducible apply State.dmkEnd_keeps
    | with_reducible apply State.fwEnd_keeps
    | with_reducible apply State.seqEnd_keeps
    | dsimp only [Keeps]
    | split

theorem State.fetchFails_keeps {s0 s : State} (q : Nat) (h : Keeps s0 s) : Keeps s0 (State.fetchFails s q) := by
  unfold State.fetchFails
  dsimp only [Keeps]
  repeat' first
    | with_reducible assumption
    | with_reducible apply State.attn_keeps
    | with_reducible apply State.setSq_keeps

theorem State.failFetches_keeps {s0 s : State} (d : Nat) (h : Keeps s0 s) : Keeps s0 (State.failFetches s d) := by
  unfold State.failFetches
  dsimp only [Keeps]
  repeat' first
    | with_reducible assumption
    | with_reducible apply State.fetchFails_keeps
    | with_reducible apply State.setSq_keeps
    | with_reducible refine Keeps.foldl (fun _ _ _ => ?_) ?_

theorem State.respondRead_keeps {s0 s : State} (k : Packet) (status : Nat) (data : Bytes) (h : Keeps s0 s) : Keeps s0 (State.respondRead s k status data) := by
  unfold State.respondRead
  dsimp only [Keeps]
  repeat' first
    | with_reducible assumption
    | with_reducible apply State.send_keeps

theorem State.failOne_keeps {s0 s : State} (d : Nat) (w : Parked) (h : Keeps s0 s) : Keeps s0 (State.failOne s d w) := by
  unfold State.failOne
  dsimp only [Keeps]
  repeat' first
    | with_reducible assumption
    | with_reducible apply State.setBkt_keeps
    | with_reducible apply State.refuse_keeps
    | with_reducible apply State.respondRead_keeps
    | with_reducible apply State.answer_keeps
    | with_reducible apply State.updDesc_keeps
    | dsimp only [Keeps]
    | split

theorem State.failRequests_keeps {s0 s : State} (d : Nat) (h : Keeps s0 s) : Keeps s0 (State.failRequests s d) := by
  unfold State.failRequests
  dsimp only [Keeps]
  repeat' first
    | with_reducible assumption
    | with_reducible apply State.failOne_keeps
    | with_reducible refine Keeps.foldl (fun _ _ _ => ?_) ?_

theorem State.abortWaiting_keeps {s0 s : State} (d : Nat) (h : Keeps s0 s) : Keeps s0 (State.abortWaiting s d) := by
  unfold State.abortWaiting
  dsimp only [Keeps]
  repeat' first
    | with_reducible assumption
    | with_reducible apply State.setWork_keeps
    | with_reducible refine Keeps.foldl (fun _ _ _ => ?_) ?_

theorem State.failWake_keeps {s0 s : State} (d phase : Nat) (h : Keeps s0 s) : Keeps s0 (State.failWake s d phase) := by
  unfold State.failWake
  dsimp only [Keeps]
  repeat' first
    | with_reducible assumption
    | with_reducible apply State.settleForces_keeps
    | with_reducible apply State.touch_keeps
    | with_reducible apply State.failUnits_keeps
    | with_reducible apply State.failOperations_keeps
    | with_reducible apply State.failFetches_keeps
    | with_reducible apply State.failRequests_keeps
    | with_reducible apply State.abortWaiting_keeps
    | with_reducible apply State.setDom_keeps
    | with_reducible apply State.logFault_keeps
    | dsimp only [Keeps]
    | split

theorem State.countSolve_keeps {s0 s : State} (e status : Nat) (result : Word) (h : Keeps s0 s) : Keeps s0 (State.countSolve s e status result) := by
  unfold State.countSolve
  dsimp only [Keeps]
  repeat' first
    | with_reducible assumption
    | with_reducible apply State.setEng_keeps
    | dsimp only [Keeps]
    | split

theorem State.completionEffects_keeps {s0 s : State} (d : Desc) (status : Nat) (result : Word) (h : Keeps s0 s) : Keeps s0 (State.completionEffects s d status result) := by
  unfold State.completionEffects
  dsimp only [Keeps]
  repeat' first
    | with_reducible assumption
    | with_reducible apply State.notePermute_keeps
    | with_reducible apply State.countSolve_keeps
    | dsimp only [Keeps]
    | split

theorem State.dropDesc_keeps {s0 s : State} (id : Nat) (h : Keeps s0 s) : Keeps s0 (State.dropDesc s id) := by
  unfold State.dropDesc
  dsimp only [Keeps]
  exact h

theorem State.endAbort_keeps {s0 s : State} (iss : Issuer) (h : Keeps s0 s) : Keeps s0 (State.endAbort s iss) := by
  unfold State.endAbort
  dsimp only [Keeps]
  repeat' first
    | with_reducible assumption
    | dsimp only [Keeps]
    | split

theorem State.releaseFence_keeps {s0 s : State} (iss : Issuer) (h : Keeps s0 s) : Keeps s0 (State.releaseFence s iss) := by
  unfold State.releaseFence
  dsimp only [Keeps]
  repeat' first
    | with_reducible assumption
    | with_reducible apply State.setCore_keeps
    | dsimp only [Keeps]
    | split

theorem State.finish_keeps {s0 s : State} (d : Desc) (status flags : Nat) (result : Word) (h : Keeps s0 s) : Keeps s0 (State.finish s d status flags result) := by
  unfold State.finish
  dsimp only [Keeps]
  repeat' first
    | with_reducible assumption
    | with_reducible apply State.touch_keeps
    | with_reducible apply State.completionEffects_keeps
    | with_reducible apply State.complete_keeps
    | with_reducible apply State.dropDesc_keeps
    | with_reducible apply State.advance_keeps
    | with_reducible apply State.settleForces_keeps
    | with_reducible apply State.endAbort_keeps
    | with_reducible apply State.releaseFence_keeps

theorem State.sendAgain_keeps {s0 s : State} (p : Nat) (h : Keeps s0 s) : Keeps s0 (State.sendAgain s p) := by
  unfold State.sendAgain
  dsimp only [Keeps]
  repeat' first
    | with_reducible assumption
    | with_reducible apply State.setPort_keeps
    | dsimp only [Keeps]
    | split

theorem State.restripe_keeps {s0 s : State} (p w : Nat) (h : Keeps s0 s) : Keeps s0 (State.restripe s p w) := by
  unfold State.restripe
  dsimp only [Keeps]
  repeat' first
    | with_reducible assumption
    | with_reducible apply State.setPort_keeps
    | with_reducible apply State.queueAction_keeps
    | dsimp only [Keeps]
    | split

theorem State.sendControl_keeps {s0 s : State} (p : Nat) (h : Keeps s0 s) : Keeps s0 (State.sendControl s p) := by
  unfold State.sendControl
  dsimp only [Keeps]
  repeat' first
    | with_reducible assumption
    | with_reducible apply State.setPort_keeps
    | with_reducible apply State.sendAgain_keeps
    | with_reducible apply State.restripe_keeps
    | dsimp only [Keeps]
    | split

theorem State.countLosses_keeps {s0 s : State} (a n : Nat) (h : Keeps s0 s) : Keeps s0 (State.countLosses s a n) := by
  unfold State.countLosses
  dsimp only [Keeps]
  repeat' first
    | with_reducible assumption
    | with_reducible apply State.setCluster_keeps
    | dsimp only [Keeps]
    | split

theorem State.portWrite_keeps {s0 s : State} (m : Meets) (a : Nat) (b : Bytes) (h : Keeps s0 s) : Keeps s0 (State.portWrite s m a b).1 := by
  unfold State.portWrite
  dsimp only [Keeps]
  repeat' first
    | with_reducible assumption
    | with_reducible apply State.writeBytes_keeps
    | with_reducible apply State.write8_keeps
    | with_reducible apply State.countLosses_keeps
    | with_reducible refine Keeps.foldl (fun _ _ _ => ?_) ?_
    | with_reducible refine Keeps.foldlFst (fun _ _ _ => ?_) ?_
    | dsimp only [Keeps]
    | split

theorem State.intakeWrite_keeps {s0 s : State} (m : Meets) (a : Nat) (b : Bytes) (h : Keeps s0 s) : Keeps s0 (State.intakeWrite s m a b) := by
  unfold State.intakeWrite
  dsimp only [Keeps]
  repeat' first
    | with_reducible assumption
    | with_reducible apply State.writeCorrections_keeps
    | with_reducible apply State.portWrite_keeps
    | with_reducible refine Keeps.foldl (fun _ _ _ => ?_) ?_
    | with_reducible refine Keeps.foldlFst (fun _ _ _ => ?_) ?_
    | dsimp only [Keeps]
    | split

theorem State.intake_keeps {s0 s : State} (stage : Nat) (b : Bytes) (m : Meets) (h : Keeps s0 s) : Keeps s0 (State.intake s stage b m) := by
  unfold State.intake
  dsimp only [Keeps]
  repeat' first
    | with_reducible assumption
    | with_reducible apply State.intakeWrite_keeps
    | dsimp only [Keeps]
    | split

theorem State.takeIn_keeps {s0 s : State} (i : Nat) (r : QueueRec) (m : Meets) (fuel : Nat) (h : Keeps s0 s) : Keeps s0 (State.takeIn i r m fuel s) := by
  induction fuel generalizing s with
  | zero => exact h
  | succ f ih =>
    unfold State.takeIn
    dsimp only
    split
    · have k : ∀ a n b, Keeps s0 ((s.corrections m.ces a n).intake r.stage b m) := fun a n b => State.intake_keeps _ _ _ (State.corrections_keeps _ _ _ h)
      exact ih ⟨(k _ _ _).1, (k _ _ _).2, (k _ _ _).3⟩
    · exact h

theorem State.returnSlots_keeps {s0 s : State} (h : Keeps s0 s) : Keeps s0 (State.returnSlots s) := by
  unfold State.returnSlots
  dsimp only [Keeps]
  repeat' first
    | with_reducible assumption
    | with_reducible apply State.setPort_keeps
    | with_reducible refine Keeps.foldl (fun _ _ _ => ?_) ?_
    | dsimp only [Keeps]
    | split

theorem State.takeCredit_keeps {s0 s : State} (stage dir freed : Nat) (h : Keeps s0 s) : Keeps s0 (State.takeCredit s stage dir freed) := by
  unfold State.takeCredit
  dsimp only [Keeps]
  exact h

theorem State.giveCredit_keeps {s0 s : State} (src stage dir step freed : Nat) (h : Keeps s0 s) : Keeps s0 (State.giveCredit s src stage dir step freed) := by
  unfold State.giveCredit
  dsimp only [Keeps]
  repeat' first
    | with_reducible assumption
    | with_reducible apply State.takeCredit_keeps
    | with_reducible apply State.sendColl_keeps
    | dsimp only [Keeps]
    | split

theorem State.placeSegment_keeps {s0 s : State} (i : Nat) (r : QueueRec) (src o step : Nat) (last : Bool) (data : Bytes) (m : Meets) (h : Keeps s0 s) : Keeps s0 (State.placeSegment s i r src o step last data m) := by
  unfold State.placeSegment
  dsimp only [Keeps]
  repeat' first
    | with_reducible assumption
    | with_reducible apply State.writeBytes_keeps
    | with_reducible apply State.touch_keeps
    | with_reducible apply State.takeIn_keeps
    | with_reducible apply State.giveCredit_keeps
    | dsimp only [Keeps]
    | split

theorem State.startSegment_keeps {s0 s : State} (g : StageSeg) (h : Keeps s0 s) : Keeps s0 (State.startSegment s g) := by
  unfold State.startSegment
  dsimp only [Keeps]
  repeat' first
    | with_reducible assumption
    | with_reducible apply State.corrections_keeps
    | with_reducible apply State.touch_keeps
    | with_reducible apply State.placeSegment_keeps
    | with_reducible apply State.sendColl_keeps
    | dsimp only [Keeps]
    | split

theorem State.sendsGo_keeps {s0 s : State} (blocked : List Nat) (a2 : List StageSeg) (h : Keeps s0 s) : Keeps s0 (State.sendsGo s blocked a2).1 := by
  induction a2 generalizing s blocked with
  | nil => exact h
  | cons g gs ih =>
    unfold State.sendsGo
    dsimp only
    split
    · exact ih _ h
    · split
      · exact ih _ (State.startSegment_keeps _ h)
      · exact ih _ (State.putOff_keeps _ _ h)

theorem State.trySends_keeps {s0 s : State} (blocked : (List Nat)) (h : Keeps s0 s) : Keeps s0 (State.trySends s blocked) := by
  unfold State.trySends
  dsimp only [Keeps]
  repeat' first
    | with_reducible assumption
    | with_reducible apply State.sendsGo_keeps

theorem State.sendAllTiles_keeps {s0 s : State} (h : Keeps s0 s) : Keeps s0 (State.sendAllTiles s) := by
  unfold State.sendAllTiles
  dsimp only [Keeps]
  repeat' first
    | with_reducible assumption
    | with_reducible apply State.sendTiles_keeps
    | with_reducible refine Keeps.foldl (fun _ _ _ => ?_) ?_

theorem State.reach_keeps {s0 s : State} (q : Waiting) (a n : Nat) (t : State) (h : Keeps s0 s) (h2 : Keeps s0 t) : Keeps s0 (State.reach s q a n t) := by
  unfold State.reach
  dsimp only [Keeps]
  repeat' first
    | with_reducible assumption
    | with_reducible apply State.touch_keeps
    | with_reducible apply State.putOff_keeps
    | dsimp only [Keeps]
    | split

theorem State.bar2ReadNow_keeps {s0 s : State} (a n : Nat) (ces : List (Nat × Nat)) (h : Keeps s0 s) : Keeps s0 (State.bar2ReadNow s a n ces) := by
  unfold State.bar2ReadNow
  dsimp only [Keeps]
  repeat' first
    | with_reducible assumption
    | with_reducible apply State.corrections_keeps
    | with_reducible apply State.reach_keeps

theorem State.bar2WriteNow_keeps {s0 s : State} (a : Nat) (b : Bytes) (losses : Nat) (ces : List (Nat × Nat)) (h : Keeps s0 s) : Keeps s0 (State.bar2WriteNow s a b losses ces) := by
  unfold State.bar2WriteNow
  dsimp only [Keeps]
  repeat' first
    | with_reducible assumption
    | with_reducible apply State.reach_keeps
    | with_reducible apply State.countLoss_keeps
    | with_reducible apply State.writeBytes_keeps
    | with_reducible apply State.writeCorrections_keeps
    | with_reducible refine Keeps.foldl (fun _ _ _ => ?_) ?_

theorem State.orWait_keeps {s0 s : State} (k : Packet) (m : Meets) (ds : List Nat) (t : State) (h : Keeps s0 s) (h2 : Keeps s0 t) : Keeps s0 (State.orWait s k m ds t) := by
  unfold State.orWait
  dsimp only [Keeps]
  repeat' first
    | with_reducible assumption
    | with_reducible apply State.touch_keeps
    | with_reducible apply State.putOff_keeps
    | dsimp only [Keeps]
    | split

theorem State.serveRead_keeps {s0 s : State} (k : Packet) (m : Meets) (h : Keeps s0 s) : Keeps s0 (State.serveRead s k m) := by
  unfold State.serveRead
  dsimp only [Keeps]
  repeat' first
    | with_reducible assumption
    | with_reducible apply State.corrections_keeps
    | with_reducible apply State.respondRead_keeps
    | with_reducible apply State.orWait_keeps
    | with_reducible apply State.afterRead_keeps
    | dsimp only [Keeps]
    | split

theorem State.dataErrors_keeps {s0 s : State} (txn n : Nat) (m : Meets) (h : Keeps s0 s) : Keeps s0 (State.dataErrors s txn n m) := by
  unfold State.dataErrors
  dsimp only [Keeps]
  repeat' first
    | with_reducible assumption
    | with_reducible apply State.writeCorrections_keeps
    | dsimp only [Keeps]
    | split

theorem State.takeOld_keeps {s0 s : State} (txn : Nat) (data : Bytes) (h : Keeps s0 s) : Keeps s0 (State.takeOld s txn data) := by
  unfold State.takeOld
  dsimp only [Keeps]
  repeat' first
    | with_reducible assumption
    | with_reducible apply State.updDesc_keeps
    | dsimp only [Keeps]
    | split

theorem State.writeAnswered_keeps {s0 s : State} (k : Packet) (m : Meets) (a : Nat) (b : Bytes) (h : Keeps s0 s) : Keeps s0 (State.writeAnswered s k m a b) := by
  unfold State.writeAnswered
  dsimp only [Keeps]
  repeat' first
    | with_reducible assumption
    | with_reducible apply State.portWrite_keeps
    | with_reducible apply State.writeCorrections_keeps
    | with_reducible apply State.answer_keeps

theorem State.serveWrite_keeps {s0 s : State} (k : Packet) (m : Meets) (h : Keeps s0 s) : Keeps s0 (State.serveWrite s k m) := by
  unfold State.serveWrite
  dsimp only [Keeps]
  repeat' first
    | with_reducible assumption
    | with_reducible apply State.answer_keeps
    | with_reducible apply State.orWait_keeps
    | with_reducible apply State.writeAnswered_keeps
    | dsimp only [Keeps]
    | split

theorem Applied.answer_keeps {s0 : State} (a : Applied) (k : Packet) (h : Keeps s0 a.st) : Keeps s0 (a.answer k) := by
  unfold Applied.answer
  refine State.answer_keeps _ _ _ _ _ ?_
  split
  · exact h
  · exact State.respondRead_keeps _ _ _ h

theorem State.serveRacc_keeps {s0 s : State} (k : Packet) (m : Meets) (h : Keeps s0 s) : Keeps s0 (State.serveRacc s k m) := by
  unfold State.serveRacc
  extract_lets op els n a
  split
  · exact State.answer_keeps _ _ _ _ _ h
  · exact State.orWait_keeps _ _ _ _ h (Applied.answer_keeps _ _ (applyElements_keeps _ _ _ (State.corrections_keeps _ _ _ h)))

theorem State.serveSignal_keeps {s0 s : State} (k : Packet) (h : Keeps s0 s) : Keeps s0 (State.serveSignal s k) := by
  unfold State.serveSignal
  dsimp only [Keeps]
  repeat' first
    | with_reducible assumption
    | with_reducible apply State.answer_keeps
    | with_reducible apply State.orWait_keeps
    | with_reducible apply State.addCounter_keeps
    | dsimp only [Keeps]
    | split

theorem State.landDelta_keeps {s0 s : State} (k : Packet) (m : Meets) (f : Nat) (p : Bytes) (h : Keeps s0 s) : Keeps s0 (State.landDelta s k m f p) := by
  unfold State.landDelta
  dsimp only [Keeps]
  repeat' first
    | with_reducible assumption
    | with_reducible apply State.answer_keeps
    | with_reducible apply State.writeCorrections_keeps
    | with_reducible apply State.orWait_keeps
    | with_reducible apply State.enterRing_keeps
    | with_reducible refine Keeps.foldl (fun _ _ _ => ?_) ?_
    | dsimp only [Keeps]
    | split

theorem State.firstSegment_keeps {s0 s : State} (k : Packet) (m : Meets) (h : Keeps s0 s) : Keeps s0 (State.firstSegment s k m) := by
  unfold State.firstSegment
  dsimp only [Keeps]
  repeat' first
    | with_reducible assumption
    | with_reducible apply State.answer_keeps
    | with_reducible apply State.landDelta_keeps
    | with_reducible apply State.setFactor_keeps
    | with_reducible apply State.orWait_keeps
    | dsimp only [Keeps]
    | split

theorem State.dropReserve_keeps {s0 s : State} (f : Nat) (r : Reserve) (h : Keeps s0 s) : Keeps s0 (State.dropReserve s f r) := by
  unfold State.dropReserve
  dsimp only [Keeps]
  repeat' first
    | with_reducible assumption
    | with_reducible apply State.setFactor_keeps

theorem State.laterSegment_keeps {s0 s : State} (k : Packet) (m : Meets) (h : Keeps s0 s) : Keeps s0 (State.laterSegment s k m) := by
  unfold State.laterSegment
  dsimp only [Keeps]
  repeat' first
    | with_reducible assumption
    | with_reducible apply State.retryLocal_keeps
    | with_reducible apply State.answer_keeps
    | with_reducible apply State.putOff_keeps
    | with_reducible apply State.landDelta_keeps
    | with_reducible apply State.dropReserve_keeps
    | with_reducible apply State.setFactor_keeps
    | dsimp only [Keeps]
    | split

theorem State.serveDelta_keeps {s0 s : State} (k : Packet) (m : Meets) (h : Keeps s0 s) : Keeps s0 (State.serveDelta s k m) := by
  unfold State.serveDelta
  dsimp only [Keeps]
  repeat' first
    | with_reducible assumption
    | with_reducible apply State.firstSegment_keeps
    | with_reducible apply State.laterSegment_keeps
    | dsimp only [Keeps]
    | split

theorem State.serveBucket_keeps {s0 s : State} (k : Packet) (h : Keeps s0 s) : Keeps s0 (State.serveBucket s k) := by
  unfold State.serveBucket
  dsimp only [Keeps]
  repeat' first
    | with_reducible assumption
    | with_reducible apply State.answer_keeps
    | with_reducible apply State.countBucket_keeps

theorem State.serveGateDown_keeps {s0 s : State} (k : Packet) (m : Meets) (h : Keeps s0 s) : Keeps s0 (State.serveGateDown s k m) := by
  unfold State.serveGateDown
  dsimp only [Keeps]
  repeat' first
    | with_reducible assumption
    | with_reducible apply State.answer_keeps
    | with_reducible apply State.forwardErrors_keeps
    | with_reducible apply State.applyDecision_keeps
    | dsimp only [Keeps]
    | split

theorem State.ringScale_keeps {s0 s : State} (b : Nat) (r : BucketRec) (step : Nat) (h : Keeps s0 s) : Keeps s0 (State.ringScale s b r step) := by
  unfold State.ringScale
  dsimp only [Keeps]
  repeat' first
    | with_reducible assumption
    | with_reducible apply State.setPass_keeps
    | with_reducible apply State.sendBytes_keeps
    | dsimp only [Keeps]
    | split

theorem State.serveRingMax_keeps {s0 s : State} (k : Packet) (h : Keeps s0 s) : Keeps s0 (State.serveRingMax s k) := by
  unfold State.serveRingMax
  dsimp only [Keeps]
  repeat' first
    | with_reducible assumption
    | with_reducible apply State.answer_keeps
    | with_reducible apply State.setPass_keeps
    | with_reducible apply State.ringScale_keeps
    | with_reducible apply State.orWait_keeps
    | with_reducible apply State.ringAdvance_keeps
    | dsimp only [Keeps]
    | split

theorem State.serveRingScale_keeps {s0 s : State} (k : Packet) (h : Keeps s0 s) : Keeps s0 (State.serveRingScale s k) := by
  unfold State.serveRingScale
  dsimp only [Keeps]
  repeat' first
    | with_reducible assumption
    | with_reducible apply State.orWait_keeps
    | with_reducible apply State.answer_keeps
    | with_reducible apply State.ringAdvance_keeps
    | with_reducible apply State.setPass_keeps

theorem State.ownerBlocks_keeps {s0 s : State} (b : Nat) (r : BucketRec) (bs : List Bytes) (h : Keeps s0 s) : Keeps s0 (State.ownerBlocks s b r bs).st := by
  unfold State.ownerBlocks
  dsimp only [Keeps]
  repeat' first
    | with_reducible assumption
    | with_reducible apply applyElements_keeps
    | with_reducible apply State.setPass_keeps
    | with_reducible refine Keeps.foldl (fun _ _ _ => ?_) ?_
    | with_reducible refine Keeps.foldlSt (fun _ _ _ => ?_) ?_

theorem State.serveRingData_keeps {s0 s : State} (k : Packet) (m : Meets) (h : Keeps s0 s) : Keeps s0 (State.serveRingData s k m) := by
  unfold State.serveRingData
  dsimp only [Keeps]
  repeat' first
    | with_reducible assumption
    | with_reducible apply State.answer_keeps
    | with_reducible apply State.ownerBlocks_keeps
    | with_reducible apply State.corrections_keeps
    | with_reducible apply State.orWait_keeps
    | with_reducible apply State.ringAdvance_keeps
    | with_reducible apply State.setPass_keeps
    | dsimp only [Keeps]
    | split

theorem State.noteForward_keeps {s0 s : State} (b step n : Nat) (h : Keeps s0 s) : Keeps s0 (State.noteForward s b step n) := by
  unfold State.noteForward
  dsimp only [Keeps]
  repeat' first
    | with_reducible assumption
    | with_reducible apply State.setBkt_keeps
    | dsimp only [Keeps]
    | split

theorem State.serveMirror_keeps {s0 s : State} (k : Packet) (m : Meets) (h : Keeps s0 s) : Keeps s0 (State.serveMirror s k m) := by
  unfold State.serveMirror
  dsimp only [Keeps]
  repeat' first
    | with_reducible assumption
    | with_reducible apply State.answer_keeps
    | with_reducible apply State.writeBytes_keeps
    | with_reducible apply State.writeCorrections_keeps
    | with_reducible apply State.orWait_keeps
    | with_reducible apply State.settleMirror_keeps
    | with_reducible apply State.noteForward_keeps
    | dsimp only [Keeps]
    | split

theorem State.unhold_keeps {s0 s : State} (b : Nat) (h : Keeps s0 s) : Keeps s0 (State.unhold s b) := by
  unfold State.unhold
  dsimp only [Keeps]
  repeat' first
    | with_reducible assumption
    | with_reducible apply State.setBkt_keeps
    | dsimp only [Keeps]
    | split

theorem State.overwritten_keeps {s0 s : State} (b : Nat) (again : Word) (h : Keeps s0 s) : Keeps s0 (State.overwritten s b again) := by
  unfold State.overwritten
  dsimp only [Keeps]
  repeat' first
    | with_reducible assumption
    | with_reducible apply State.unhold_keeps
    | with_reducible apply State.sendFp_keeps
    | dsimp only [Keeps]
    | split

theorem State.takeFp_keeps {s0 s : State} (b flags : Nat) (run again : Word) (src : Nat) (h : Keeps s0 s) : Keeps s0 (State.takeFp s b flags run again src) := by
  unfold State.takeFp
  dsimp only [Keeps]
  repeat' first
    | with_reducible assumption
    | with_reducible apply State.unhold_keeps
    | with_reducible apply State.overwritten_keeps
    | with_reducible apply State.resolve_keeps
    | with_reducible apply State.setFp_keeps
    | with_reducible apply State.compareFp_keeps
    | dsimp only [Keeps]
    | split

theorem State.serveFp_keeps {s0 s : State} (k : Packet) (m : Meets) (h : Keeps s0 s) : Keeps s0 (State.serveFp s k m) := by
  unfold State.serveFp
  dsimp only [Keeps]
  repeat' first
    | with_reducible assumption
    | with_reducible apply State.takeFp_keeps
    | with_reducible apply State.corrections_keeps
    | with_reducible apply State.orWait_keeps
    | with_reducible apply State.answer_keeps

theorem State.openStream_keeps {s0 s : State} (r : Relay) (x : Nat × Nat × Nat) (h : Keeps s0 s) : Keeps s0 (State.openStream s r x).1 := by
  unfold State.openStream
  dsimp only [Keeps]
  exact h

theorem State.relayFor_keeps {s0 s : State} (k : Packet) (h : Keeps s0 s) : Keeps s0 (State.relayFor s k).1 := by
  unfold State.relayFor
  split
  · exact h
  · extract_lets x r0 xs o r g
    have k : Keeps s0 o.1 := Keeps.foldlFst
      (f := fun (acc : State × List (Nat × Nat × Nat × Nat × Nat)) y => ((acc.1.openStream r0 y).1, acc.2 ++ [(acc.1.openStream r0 y).2]))
      (fun _ y k => State.openStream_keeps r0 y k) h
    clear_value o
    exact ⟨k.1, k.2, k.3⟩

theorem State.passOn_keeps {s0 s : State} (k : Packet) (x : Nat × Nat × Nat × Nat × Nat) (h : Keeps s0 s) : Keeps s0 (State.passOn s k x) := by
  unfold State.passOn
  dsimp only [Keeps]
  repeat' first
    | with_reducible assumption
    | with_reducible apply State.send_keeps

theorem State.serveBcast_keeps {s0 s : State} (k : Packet) (m : Meets) (h : Keeps s0 s) : Keeps s0 (State.serveBcast s k m) := by
  unfold State.serveBcast
  dsimp only [Keeps]
  repeat' first
    | with_reducible assumption
    | with_reducible apply State.relayFor_keeps
    | with_reducible apply State.passOn_keeps
    | with_reducible apply State.portWrite_keeps
    | with_reducible apply State.writeCorrections_keeps
    | with_reducible apply State.orWait_keeps
    | with_reducible apply State.endRelay_keeps
    | with_reducible apply State.setRelay_keeps
    | with_reducible refine Keeps.foldl (fun _ _ _ => ?_) ?_
    | dsimp only [Keeps]
    | split

theorem State.paramData_keeps {s0 s : State} (k : Packet) (notReady : Bool) (data : Bytes) (h : Keeps s0 s) : Keeps s0 (State.paramData s k notReady data) := by
  unfold State.paramData
  dsimp only [Keeps]
  repeat' first
    | with_reducible assumption
    | with_reducible apply State.send_keeps

theorem State.serveParamRead_keeps {s0 s : State} (k : Packet) (m : Meets) (h : Keeps s0 s) : Keeps s0 (State.serveParamRead s k m) := by
  unfold State.serveParamRead
  dsimp only [Keeps]
  repeat' first
    | with_reducible assumption
    | with_reducible apply State.corrections_keeps
    | with_reducible apply State.answer_keeps
    | with_reducible apply State.paramData_keeps
    | with_reducible apply State.orWait_keeps
    | with_reducible apply State.afterRead_keeps
    | dsimp only [Keeps]
    | split

theorem State.takeParam_keeps {s0 s : State} (k : Packet) (h : Keeps s0 s) : Keeps s0 (State.takeParam s k) := by
  unfold State.takeParam
  dsimp only [Keeps]
  repeat' first
    | with_reducible assumption
    | with_reducible apply State.setWork_keeps
    | with_reducible apply State.gatherEnd_keeps
    | with_reducible apply State.updDesc_keeps
    | dsimp only [Keeps]
    | split

theorem State.paramErrors_keeps {s0 s : State} (k : Packet) (m : Meets) (h : Keeps s0 s) : Keeps s0 (State.paramErrors s k m) := by
  unfold State.paramErrors
  dsimp only [Keeps]
  repeat' first
    | with_reducible assumption
    | with_reducible apply State.writeCorrections_keeps
    | dsimp only [Keeps]
    | split

theorem State.serveHold_keeps {s0 s : State} (k : Packet) (m : Meets) (h : Keeps s0 s) : Keeps s0 (State.serveHold s k m) := by
  unfold State.serveHold
  dsimp only [Keeps]
  repeat' first
    | with_reducible assumption
    | with_reducible apply State.answer_keeps
    | with_reducible apply State.takeHold_keeps
    | with_reducible apply State.corrections_keeps
    | with_reducible apply State.orWait_keeps
    | dsimp only [Keeps]
    | split

theorem State.serveDrop_keeps {s0 s : State} (k : Packet) (h : Keeps s0 s) : Keeps s0 (State.serveDrop s k) := by
  unfold State.serveDrop
  dsimp only [Keeps]
  repeat' first
    | with_reducible assumption
    | with_reducible apply State.answer_keeps
    | with_reducible apply State.dropHold_keeps

theorem State.serveStage_keeps {s0 s : State} (k : Packet) (m : Meets) (h : Keeps s0 s) : Keeps s0 (State.serveStage s k m) := by
  unfold State.serveStage
  dsimp only [Keeps]
  repeat' first
    | with_reducible assumption
    | with_reducible apply State.answer_keeps
    | with_reducible apply State.orWait_keeps
    | with_reducible apply State.placeSegment_keeps
    | dsimp only [Keeps]
    | split

theorem State.serveCredit_keeps {s0 s : State} (k : Packet) (h : Keeps s0 s) : Keeps s0 (State.serveCredit s k) := by
  unfold State.serveCredit
  dsimp only [Keeps]
  repeat' first
    | with_reducible assumption
    | with_reducible apply State.trySends_keeps
    | with_reducible apply State.answer_keeps
    | with_reducible apply State.takeCredit_keeps

theorem State.servePermute_keeps {s0 s : State} (k : Packet) (m : Meets) (h : Keeps s0 s) : Keeps s0 (State.servePermute s k m) := by
  unfold State.servePermute
  dsimp only [Keeps]
  repeat' first
    | with_reducible assumption
    | with_reducible apply State.answer_keeps
    | with_reducible apply State.orWait_keeps
    | with_reducible apply State.writeAnswered_keeps
    | dsimp only [Keeps]
    | split

theorem State.tryVote_keeps {s0 s : State} (h : Keeps s0 s) : Keeps s0 (State.tryVote s) := by
  unfold State.tryVote
  dsimp only [Keeps]
  repeat' first
    | with_reducible assumption
    | with_reducible apply State.sendColl_keeps
    | with_reducible apply State.decideSwitch_keeps
    | dsimp only [Keeps]
    | split

theorem State.serveVote_keeps {s0 s : State} (k : Packet) (h : Keeps s0 s) : Keeps s0 (State.serveVote s k) := by
  unfold State.serveVote
  dsimp only [Keeps]
  repeat' first
    | with_reducible assumption
    | with_reducible apply State.answer_keeps
    | with_reducible apply State.tryVote_keeps
    | dsimp only [Keeps]
    | split

theorem State.serveSwitch_keeps {s0 s : State} (k : Packet) (h : Keeps s0 s) : Keeps s0 (State.serveSwitch s k) := by
  unfold State.serveSwitch
  dsimp only [Keeps]
  repeat' first
    | with_reducible assumption
    | with_reducible apply State.answer_keeps
    | with_reducible apply State.decideSwitch_keeps
    | dsimp only [Keeps]
    | split

theorem State.serveColl_keeps {s0 s : State} (k : Packet) (m : Meets) (h : Keeps s0 s) : Keeps s0 (State.serveColl s k m) := by
  unfold State.serveColl
  dsimp only [Keeps]
  repeat' first
    | with_reducible assumption
    | with_reducible apply State.serveGateUp_keeps
    | with_reducible apply State.serveGateDown_keeps
    | with_reducible apply State.serveRingMax_keeps
    | with_reducible apply State.serveRingScale_keeps
    | with_reducible apply State.serveRingData_keeps
    | with_reducible apply State.serveMirror_keeps
    | with_reducible apply State.serveFp_keeps
    | with_reducible apply State.serveBcast_keeps
    | with_reducible apply State.serveParamRead_keeps
    | with_reducible apply State.takeParam_keeps
    | with_reducible apply State.paramErrors_keeps
    | with_reducible apply State.serveHold_keeps
    | with_reducible apply State.serveDrop_keeps
    | with_reducible apply State.serveStage_keeps
    | with_reducible apply State.serveCredit_keeps
    | with_reducible apply State.servePermute_keeps
    | with_reducible apply State.serveVote_keeps
    | with_reducible apply State.serveSwitch_keeps
    | dsimp only [Keeps]
    | split

theorem State.servePacket_keeps {s0 s : State} (k : Packet) (m : Meets) (h : Keeps s0 s) : Keeps s0 (State.servePacket s k m) := by
  unfold State.servePacket
  dsimp only [Keeps]
  repeat' first
    | with_reducible assumption
    | with_reducible apply State.serveRead_keeps
    | with_reducible apply State.dataErrors_keeps
    | with_reducible apply State.takeOld_keeps
    | with_reducible apply State.respond_keeps
    | with_reducible apply State.serveWrite_keeps
    | with_reducible apply State.serveRacc_keeps
    | with_reducible apply State.serveSignal_keeps
    | with_reducible apply State.serveDelta_keeps
    | with_reducible apply State.serveBucket_keeps
    | with_reducible apply State.serveColl_keeps
    | dsimp only [Keeps]
    | split

theorem State.trySend_keeps {s0 s : State} (key : Nat) (h : Keeps s0 s) : Keeps s0 (State.trySend s key) := by
  unfold State.trySend
  dsimp only [Keeps]
  repeat' first
    | with_reducible assumption
    | with_reducible apply State.trySends_keeps

theorem State.storeImage_keeps {s0 s : State} (slot : Nat) (b : Bytes) (held : Bool) (nv : NvEnd) (h : Keeps s0 s) : Keeps s0 (State.storeImage s slot b held nv) := by
  unfold State.storeImage
  dsimp only [Keeps]
  repeat' first
    | with_reducible assumption
    | with_reducible apply State.dmkEnd_keeps
    | dsimp only [Keeps]
    | split

theorem State.runFromMemory_keeps {s0 s : State} (op slot a : Nat) (nv : NvEnd) (h : Keeps s0 s) : Keeps s0 (State.runFromMemory s op slot a nv) := by
  unfold State.runFromMemory
  dsimp only [Keeps]
  repeat' first
    | with_reducible assumption
    | with_reducible apply State.dmkEnd_keeps
    | with_reducible apply State.putOff_keeps
    | with_reducible apply State.corrections_keeps
    | with_reducible apply State.touch_keeps
    | with_reducible apply State.loadImage_keeps
    | with_reducible apply State.storeImage_keeps
    | dsimp only [Keeps]
    | split

theorem State.resumeDamask_keeps {s0 s : State} (h : Keeps s0 s) : Keeps s0 (State.resumeDamask s) := by
  unfold State.resumeDamask
  dsimp only [Keeps]
  repeat' first
    | with_reducible assumption
    | with_reducible apply State.bootEnds_keeps
    | with_reducible apply State.loadImage_keeps
    | with_reducible apply State.runFromMemory_keeps
    | dsimp only [Keeps]
    | split

theorem State.resumeSeq_keeps {s0 s : State} (h : Keeps s0 s) : Keeps s0 (State.resumeSeq s) := by
  unfold State.resumeSeq
  dsimp only [Keeps]
  repeat' first
    | with_reducible assumption
    | with_reducible apply State.runSeq_keeps
    | dsimp only [Keeps]
    | split

theorem State.resumeStage_keeps {s0 s : State} (h : Keeps s0 s) : Keeps s0 (State.resumeStage s) := by
  unfold State.resumeStage
  dsimp only [Keeps]
  repeat' first
    | with_reducible assumption
    | with_reducible apply State.runStage_keeps
    | dsimp only [Keeps]
    | split

theorem State.offerEntry_keeps {s0 s : State} (q : Nat) (b : Bytes) (head : Nat) (m : OfferMeets) (h : Keeps s0 s) : Keeps s0 (State.offerEntry s q b head m) := by
  unfold State.offerEntry
  split
  · rename_i e
    exact State.offer_keeps _ _ h e
  · exact State.setSq_keeps _ _ h

theorem State.takeEntry_keeps {s0 s : State} (q : Nat) (b : Bytes) (m : OfferMeets) (h : Keeps s0 s) : Keeps s0 (State.takeEntry s q b m) := by
  unfold State.takeEntry
  dsimp only [Keeps]
  repeat' first
    | with_reducible assumption
    | with_reducible apply State.offerEntry_keeps
    | with_reducible apply State.setSq_keeps

theorem State.fetchDevice_keeps {s0 s : State} (q : Nat) (m : OfferMeets) (h : Keeps s0 s) : Keeps s0 (State.fetchDevice s q m) := by
  unfold State.fetchDevice
  dsimp only [Keeps]
  repeat' first
    | with_reducible assumption
    | with_reducible apply State.fetchFails_keeps
    | with_reducible apply State.putOff_keeps
    | with_reducible apply State.setSq_keeps
    | with_reducible apply State.takeEntry_keeps
    | with_reducible apply State.corrections_keeps
    | with_reducible apply State.touch_keeps
    | dsimp only [Keeps]
    | split

theorem State.fetchAgain_keeps {s0 s : State} (q : Nat) (m : OfferMeets) (h : Keeps s0 s) : Keeps s0 (State.fetchAgain s q m) := by
  unfold State.fetchAgain
  dsimp only [Keeps]
  repeat' first
    | with_reducible assumption
    | with_reducible apply State.setSq_keeps
    | with_reducible apply State.fetchDevice_keeps
    | dsimp only [Keeps]
    | split

theorem State.bar2Refuse_keeps {s0 s : State} (h : Keeps s0 s) : Keeps s0 (State.bar2Refuse s) := by
  unfold State.bar2Refuse
  exact State.refuse_keeps _ _ ⟨h.1, h.2, h.3⟩

theorem State.bar2Again_keeps {s0 s t : State} (a n : Nat) (h : Keeps s0 s) (h2 : Keeps s0 t) : Keeps s0 (State.bar2Again s a n t) := by
  unfold State.bar2Again
  split
  · exact State.bar2Refuse_keeps h
  · exact h2

theorem State.doTask_keeps {s0 s : State} (t : Task) (h : Keeps s0 s) : Keeps s0 (State.doTask s t) := by
  unfold State.doTask
  dsimp only [Keeps]
  repeat' first
    | with_reducible assumption
    | with_reducible apply State.gatherEnd_keeps
    | with_reducible apply State.gatherPiece_keeps
    | with_reducible apply State.startPrefetch_keeps
    | with_reducible apply State.zeroOutside_keeps
    | with_reducible apply State.putOff_keeps
    | with_reducible apply State.forwardBuffer_keeps
    | with_reducible apply State.overwritePeer_keeps
    | dsimp only [Keeps]
    | split

theorem State.serveOne_keeps {s0 s : State} (w : Waiting) (h : Keeps s0 s) : Keeps s0 (State.serveOne s w) := by
  unfold State.serveOne
  dsimp only [Keeps]
  repeat' first
    | with_reducible assumption
    | with_reducible apply State.bar2Again_keeps
    | with_reducible apply State.doTask_keeps
    | with_reducible apply State.bar2ReadNow_keeps
    | with_reducible apply State.bar2WriteNow_keeps
    | with_reducible apply State.ring_keeps
    | with_reducible apply State.setCounter_keeps
    | with_reducible apply State.putOff_keeps
    | with_reducible apply State.servePacket_keeps
    | with_reducible apply State.gatherEnd_keeps
    | with_reducible apply State.finishRemote_keeps
    | with_reducible apply State.trySend_keeps
    | with_reducible apply State.resumeDamask_keeps
    | with_reducible apply State.resumeSeq_keeps
    | with_reducible apply State.resumeStage_keeps
    | with_reducible apply State.fetchAgain_keeps
    | dsimp only [Keeps]
    | split

theorem State.serveParked_keeps {s0 s : State} (w : Parked) (h : Keeps s0 s) : Keeps s0 (State.serveParked s w) := by
  unfold State.serveParked
  dsimp only [Keeps]
  repeat' first
    | with_reducible assumption
    | with_reducible refine State.underMap_keeps _ (fun _ _ => ?_) ?_
    | with_reducible apply State.advanceBefore_keeps
    | with_reducible apply State.serveOne_keeps

theorem State.serveWaiting_keeps {s0 s : State} (h : Keeps s0 s) : Keeps s0 (State.serveWaiting s) := by
  unfold State.serveWaiting
  dsimp only [Keeps]
  repeat' first
    | with_reducible assumption
    | with_reducible apply State.serveParked_keeps
    | with_reducible refine Keeps.foldl (fun _ _ _ => ?_) ?_

theorem State.resume_keeps {s0 s : State} (h : Keeps s0 s) : Keeps s0 (State.resume s) := by
  unfold State.resume
  dsimp only [Keeps]
  repeat' first
    | with_reducible assumption
    | with_reducible apply State.returnSlots_keeps
    | with_reducible apply State.trySends_keeps
    | with_reducible apply State.advance_keeps
    | with_reducible apply State.sendAllTiles_keeps
    | with_reducible apply State.retryLocal_keeps
    | with_reducible apply State.settleForces_keeps
    | with_reducible apply State.serveWaiting_keeps

theorem State.setRecovering_keeps {s0 s : State} (port : Nat) (on : Bool) (h : Keeps s0 s) : Keeps s0 (State.setRecovering s port on) := by
  unfold State.setRecovering
  dsimp only [Keeps]
  exact h

theorem State.setCq_keeps {s0 s : State} (q : Nat) (x : Cq) (h : Keeps s0 s) : Keeps s0 (State.setCq s q x) := by
  unfold State.setCq
  dsimp only [Keeps]
  exact h

theorem State.writeCqCfg_keeps {s0 s : State} (q : Nat) (w : Wr) (h : Keeps s0 s) : Keeps s0 (State.writeCqCfg s q w) := by
  unfold State.writeCqCfg
  dsimp only [Keeps]
  repeat' first
    | with_reducible assumption
    | with_reducible apply State.setCq_keeps
    | dsimp only [Keeps]
    | split

theorem State.logMark_keeps {s0 s : State} (r : FaultRec) (kind : Nat) (h : Keeps s0 s) : Keeps s0 (State.logMark s r kind) := by
  unfold State.logMark
  dsimp only [Keeps]
  repeat' first
    | with_reducible assumption
    | with_reducible apply State.logFault_keeps

theorem State.setMarks_keeps {s0 s : State} (m : Marks) (h : Keeps s0 s) : Keeps s0 (State.setMarks s m) := by
  unfold State.setMarks
  dsimp only [Keeps]
  exact h

theorem State.markCluster_keeps {s0 s : State} (r : FaultRec) (h : Keeps s0 s) : Keeps s0 (State.markCluster s r) := by
  unfold State.markCluster
  dsimp only [Keeps]
  repeat' first
    | with_reducible assumption
    | with_reducible apply State.calicoDirty_keeps
    | with_reducible apply State.logMark_keeps
    | with_reducible apply State.setMarks_keeps
    | dsimp only [Keeps]
    | split

theorem State.markWord_keeps {s0 s : State} (r : FaultRec) (h : Keeps s0 s) : Keeps s0 (State.markWord s r) := by
  unfold State.markWord
  dsimp only [Keeps]
  repeat' first
    | with_reducible assumption
    | with_reducible apply State.markCluster_keeps
    | with_reducible apply State.calicoDirty_keeps
    | with_reducible apply State.logMark_keeps
    | dsimp only [Keeps]
    | split

theorem State.stopSolve_keeps {s0 s : State} (e : Nat) (v : Solve) (h : Keeps s0 s) : Keeps s0 (State.stopSolve s e v) := by
  unfold State.stopSolve
  dsimp only [Keeps]
  repeat' first
    | with_reducible assumption
    | with_reducible apply State.noteUnderrun_keeps
    | with_reducible apply State.setEng_keeps
    | dsimp only [Keeps]
    | split

theorem State.strapClock_keeps {s0 s : State} (osc : Bool) (h : Keeps s0 s) : Keeps s0 (State.strapClock s osc) := by
  unfold State.strapClock
  dsimp only [Keeps]
  repeat' first
    | with_reducible assumption
    | dsimp only [Keeps]
    | split

theorem State.writeHandover_keeps {s0 s : State} (h : Keeps s0 s) : Keeps s0 (State.writeHandover s) := by
  unfold State.writeHandover
  dsimp only [Keeps]
  exact h

theorem State.deferPersist_keeps {s0 s : State} (h : Keeps s0 s) : Keeps s0 (State.deferPersist s) := by
  unfold State.deferPersist
  dsimp only [Keeps]
  repeat' first
    | with_reducible assumption
    | dsimp only [Keeps]
    | split

theorem State.deferRun_keeps {s0 s : State} (h : Keeps s0 s) : Keeps s0 (State.deferRun s) := by
  unfold State.deferRun
  dsimp only [Keeps]
  repeat' first
    | with_reducible assumption
    | with_reducible apply State.deferPersist_keeps
    | dsimp only [Keeps]
    | split

theorem State.activate_keeps {s0 s : State} (h : Keeps s0 s) : Keeps s0 (State.activate s) := by
  unfold State.activate
  dsimp only [Keeps]
  repeat' first
    | with_reducible assumption
    | with_reducible apply State.deferRun_keeps
    | with_reducible apply State.fwEnd_keeps
    | with_reducible apply State.writeHandover_keeps
    | dsimp only [Keeps]
    | split

theorem State.writeAttn_keeps {s0 s : State} (w : Wr) (h : Keeps s0 s) : Keeps s0 (State.writeAttn s w) := by
  unfold State.writeAttn
  dsimp only [Keeps]
  exact h

theorem State.eraseSlot_keeps {s0 s : State} (slot : Nat) (nv : NvEnd) (h : Keeps s0 s) : Keeps s0 (State.eraseSlot s slot nv) := by
  unfold State.eraseSlot
  dsimp only [Keeps]
  repeat' first
    | with_reducible assumption
    | with_reducible apply State.dmkEnd_keeps
    | dsimp only [Keeps]
    | split

theorem State.setBoot_keeps {s0 s : State} (slot : Nat) (nv : NvEnd) (h : Keeps s0 s) : Keeps s0 (State.setBoot s slot nv) := by
  unfold State.setBoot
  dsimp only [Keeps]
  repeat' first
    | with_reducible assumption
    | with_reducible apply State.dmkEnd_keeps
    | dsimp only [Keeps]
    | split

theorem State.runDamask_keeps {s0 s : State} (nv : NvEnd) (h : Keeps s0 s) : Keeps s0 (State.runDamask s nv) := by
  unfold State.runDamask
  dsimp only [Keeps]
  repeat' first
    | with_reducible assumption
    | with_reducible apply State.runFromMemory_keeps
    | with_reducible apply State.loadSlot_keeps
    | with_reducible apply State.dmkEnd_keeps
    | with_reducible apply State.eraseSlot_keeps
    | with_reducible apply State.setBoot_keeps
    | dsimp only [Keeps]
    | split

theorem State.writeDmkCtrl_keeps {s0 s : State} (w : Wr) (nv : NvEnd) (h : Keeps s0 s) : Keeps s0 (State.writeDmkCtrl s w nv) := by
  unfold State.writeDmkCtrl
  dsimp only [Keeps]
  repeat' first
    | with_reducible assumption
    | with_reducible apply State.advance_keeps
    | with_reducible apply State.runDamask_keeps
    | dsimp only [Keeps]
    | split

theorem State.writeStep_keeps {s0 s : State} (w : Wr) (h : Keeps s0 s) : Keeps s0 (State.writeStep s w) := by
  unfold State.writeStep
  dsimp only [Keeps]
  repeat' first
    | with_reducible assumption
    | dsimp only [Keeps]
    | split

theorem State.cancelGate_keeps {s0 s : State} (h : Keeps s0 s) : Keeps s0 (State.cancelGate s) := by
  unfold State.cancelGate
  dsimp only [Keeps]
  repeat' first
    | with_reducible assumption
    | with_reducible apply State.setWork_keeps
    | dsimp only [Keeps]
    | split

theorem State.clearBucket_keeps {s0 s : State} (b : Nat) (h : Keeps s0 s) : Keeps s0 (State.clearBucket s b) := by
  unfold State.clearBucket
  dsimp only [Keeps]
  repeat' first
    | with_reducible assumption
    | with_reducible apply State.setBkt_keeps
    | with_reducible apply State.zeroBuffer_keeps
    | with_reducible apply State.checkPrefetch_keeps

theorem State.clearBuckets_keeps {s0 s : State} (h : Keeps s0 s) : Keeps s0 (State.clearBuckets s) := by
  unfold State.clearBuckets
  dsimp only [Keeps]
  repeat' first
    | with_reducible assumption
    | with_reducible apply State.clearBucket_keeps
    | with_reducible refine Keeps.foldl (fun _ _ _ => ?_) ?_
    | dsimp only [Keeps]
    | split

theorem State.unholdBuckets_keeps {s0 s : State} (ces : List (Nat × Nat)) (h : Keeps s0 s) : Keeps s0 (State.unholdBuckets s ces) := by
  unfold State.unholdBuckets
  dsimp only [Keeps]
  repeat' first
    | with_reducible assumption
    | with_reducible apply State.corrections_keeps
    | with_reducible apply State.overwritePeer_keeps
    | with_reducible refine Keeps.foldl (fun _ _ _ => ?_) ?_

theorem State.writeGateCtrl_keeps {s0 s : State} (w : Wr) (h : Keeps s0 s) : Keeps s0 (State.writeGateCtrl s w) := by
  unfold State.writeGateCtrl
  dsimp only [Keeps]
  repeat' first
    | with_reducible assumption
    | with_reducible apply State.cancelGate_keeps
    | with_reducible apply State.clearBuckets_keeps
    | with_reducible apply State.advance_keeps
    | with_reducible apply State.unholdBuckets_keeps
    | dsimp only [Keeps]
    | split

theorem State.writeBktStatus_keeps {s0 s : State} (w : Wr) (h : Keeps s0 s) : Keeps s0 (State.writeBktStatus s w) := by
  unfold State.writeBktStatus
  dsimp only [Keeps]
  repeat' first
    | with_reducible assumption
    | with_reducible apply State.setBkt_keeps
    | dsimp only [Keeps]
    | split

theorem State.writeCounter_keeps {s0 s : State} (n c : Nat) (w : Wr) (h : Keeps s0 s) : Keeps s0 (State.writeCounter s n c w) := by
  unfold State.writeCounter
  dsimp only [Keeps]
  repeat' first
    | with_reducible assumption
    | with_reducible apply State.setCounter_keeps
    | with_reducible apply State.wake_keeps
    | with_reducible apply State.park_keeps
    | dsimp only [Keeps]
    | split

theorem State.writeSqBase_keeps {s0 s : State} (q : Nat) (w : Wr) (h : Keeps s0 s) : Keeps s0 (State.writeSqBase s q w) := by
  unfold State.writeSqBase
  dsimp only [Keeps]
  repeat' first
    | with_reducible assumption
    | with_reducible apply State.setSq_keeps
    | dsimp only [Keeps]
    | split

theorem State.startSq_keeps {s0 s : State} (q : Nat) (y : Sq) (h : Keeps s0 s) : Keeps s0 (State.startSq s q y) := by
  unfold State.startSq
  dsimp only [Keeps]
  repeat' first
    | with_reducible assumption
    | with_reducible apply State.setSq_keeps

theorem State.abortSq_keeps {s0 s : State} (q : Nat) (h : Keeps s0 s) : Keeps s0 (State.abortSq s q) := by
  unfold State.abortSq
  dsimp only [Keeps]
  repeat' first
    | with_reducible assumption
    | with_reducible apply State.setSq_keeps
    | with_reducible apply State.complete_keeps
    | with_reducible apply State.setWork_keeps
    | with_reducible apply State.endAbort_keeps
    | with_reducible apply State.finish_keeps
    | with_reducible refine Keeps.foldl (fun _ _ _ => ?_) ?_
    | dsimp only [Keeps]
    | split

theorem State.writeSqCfg_keeps {s0 s : State} (q : Nat) (w : Wr) (h : Keeps s0 s) : Keeps s0 (State.writeSqCfg s q w) := by
  unfold State.writeSqCfg
  dsimp only [Keeps]
  repeat' first
    | with_reducible assumption
    | with_reducible apply State.setSq_keeps
    | with_reducible apply State.startSq_keeps
    | with_reducible apply State.abortSq_keeps
    | dsimp only [Keeps]
    | split

theorem State.writeCqBase_keeps {s0 s : State} (q : Nat) (w : Wr) (h : Keeps s0 s) : Keeps s0 (State.writeCqBase s q w) := by
  unfold State.writeCqBase
  dsimp only [Keeps]
  repeat' first
    | with_reducible assumption
    | with_reducible apply State.setCq_keeps
    | dsimp only [Keeps]
    | split

theorem State.writeCqPtr_keeps {s0 s : State} (q : Nat) (w : Wr) (h : Keeps s0 s) : Keeps s0 (State.writeCqPtr s q w) := by
  unfold State.writeCqPtr
  dsimp only [Keeps]
  repeat' first
    | with_reducible assumption
    | with_reducible apply State.setCq_keeps

theorem State.writeDomCtrl_keeps {s0 s : State} (d : Nat) (w : Wr) (h : Keeps s0 s) : Keeps s0 (State.writeDomCtrl s d w) := by
  unfold State.writeDomCtrl
  dsimp only [Keeps]
  repeat' first
    | with_reducible assumption
    | with_reducible apply State.setDom_keeps
    | with_reducible apply State.wake_keeps
    | with_reducible apply State.settleForce_keeps
    | dsimp only [Keeps]
    | split

theorem State.writeLnkStatus_keeps {s0 s : State} (p : Nat) (w : Wr) (h : Keeps s0 s) : Keeps s0 (State.writeLnkStatus s p w) := by
  unfold State.writeLnkStatus
  dsimp only [Keeps]
  repeat' first
    | with_reducible assumption
    | with_reducible apply State.setPort_keeps
    | dsimp only [Keeps]
    | split

theorem State.calibrateNext_keeps {s0 s : State} (p l : Nat) (h : Keeps s0 s) : Keeps s0 (State.calibrateNext s p l) := by
  unfold State.calibrateNext
  dsimp only [Keeps]
  repeat' first
    | with_reducible assumption
    | with_reducible apply State.setPort_keeps
    | with_reducible apply State.queueAction_keeps
    | dsimp only [Keeps]
    | split

theorem State.releaseHeld_keeps {s0 s : State} (p : Nat) (h : Keeps s0 s) : Keeps s0 (State.releaseHeld s p) := by
  unfold State.releaseHeld
  dsimp only [Keeps]
  repeat' first
    | with_reducible assumption
    | with_reducible apply State.advance_keeps
    | with_reducible apply State.endAttempt_keeps
    | with_reducible apply State.setWork_keeps
    | with_reducible refine Keeps.foldl (fun _ _ _ => ?_) ?_
    | dsimp only [Keeps]
    | split

theorem State.retrain_keeps {s0 s : State} (p : Nat) (h : Keeps s0 s) : Keeps s0 (State.retrain s p) := by
  unfold State.retrain
  dsimp only [Keeps]
  repeat' first
    | with_reducible assumption
    | with_reducible apply State.train_keeps
    | dsimp only [Keeps]
    | split

theorem State.writeLnkCtrl_keeps {s0 s : State} (p : Nat) (w : Wr) (h : Keeps s0 s) : Keeps s0 (State.writeLnkCtrl s p w) := by
  unfold State.writeLnkCtrl
  dsimp only [Keeps]
  repeat' first
    | with_reducible assumption
    | with_reducible apply State.setPort_keeps
    | with_reducible apply State.calibrateNext_keeps
    | with_reducible apply State.releaseHeld_keeps
    | with_reducible apply State.retrain_keeps
    | dsimp only [Keeps]
    | split

theorem State.unstage_keeps {s0 s : State} (h : Keeps s0 s) : Keeps s0 (State.unstage s) := by
  unfold State.unstage
  dsimp only [Keeps]
  repeat' first
    | with_reducible assumption
    | with_reducible apply State.fwEnd_keeps
    | with_reducible apply State.writeDirectory_keeps
    | dsimp only [Keeps]
    | split

theorem State.runFirmware_keeps {s0 s : State} (nv : NvEnd) (h : Keeps s0 s) : Keeps s0 (State.runFirmware s nv) := by
  unfold State.runFirmware
  dsimp only [Keeps]
  repeat' first
    | with_reducible assumption
    | with_reducible apply State.fwEnd_keeps
    | with_reducible apply State.runStage_keeps
    | with_reducible apply State.activate_keeps
    | with_reducible apply State.unstage_keeps
    | with_reducible apply State.revert_keeps
    | dsimp only [Keeps]
    | split

theorem State.writeFwCtrl_keeps {s0 s : State} (w : Wr) (nv : NvEnd) (h : Keeps s0 s) : Keeps s0 (State.writeFwCtrl s w nv) := by
  unfold State.writeFwCtrl
  dsimp only [Keeps]
  repeat' first
    | with_reducible assumption
    | with_reducible apply State.runFirmware_keeps
    | dsimp only [Keeps]
    | split

theorem State.setScrub_keeps {s0 s : State} (u : Nat) (x : Scrub) (h : Keeps s0 s) : Keeps s0 (State.setScrub s u x) := by
  unfold State.setScrub
  dsimp only [Keeps]
  exact h

theorem State.regWrite_keeps {s0 s : State} (r : Reg) (w : Wr) (h : Keeps s0 s) : Keeps s0 (State.regWrite s r w) := by
  unfold State.regWrite
  dsimp only [Keeps]
  repeat' first
    | with_reducible assumption
    | with_reducible apply State.writeAttn_keeps
    | with_reducible apply State.writeDmkCtrl_keeps
    | with_reducible apply State.writeSeqCtrl_keeps
    | with_reducible apply State.writeStep_keeps
    | with_reducible apply State.writeGateCtrl_keeps
    | with_reducible apply State.writeBktStatus_keeps
    | with_reducible apply State.setStash_keeps
    | with_reducible apply State.writeCounter_keeps
    | with_reducible apply State.writeSqBase_keeps
    | with_reducible apply State.writeSqCfg_keeps
    | with_reducible apply State.writeSqPtr_keeps
    | with_reducible apply State.writeCqBase_keeps
    | with_reducible apply State.writeCqCfg_keeps
    | with_reducible apply State.writeCqPtr_keeps
    | with_reducible apply State.writeDomCtrl_keeps
    | with_reducible apply State.writeLnkStatus_keeps
    | with_reducible apply State.writeLnkCtrl_keeps
    | with_reducible apply State.setPort_keeps
    | with_reducible apply State.writeRetireCtrl_keeps
    | with_reducible apply State.setEng_keeps
    | with_reducible apply State.writeFwCtrl_keeps
    | with_reducible apply State.setScrub_keeps
    | dsimp only [Keeps]
    | split

theorem State.directoryAfterBoot_keeps {s0 s : State} (booted : Nat) (h : Keeps s0 s) : Keeps s0 (State.directoryAfterBoot s booted) := by
  unfold State.directoryAfterBoot
  dsimp only [Keeps]
  repeat' first
    | with_reducible assumption
    | with_reducible apply State.writeDirectory_keeps
    | dsimp only [Keeps]
    | split

theorem State.forgetTxns_keeps {s0 s : State} (id : Nat) (h : Keeps s0 s) : Keeps s0 (State.forgetTxns s id) := by
  unfold State.forgetTxns
  dsimp only [Keeps]
  exact h

theorem State.persistAll_keeps {s0 s : State} (rs : List FaultRec) (h : Keeps s0 s) : Keeps s0 (State.persistAll s rs) := by
  unfold State.persistAll
  dsimp only [Keeps]
  repeat' first
    | with_reducible assumption
    | with_reducible refine Keeps.foldl (fun _ _ _ => ?_) ?_

theorem State.persistSome_keeps {s0 s : State} (part : Option Nat) (h : Keeps s0 s) : Keeps s0 (State.persistSome s part) := by
  unfold State.persistSome
  dsimp only [Keeps]
  repeat' first
    | with_reducible assumption
    | with_reducible apply State.persistAll_keeps

theorem State.release_keeps {s0 s : State} (l : ReadyList) (b : Nat) (ces : List (Nat × Nat)) (h : Keeps s0 s) : Keeps s0 (State.release s l b ces) := by
  unfold State.release
  dsimp only [Keeps]
  repeat' first
    | with_reducible assumption
    | with_reducible apply State.writeStore_keeps
    | with_reducible apply State.writeCorrections_keeps
    | with_reducible apply State.setBkt_keeps
    | with_reducible apply State.addCounter_keeps

theorem State.leaveTick_keeps {s0 s : State} (h : Keeps s0 s) : Keeps s0 s.leaveTick := ⟨h.1, h.2, h.3⟩

theorem State.stepTo_keeps {s0 s : State} (t : Nat) (h : Keeps s0 s) (ht : s.tick ≤ t / 64) : Keeps s0 (s.stepTo t) := by
  unfold State.stepTo
  split
  · exact ⟨h.1, h.2, h.3.trans ht⟩
  · exact State.setTime_keeps _ h ht

theorem State.exchange_keeps {s0 s : State} (p : Nat) (c : CtlFlit) (h : Keeps s0 s) : Keeps s0 (State.exchange s p c) := by
  unfold State.exchange
  extract_lets x t4 y d e diff step run z s1 s2 s3
  have k1 : Keeps s0 s1 := State.setPort_keeps _ _ h
  have k2 : Keeps s0 s2 := by
    show Keeps s0 (if step then s1.stepTo e.toNat else s1)
    split
    · rename_i hs
      refine State.stepTo_keeps _ k1 ?_
      have hd : 0 < diff := by simp only [step, Bool.and_eq_true, decide_eq_true_eq] at hs; exact hs.1
      have ht : (s.localTime : Int) < e := by simp only [diff, t4] at hd; omega
      have hl : s.tick * 64 ≤ s.localTime := Nat.le_add_right ..
      show s.tick ≤ e.toNat / 64
      omega
    · exact k1
  have k3 : Keeps s0 s3 := by
    show Keeps s0 (if decide (0 < diff) && !step then _ else s2)
    split
    · exact State.logFault_keeps _ _ _ _ _ k2
    · exact k2
  split
  · exact State.setPort_keeps _ _ h
  · split
    · exact k3
    · exact k3

theorem State.widen_keeps {s0 s : State} (p : Nat) (h : Keeps s0 s) : Keeps s0 (State.widen s p) := by
  unfold State.widen
  dsimp only [Keeps]
  repeat' first
    | with_reducible assumption
    | with_reducible apply State.setPort_keeps
    | dsimp only [Keeps]
    | split

theorem State.doMove_keeps {s0 s : State} (p lane phys : Nat) (h : Keeps s0 s) : Keeps s0 (State.doMove s p lane phys) := by
  unfold State.doMove
  dsimp only [Keeps]
  repeat' first
    | with_reducible assumption
    | with_reducible apply State.queueAction_keeps
    | with_reducible apply State.setPort_keeps
    | dsimp only [Keeps]
    | split

theorem State.endRotation_keeps {s0 s : State} (p : Nat) (h : Keeps s0 s) : Keeps s0 (State.endRotation s p) := by
  unfold State.endRotation
  dsimp only [Keeps]
  repeat' first
    | with_reducible assumption
    | with_reducible apply State.setPort_keeps
    | with_reducible apply State.handleFailure_keeps
    | with_reducible apply State.restripe_keeps
    | with_reducible refine Keeps.foldl (fun _ _ _ => ?_) ?_
    | dsimp only [Keeps]
    | split

theorem State.doMoved_keeps {s0 s : State} (p lane : Nat) (h : Keeps s0 s) : Keeps s0 (State.doMoved s p lane) := by
  unfold State.doMoved
  dsimp only [Keeps]
  repeat' first
    | with_reducible assumption
    | with_reducible apply State.setPort_keeps
    | with_reducible apply State.endRotation_keeps
    | dsimp only [Keeps]
    | split

theorem State.takeWidth_keeps {s0 s : State} (p w : Nat) (h : Keeps s0 s) : Keeps s0 (State.takeWidth s p w) := by
  unfold State.takeWidth
  dsimp only [Keeps]
  repeat' first
    | with_reducible assumption
    | with_reducible apply State.restripe_keeps
    | with_reducible apply State.setPort_keeps
    | dsimp only [Keeps]
    | split

theorem State.laneAction_keeps {s0 s : State} (p code a0 a1 : Nat) (h : Keeps s0 s) : Keeps s0 (State.laneAction s p code a0 a1) := by
  unfold State.laneAction
  dsimp only [Keeps]
  repeat' first
    | with_reducible assumption
    | with_reducible apply State.doMove_keeps
    | with_reducible apply State.doMoved_keeps
    | with_reducible apply State.noteFailure_keeps
    | with_reducible apply State.takeWidth_keeps
    | with_reducible apply State.doDrift_keeps
    | dsimp only [Keeps]
    | split

theorem State.receiveControl_keeps {s0 s : State} (p : Nat) (c : CtlFlit) (h : Keeps s0 s) : Keeps s0 (State.receiveControl s p c) := by
  unfold State.receiveControl
  dsimp only [Keeps]
  repeat' first
    | with_reducible assumption
    | with_reducible apply State.exchange_keeps
    | with_reducible apply State.setPort_keeps
    | with_reducible apply State.sendAgain_keeps
    | with_reducible apply State.declareLost_keeps
    | with_reducible apply State.widen_keeps
    | with_reducible apply State.laneAction_keeps
    | dsimp only [Keeps]
    | split

theorem State.controlOrFail_keeps {s0 s : State} (p : Nat) (b : Bytes) (h : Keeps s0 s) : Keeps s0 (State.controlOrFail s p b) := by
  unfold State.controlOrFail
  dsimp only [Keeps]
  repeat' first
    | with_reducible assumption
    | with_reducible apply State.receiveControl_keeps
    | with_reducible apply State.setPort_keeps
    | dsimp only [Keeps]
    | split

theorem State.arrive_keeps {s0 s : State} (k : Packet) (h : Keeps s0 s) : Keeps s0 (State.arrive s k) := by
  unfold State.arrive
  dsimp only [Keeps]
  repeat' first
    | with_reducible assumption
    | dsimp only [Keeps]
    | split

theorem State.finishAll_keeps {s0 s : State} (ds : List Desc) (status : Nat) (h : Keeps s0 s) : Keeps s0 (State.finishAll s ds status) := by
  unfold State.finishAll
  dsimp only [Keeps]
  repeat' first
    | with_reducible assumption
    | with_reducible apply State.finish_keeps
    | with_reducible refine Keeps.foldl (fun _ _ _ => ?_) ?_

theorem State.bumpHeader_keeps {s0 s : State} (f off len : Nat) (h : Keeps s0 s) : Keeps s0 (State.bumpHeader s f off len) := by
  unfold State.bumpHeader
  dsimp only [Keeps]
  repeat' first
    | with_reducible assumption
    | with_reducible apply State.writeNat_keeps
    | dsimp only [Keeps]
    | split

theorem State.decayBlock_keeps {s0 s : State} (base d : Nat) (h : Keeps s0 s) : Keeps s0 (State.decayBlock s base d).1 := by
  unfold State.decayBlock
  dsimp only [Keeps]
  repeat' first
    | with_reducible assumption
    | with_reducible apply State.writeNat_keeps
    | with_reducible refine Keeps.foldl (fun _ _ _ => ?_) ?_
    | with_reducible refine Keeps.foldlFst (fun _ _ _ => ?_) ?_

theorem State.addEntries_keeps {s0 s : State} (base u : Nat) (p : Bytes) (h : Keeps s0 s) : Keeps s0 (State.addEntries s base u p).1 := by
  unfold State.addEntries
  dsimp only [Keeps]
  repeat' first
    | with_reducible assumption
    | with_reducible apply State.writeNat_keeps
    | with_reducible refine Keeps.foldl (fun _ _ _ => ?_) ?_
    | with_reducible refine Keeps.foldlFst (fun _ _ _ => ?_) ?_

theorem State.foldPacket_keeps {s0 s : State} (f : Nat) (r : FactorRec) (p : Bytes) (h : Keeps s0 s) : Keeps s0 (State.foldPacket s f r p).1 := by
  unfold State.foldPacket
  dsimp only [Keeps]
  repeat' first
    | with_reducible assumption
    | with_reducible apply State.bumpHeader_keeps
    | with_reducible apply State.decayBlock_keeps
    | with_reducible apply State.writeNat_keeps
    | with_reducible apply State.addEntries_keeps
    | dsimp only [Keeps]
    | split

theorem State.foldNext_keeps {s0 s : State} (f : Nat) (h : Keeps s0 s) : Keeps s0 (State.foldNext s f).1 := by
  unfold State.foldNext
  dsimp only [Keeps]
  repeat' first
    | with_reducible assumption
    | with_reducible apply State.foldPacket_keeps
    | with_reducible apply State.setFactor_keeps
    | dsimp only [Keeps]
    | split

theorem State.foldBefore_keeps {s0 s : State} (f id fuel : Nat) (h : Keeps s0 s) : Keeps s0 (State.foldBefore s f id fuel).1 := by
  induction fuel generalizing s with
  | zero => exact h
  | succ k ih =>
    unfold State.foldBefore
    split
    · split
      · exact ih (State.foldNext_keeps _ h)
      · exact h
    · exact h

theorem State.writeScratch_keeps {s0 s : State} (e : Nat) (a : List Word) (h : Keeps s0 s) : Keeps s0 (State.writeScratch s e a) := by
  unfold State.writeScratch
  dsimp only [Keeps]
  repeat' first
    | with_reducible assumption
    | with_reducible apply State.writeBytes_keeps
    | dsimp only [Keeps]
    | split

theorem State.endSolve_keeps {s0 s : State} (e : Nat) (v : Solve) (status : Nat) (result : Word) (h : Keeps s0 s) : Keeps s0 (State.endSolve s e v status result) := by
  unfold State.endSolve
  dsimp only [Keeps]
  repeat' first
    | with_reducible assumption
    | with_reducible apply State.setEng_keeps
    | with_reducible apply State.setWork_keeps
    | with_reducible apply State.setHeader_keeps

theorem State.startSolve_keeps {s0 s : State} (e : Nat) (d : Desc) (r : FactorRec) (h : Keeps s0 s) : Keeps s0 (State.startSolve s e d r) := by
  unfold State.startSolve
  dsimp only [Keeps]
  repeat' first
    | with_reducible assumption
    | with_reducible apply State.setHeader_keeps
    | with_reducible apply State.foldBefore_keeps
    | with_reducible apply State.writeScratch_keeps
    | with_reducible apply State.endSolve_keeps
    | with_reducible apply State.setWork_keeps
    | with_reducible apply State.setEng_keeps
    | with_reducible apply State.noteUnderrun_keeps
    | dsimp only [Keeps]
    | split

theorem State.beginSolve_keeps {s0 s : State} (e : Nat) (d : Desc) (h : Keeps s0 s) : Keeps s0 (State.beginSolve s e d) := by
  unfold State.beginSolve
  dsimp only [Keeps]
  repeat' first
    | with_reducible assumption
    | with_reducible apply State.engineErrors_keeps
    | with_reducible apply State.wakeAll_keeps
    | with_reducible apply State.updDesc_keeps
    | with_reducible apply State.setWork_keeps
    | with_reducible apply State.beginUnit_keeps
    | with_reducible apply State.startSolve_keeps
    | with_reducible apply State.meetErrors_keeps
    | dsimp only [Keeps]
    | split

theorem State.reloaded_keeps {s0 s : State} (c u : Nat) (h : Keeps s0 s) : Keeps s0 (State.reloaded s c u) := by
  unfold State.reloaded
  dsimp only [Keeps]
  repeat' first
    | with_reducible assumption
    | with_reducible apply State.calicoDirty_keeps
    | dsimp only [Keeps]
    | split

theorem State.reloadAtWake_keeps {s0 s : State} (d : Nat) (h : Keeps s0 s) : Keeps s0 (State.reloadAtWake s d) := by
  unfold State.reloadAtWake
  dsimp only [Keeps]
  repeat' first
    | with_reducible assumption
    | with_reducible apply State.reloaded_keeps
    | with_reducible refine Keeps.foldl (fun _ _ _ => ?_) ?_

theorem State.wakeEnds_keeps {s0 s : State} (d : Nat) (lost : List (Nat × Nat × Nat)) (h : Keeps s0 s) : Keeps s0 (State.wakeEnds s d lost) := by
  unfold State.wakeEnds
  dsimp only [Keeps]
  repeat' first
    | with_reducible assumption
    | with_reducible apply State.calicoDirty_keeps
    | with_reducible apply State.setDom_keeps
    | with_reducible apply State.loadRemapsBut_keeps
    | with_reducible refine Keeps.foldl (fun _ _ _ => ?_) ?_
    | dsimp only [Keeps]
    | split

theorem State.awake_keeps {s0 s : State} (d : Nat) (lost : List (Nat × Nat × Nat)) (h : Keeps s0 s) : Keeps s0 (State.awake s d lost) := by
  unfold State.awake
  dsimp only [Keeps]
  repeat' first
    | with_reducible assumption
    | with_reducible apply State.reloadAtWake_keeps
    | with_reducible apply State.wakeEnds_keeps
    | with_reducible apply State.bringUp_keeps
    | with_reducible apply State.resume_keeps
    | dsimp only [Keeps]
    | split

theorem State.startEngine_keeps {s0 s : State} (e : Nat) (h : Keeps s0 s) : Keeps s0 (State.startEngine s e) := by
  unfold State.startEngine
  dsimp only [Keeps]
  repeat' first
    | with_reducible assumption
    | dsimp only [Keeps]
    | split

theorem State.startMarks_keeps {s0 s : State} (h : Keeps s0 s) : Keeps s0 (State.startMarks s) := by
  unfold State.startMarks
  generalize List.range 512 = l
  exact Keeps.withRemaps _ (Keeps.foldl (f := State.startEngine) (fun _ e k => State.startEngine_keeps e k)
    (Keeps.foldl (f := State.swapCores) (fun _ n k => State.swapCores_keeps n k)
      (Keeps.foldl (f := State.swapCluster) (fun _ n k => State.swapCluster_keeps n k) h)))

theorem State.scrubFound_keeps {s0 s : State} (u : Nat) (found : Nat × Nat) (h : Keeps s0 s) : Keeps s0 (State.scrubFound s u found) := by
  unfold State.scrubFound
  dsimp only [Keeps]
  repeat' first
    | with_reducible assumption
    | with_reducible apply State.correctedAt_keeps
    | dsimp only [Keeps]
    | split

theorem State.foldHead_keeps {s0 s : State} (f : Nat) (ces : List (Nat × Nat)) (h : Keeps s0 s) : Keeps s0 (State.foldHead s f ces) := by
  unfold State.foldHead
  dsimp only [Keeps]
  repeat' first
    | with_reducible assumption
    | with_reducible apply State.touch_keeps
    | with_reducible apply State.advance_keeps
    | with_reducible apply State.retryLocal_keeps
    | with_reducible apply State.foldNext_keeps
    | with_reducible apply State.corrections_keeps
    | with_reducible apply State.wakeAll_keeps
    | dsimp only [Keeps]
    | split

theorem State.loadTelemetry_keeps {s0 s : State} (p : Nat) (fec margin : List Nat) (h : Keeps s0 s) : Keeps s0 (State.loadTelemetry s p fec margin) := by
  unfold State.loadTelemetry
  dsimp only [Keeps]
  repeat' first
    | with_reducible assumption
    | with_reducible apply State.driftAlarm_keeps
    | with_reducible apply State.setPort_keeps
    | with_reducible refine Keeps.foldl (fun _ _ _ => ?_) ?_

theorem State.payOwed_keeps {s0 s : State} (h : Keeps s0 s) : Keeps s0 (State.payOwed s) := by
  unfold State.payOwed
  dsimp only [Keeps]
  repeat' first
    | with_reducible assumption
    | with_reducible apply State.postRecord_keeps
    | with_reducible refine Keeps.foldl (fun _ _ _ => ?_) ?_

theorem State.loseDomain_keeps {s0 s : State} (d : Nat) (h : Keeps s0 s) : Keeps s0 (State.loseDomain s d) := by
  unfold State.loseDomain
  dsimp only [Keeps]
  repeat' first
    | with_reducible assumption
    | with_reducible apply State.clearSram_keeps
    | dsimp only [Keeps]
    | split

theorem State.asleepNow_keeps {s0 s : State} (d : Nat) (off : Bool) (h : Keeps s0 s) : Keeps s0 (State.asleepNow s d off) := by
  unfold State.asleepNow
  dsimp only [Keeps]
  repeat' first
    | with_reducible assumption
    | with_reducible apply State.setDom_keeps
    | with_reducible apply State.loseDomain_keeps
    | with_reducible apply State.wake_keeps
    | with_reducible apply State.turnOff_keeps
    | with_reducible apply State.settleForce_keeps
    | dsimp only [Keeps]
    | split

theorem State.writeFatalPending_keeps {s0 s : State} (dt : Nat) (h : Keeps s0 s) : Keeps s0 (State.writeFatalPending s dt) := by
  unfold State.writeFatalPending
  dsimp only [Keeps]
  repeat' first
    | with_reducible assumption
    | with_reducible apply State.postRecord_keeps
    | with_reducible refine Keeps.foldl (fun _ _ _ => ?_) ?_
    | dsimp only [Keeps]
    | split

theorem State.moduleReset_keeps {s0 s : State} (last dt : Nat) (completions : Bool) (h : Keeps s0 s) : Keeps s0 (State.moduleReset s last dt completions) := by
  unfold State.moduleReset
  dsimp only [Keeps]
  repeat' first
    | with_reducible assumption
    | with_reducible apply State.powerDown_keeps
    | with_reducible apply State.writeFatalPending_keeps
    | dsimp only [Keeps]
    | split

theorem State.settleBus_keeps {s0 s : State} (h : Keeps s0 s) : Keeps s0 (State.settleBus s) := by
  unfold State.settleBus
  dsimp only [Keeps]
  exact h

theorem State.samplePins_keeps {s0 s : State} (x : Sample) (h : Keeps s0 s) : Keeps s0 (State.samplePins s x) := by
  unfold State.samplePins
  dsimp only [Keeps]
  repeat' first
    | with_reducible assumption
    | with_reducible apply State.moduleReset_keeps
    | with_reducible apply State.settleBus_keeps
    | dsimp only [Keeps]
    | split

theorem State.linkErrors_keeps {s0 s : State} (es : List Nat) (h : Keeps s0 s) : Keeps s0 (State.linkErrors s es) := by
  unfold State.linkErrors
  dsimp only [Keeps]
  repeat' first
    | with_reducible assumption
    | dsimp only [Keeps]
    | split

theorem State.markEngine_keeps {s0 s : State} (r : FaultRec) (h : Keeps s0 s) : Keeps s0 (State.markEngine s r) := by
  unfold State.markEngine
  dsimp only [Keeps]
  repeat' first
    | with_reducible assumption
    | with_reducible apply State.logMark_keeps
    | with_reducible apply State.setMarks_keeps
    | dsimp only [Keeps]
    | split

theorem State.markPseudo_keeps {s0 s : State} (r : FaultRec) (h : Keeps s0 s) : Keeps s0 (State.markPseudo s r) := by
  unfold State.markPseudo
  dsimp only [Keeps]
  repeat' first
    | with_reducible assumption
    | with_reducible apply State.logMark_keeps
    | with_reducible apply State.setMarks_keeps
    | dsimp only [Keeps]
    | split

theorem State.actOn_keeps {s0 s : State} (r : FaultRec) (h : Keeps s0 s) : Keeps s0 (State.actOn s r) := by
  unfold State.actOn
  dsimp only [Keeps]
  repeat' first
    | with_reducible assumption
    | with_reducible apply State.markWord_keeps
    | with_reducible apply State.markCluster_keeps
    | with_reducible apply State.markEngine_keeps
    | with_reducible apply State.markPseudo_keeps
    | dsimp only [Keeps]
    | split

theorem State.actOrDefer_keeps {s0 s : State} (r : FaultRec) (h : Keeps s0 s) : Keeps s0 (State.actOrDefer s r) := by
  unfold State.actOrDefer
  dsimp only [Keeps]
  repeat' first
    | with_reducible assumption
    | with_reducible apply State.actOn_keeps
    | dsimp only [Keeps]
    | split

theorem State.actOnRecords_keeps {s0 s : State} (all : Bool) (h : Keeps s0 s) : Keeps s0 (State.actOnRecords s all) := by
  unfold State.actOnRecords
  dsimp only [Keeps]
  repeat' first
    | with_reducible assumption
    | with_reducible apply State.actOrDefer_keeps
    | with_reducible refine Keeps.foldl (fun _ _ _ => ?_) ?_

theorem State.persistStart_keeps {s0 s : State} (h : Keeps s0 s) : Keeps s0 (State.persistStart s) := by
  have k : Keeps s0 { s with log := { s.log with runTo := s.log.lastSeq } } := ⟨h.1, h.2, h.3⟩
  have kd := State.deferPersist_keeps k
  unfold State.persistStart
  dsimp only
  split
  · exact ⟨kd.1, kd.2, kd.3⟩
  · exact ⟨k.1, k.2, k.3⟩

theorem State.startTiers_keeps {s0 s : State} (h : Keeps s0 s) : Keeps s0 (State.startTiers s) := by
  unfold State.startTiers
  dsimp only [Keeps]
  exact h

theorem State.startStack_keeps {s0 s : State} (k : Nat) (h : Keeps s0 s) : Keeps s0 (State.startStack s k) := by
  unfold State.startStack
  dsimp only [Keeps]
  repeat' first
    | with_reducible assumption
    | with_reducible apply State.removePages_keeps
    | dsimp only [Keeps]
    | split

theorem State.unitStart_keeps {s0 s : State} (h : Keeps s0 s) : Keeps s0 (State.unitStart s) := by
  unfold State.unitStart
  generalize List.range 8 = l
  generalize List.range 11 = m
  exact Keeps.withPhase _ (State.wakeAll_keeps _ (State.startMarks_keeps (State.startTiers_keeps
    (Keeps.foldl (f := State.startStack) (fun _ n k => State.startStack_keeps n k) (State.actOnRecords_keeps _ (State.persistStart_keeps h))))))

theorem State.startUnits_keeps {s0 s : State} (h : Keeps s0 s) : Keeps s0 (State.startUnits s) := by
  unfold State.startUnits
  dsimp only [Keeps]
  repeat' first
    | with_reducible assumption
    | with_reducible apply State.unitStart_keeps
    | dsimp only [Keeps]
    | split

theorem State.slotTicks_keeps {s0 s : State} (h : Keeps s0 s) : Keeps s0 (State.slotTicks s) := by
  unfold State.slotTicks
  dsimp only [Keeps]
  repeat' first
    | with_reducible assumption
    | with_reducible refine Keeps.foldl (fun _ _ _ => ?_) ?_

theorem State.countStall_keeps {s0 s : State} (e : Nat × Nat) (h : Keeps s0 s) : Keeps s0 (State.countStall s e) := by
  unfold State.countStall
  dsimp only [Keeps]
  exact h

theorem State.stageTick_keeps {s0 s : State} (h : Keeps s0 s) : Keeps s0 (State.stageTick s) := by
  unfold State.stageTick
  dsimp only [Keeps]
  repeat' first
    | with_reducible assumption
    | with_reducible apply State.countStall_keeps
    | with_reducible refine Keeps.foldl (fun _ _ _ => ?_) ?_

theorem State.portsTick_keeps {s0 s : State} (h : Keeps s0 s) : Keeps s0 (State.portsTick s) := by
  unfold State.portsTick
  dsimp only [Keeps]
  repeat' first
    | with_reducible assumption
    | with_reducible apply State.portTick_keeps
    | with_reducible refine Keeps.foldl (fun _ _ _ => ?_) ?_

theorem State.coreBranch_keeps {s0 s : State} (k w : Nat) (c : Core) (taken : Bool) (h : Keeps s0 s) : Keeps s0 (State.coreBranch s k w c taken) := by
  unfold State.coreBranch
  dsimp only [Keeps]
  repeat' first
    | with_reducible assumption
    | with_reducible apply State.coreGo_keeps

theorem State.refuseParam_keeps {s0 s : State} (k : Packet) (h : Keeps s0 s) : Keeps s0 (State.refuseParam s k) := by
  unfold State.refuseParam
  dsimp only [Keeps]
  repeat' first
    | with_reducible assumption
    | with_reducible apply State.respond_keeps
    | with_reducible apply State.countStale_keeps

theorem State.admitPacket_keeps {s0 s : State} (k : Packet) (m : Meets) (h : Keeps s0 s) : Keeps s0 (State.admitPacket s k m) := by
  unfold State.admitPacket
  dsimp only [Keeps]
  repeat' first
    | with_reducible assumption
    | with_reducible apply State.servePacket_keeps
    | with_reducible apply State.refuseParam_keeps
    | with_reducible apply State.letIn_keeps
    | dsimp only [Keeps]
    | split

theorem State.take_keeps {s0 s : State} (k : Packet) (h : Keeps s0 s) : Keeps s0 (State.take s k) := by
  unfold State.take
  dsimp only [Keeps]
  exact h

theorem State.clearArrUtil_keeps {s0 s : State} (n : Nat) (h : Keeps s0 s) : Keeps s0 (State.clearArrUtil s n) := by
  unfold State.clearArrUtil
  dsimp only [Keeps]
  repeat' first
    | with_reducible assumption
    | with_reducible apply State.setCluster_keeps

theorem State.regClear_keeps {s0 s : State} (a1 : Reg) (h : Keeps s0 s) : Keeps s0 (State.regClear s a1) := by
  unfold State.regClear
  dsimp only [Keeps]
  repeat' first
    | with_reducible assumption
    | with_reducible apply State.clearArrUtil_keeps
    | with_reducible apply State.setCluster_keeps
    | with_reducible apply State.setDom_keeps
    | with_reducible apply State.setPort_keeps
    | with_reducible apply State.setEng_keeps
    | dsimp only [Keeps]
    | split

theorem State.hostRead_keeps {s0 s : State} (r : Reg) (a2 : Half) (h : Keeps s0 s) : Keeps s0 (State.hostRead s r a2) := by
  unfold State.hostRead
  dsimp only [Keeps]
  repeat' first
    | with_reducible assumption
    | with_reducible apply State.regClear_keeps
    | dsimp only [Keeps]
    | split

theorem State.beginSwitch_keeps {s0 s : State} (vote : Nat) (h : Keeps s0 s) : Keeps s0 (State.beginSwitch s vote) := by
  unfold State.beginSwitch
  dsimp only [Keeps]
  repeat' first
    | with_reducible assumption
    | with_reducible apply State.setWork_keeps
    | with_reducible apply State.tryVote_keeps
    | dsimp only [Keeps]
    | split

theorem State.noteSent_keeps {s0 s : State} (k : Packet) (h : Keeps s0 s) : Keeps s0 (State.noteSent s k) := by
  unfold State.noteSent
  dsimp only [Keeps]
  repeat' first
    | with_reducible assumption
    | dsimp only [Keeps]
    | split

theorem State.startPacket_keeps {s0 s : State} (p i : Nat) (was k : Packet) (h : Keeps s0 s) : Keeps s0 (State.startPacket s p i was k) := by
  unfold State.startPacket
  dsimp only [Keeps]
  repeat' first
    | with_reducible assumption
    | with_reducible apply State.returnSlots_keeps
    | with_reducible apply State.setPort_keeps
    | with_reducible apply State.noteSent_keeps

theorem State.refuseLost_keeps {s0 s : State} (k : Packet) (h : Keeps s0 s) : Keeps s0 (State.refuseLost s k) := by
  unfold State.refuseLost
  dsimp only [Keeps]
  repeat' first
    | with_reducible assumption
    | with_reducible apply State.respond_keeps
    | with_reducible apply State.send_keeps
    | dsimp only [Keeps]
    | split

theorem State.forwardPacket_keeps {s0 s : State} (i : Nat) (h : Keeps s0 s) : Keeps s0 (State.forwardPacket s i) := by
  unfold State.forwardPacket
  dsimp only [Keeps]
  repeat' first
    | with_reducible assumption
    | with_reducible apply State.startPacket_keeps
    | with_reducible apply State.noteSent_keeps
    | with_reducible apply State.returnSlots_keeps
    | with_reducible apply State.advance_keeps
    | with_reducible apply State.refuseLost_keeps
    | dsimp only [Keeps]
    | split

theorem State.fatalReset_keeps {s0 s : State} (dt : Nat) (h : Keeps s0 s) : Keeps s0 (State.fatalReset s dt) := by
  unfold State.fatalReset
  dsimp only [Keeps]
  repeat' first
    | with_reducible assumption
    | with_reducible apply State.moduleReset_keeps
    | dsimp only [Keeps]
    | split

theorem State.issueFrom_keeps {s0 s : State} (k : Nat) (m : OfferMeets) (h : Keeps s0 s) : Keeps s0 (State.issueFrom s k m) := by
  unfold State.issueFrom
  extract_lets c w a x s1 rest o
  have k1 : Keeps s0 s1 := State.corrections_keeps _ _ _ h
  clear_value s1 o
  split
  · exact State.coreFault_keeps _ _ h
  · split
    · exact State.coreFault_keeps _ _ h
    · split
      · rename_i e
        exact State.setCore_keeps _ _ (State.offer_keeps _ _ k1 e)
      · exact State.setCore_keeps _ _ k1

theorem State.copyLines_keeps {s0 s : State} (a b n : Nat) (h : Keeps s0 s) : Keeps s0 (State.copyLines s a b n) := by
  unfold State.copyLines
  dsimp only [Keeps]
  repeat' first
    | with_reducible assumption
    | with_reducible apply State.writeBytes_keeps
    | with_reducible refine Keeps.foldl (fun _ _ _ => ?_) ?_
    | dsimp only [Keeps]
    | split

theorem State.endWriteBack_keeps {s0 s : State} (b : Nat) (h : Keeps s0 s) : Keeps s0 (State.endWriteBack s b) := by
  unfold State.endWriteBack
  dsimp only [Keeps]
  repeat' first
    | with_reducible assumption
    | with_reducible apply State.advance_keeps
    | with_reducible apply State.settleForces_keeps
    | with_reducible apply State.touch_keeps
    | with_reducible apply State.setBkt_keeps
    | with_reducible apply State.copyLines_keeps

theorem State.copyErrors_keeps {s0 s : State} (ces : List (Nat × Nat)) (r : PfRec) (h : Keeps s0 s) : Keeps s0 (State.copyErrors s ces r) := by
  unfold State.copyErrors
  dsimp only [Keeps]
  repeat' first
    | with_reducible assumption
    | with_reducible apply State.corrections_keeps

theorem State.coreRead_keeps {s0 s : State} (k : Nat) (x : CoreAddr) (h : Keeps s0 s) : Keeps s0 (State.coreRead s k x).2 := by
  unfold State.coreRead
  dsimp only [Keeps]
  repeat' first
    | with_reducible assumption
    | with_reducible apply State.clearArrUtil_keeps
    | with_reducible apply State.setCore_keeps
    | dsimp only [Keeps]
    | split

theorem State.loadError_keeps {s0 s : State} (k : Nat) (x : CoreAddr) (ce : Option Nat) (h : Keeps s0 s) : Keeps s0 (State.loadError s k x ce) := by
  unfold State.loadError
  dsimp only [Keeps]
  repeat' first
    | with_reducible assumption
    | with_reducible apply State.corrected_keeps
    | dsimp only [Keeps]
    | split

theorem State.logFatal_keeps {s0 s : State} (e : FaultId × Nat × Nat) (h : Keeps s0 s) : Keeps s0 (State.logFatal s e) := by
  unfold State.logFatal
  dsimp only [Keeps]
  repeat' first
    | with_reducible assumption
    | with_reducible apply State.logFault_keeps

theorem State.logErrors_keeps {s0 s : State} (m : Option MemorySec) (errs : List (FaultId × Nat × Nat)) (h : Keeps s0 s) : Keeps s0 (State.logErrors s m errs) := by
  unfold State.logErrors
  dsimp only [Keeps]
  repeat' first
    | with_reducible assumption
    | with_reducible apply State.logFatal_keeps
    | with_reducible apply State.logFault_keeps
    | with_reducible refine Keeps.foldl (fun _ _ _ => ?_) ?_

theorem State.becomesFatal_keeps {s0 s : State} (errs : List (FaultId × Nat × Nat)) (h : Keeps s0 s) : Keeps s0 (State.becomesFatal s errs) := by
  unfold State.becomesFatal
  dsimp only [Keeps]
  repeat' first
    | with_reducible assumption
    | with_reducible apply State.logErrors_keeps

theorem State.reloadPause_keeps {s0 s : State} (c u : Nat) (h : Keeps s0 s) : Keeps s0 (State.reloadPause s c u) := by
  unfold State.reloadPause
  dsimp only [Keeps]
  repeat' first
    | with_reducible assumption
    | dsimp only [Keeps]
    | split

theorem State.clearDone_keeps {s0 s : State} (h : Keeps s0 s) : Keeps s0 (State.clearDone s) := by
  unfold State.clearDone
  exact State.settleForces_keeps (State.bootEnds_keeps (State.dmkEnd_keeps _ (State.recordEnv_keeps _ (State.touch_keeps _ h))))

theorem State.recordErrors_keeps {s0 s : State} (ces : List (Nat × Nat)) (h : Keeps s0 s) : Keeps s0 (State.recordErrors s ces) := by
  unfold State.recordErrors
  dsimp only [Keeps]
  repeat' first
    | with_reducible assumption
    | with_reducible apply State.corrections_keeps
    | with_reducible refine Keeps.foldl (fun _ _ _ => ?_) ?_

theorem State.retryWord_keeps {s0 s : State} (d : Desc) (lost : Bool) (h : Keeps s0 s) : Keeps s0 (State.retryWord s d lost) := by
  unfold State.retryWord
  dsimp only [Keeps]
  repeat' first
    | with_reducible assumption
    | with_reducible apply State.updDesc_keeps
    | with_reducible apply State.writeBytes_keeps
    | with_reducible apply State.countLoss_keeps
    | dsimp only [Keeps]
    | split

theorem State.beginStart_keeps {s0 s : State} (pr : Probe) (h : Keeps s0 s) : Keeps s0 (State.beginStart s pr) := by
  unfold State.beginStart
  have z : memoryWf [] [] := ⟨List.Pairwise.nil, fun _ hc => absurd hc List.not_mem_nil⟩
  extract_lets s1
  have k : Keeps s0 s1 := ⟨h.1, fun _ => z, h.3⟩
  exact State.checkEnv_keeps (State.setDom_keeps _ _ (State.setDom_keeps _ _ (State.strapClock_keeps _ k)))

theorem State.updOffload_keeps {s0 s : State} (n : Nat) (p : Offload → Bool) (f : Offload → Offload) (h : Keeps s0 s) : Keeps s0 (State.updOffload s n p f) := by
  unfold State.updOffload
  dsimp only [Keeps]
  exact h

theorem State.offIntervalEnd_keeps {s0 s : State} (n : Nat) (o : Offload) (busy : Nat) (h : Keeps s0 s) : Keeps s0 (State.offIntervalEnd s n o busy) := by
  unfold State.offIntervalEnd
  dsimp only [Keeps]
  repeat' first
    | with_reducible assumption
    | with_reducible apply State.countArray_keeps
    | with_reducible apply State.updOffload_keeps

theorem State.forwardBeacon_keeps {s0 s : State} (p : Nat) (x : BeaconData) (h : Keeps s0 s) : Keeps s0 (State.forwardBeacon s p x) := by
  unfold State.forwardBeacon
  dsimp only [Keeps]
  repeat' first
    | with_reducible assumption
    | with_reducible apply State.sendBeacons_keeps
    | dsimp only [Keeps]
    | split

theorem State.settlePrimary_keeps {s0 s : State} (x : BeaconData) (h : Keeps s0 s) : Keeps s0 (State.settlePrimary s x) := by
  unfold State.settlePrimary
  dsimp only [Keeps]
  repeat' first
    | with_reducible assumption
    | dsimp only [Keeps]
    | split

theorem State.writeRoot_keeps {s0 s : State} (v : Solve) (c : Cand) (k status : Nat) (h : Keeps s0 s) : Keeps s0 (State.writeRoot s v c k status).1 := by
  unfold State.writeRoot
  dsimp only [Keeps]
  repeat' first
    | with_reducible assumption
    | with_reducible apply State.writeBytes_keeps
    | with_reducible apply State.writeNat_keeps
    | with_reducible apply State.setHeader_keeps

theorem State.publishSolve_keeps {s0 s : State} (e : Nat) (v0 : Solve) (h : Keeps s0 s) : Keeps s0 (State.publishSolve s e v0) := by
  unfold State.publishSolve
  dsimp only [Keeps]
  repeat' first
    | with_reducible assumption
    | with_reducible apply State.endSolve_keeps
    | with_reducible apply State.setEng_keeps
    | with_reducible apply State.writeRoot_keeps
    | dsimp only [Keeps]
    | split

theorem State.runDeferred_keeps {s0 s : State} (h : Keeps s0 s) : Keeps s0 (State.runDeferred s) := by
  unfold State.runDeferred
  dsimp only [Keeps]
  repeat' first
    | with_reducible assumption
    | with_reducible apply State.persistAll_keeps
    | with_reducible apply State.actOn_keeps
    | with_reducible apply State.writeDirectory_keeps
    | with_reducible apply State.removePages_keeps
    | with_reducible refine Keeps.foldl (fun _ _ _ => ?_) ?_
    | dsimp only [Keeps]
    | split

theorem State.nvReleased_keeps {s0 s : State} (h : Keeps s0 s) : Keeps s0 (State.nvReleased s) := by
  unfold State.nvReleased
  dsimp only [Keeps]
  repeat' first
    | with_reducible assumption
    | with_reducible apply State.runDeferred_keeps
    | dsimp only [Keeps]
    | split

theorem State.intervalEnd_keeps {s0 s : State} (n : Nat) (d : Desc) (busy : Nat) (h : Keeps s0 s) : Keeps s0 (State.intervalEnd s n d busy) := by
  unfold State.intervalEnd
  dsimp only [Keeps]
  repeat' first
    | with_reducible assumption
    | with_reducible apply mmContribution_keeps
    | with_reducible apply State.setWork_keeps
    | with_reducible apply State.countArray_keeps
    | dsimp only [Keeps]
    | split

theorem State.offWritebackEnd_keeps {s0 s : State} (n : Nat) (o : Offload) (busy : Nat) (h : Keeps s0 s) : Keeps s0 (State.offWritebackEnd s n o busy) := by
  unfold State.offWritebackEnd
  dsimp only [Keeps]
  repeat' first
    | with_reducible assumption
    | with_reducible apply State.countArray_keeps
    | with_reducible apply State.setCluster_keeps
    | with_reducible apply State.sendTiles_keeps
    | with_reducible apply State.setEng_keeps
    | dsimp only [Keeps]
    | split

theorem State.gatherAgain_keeps {s0 s : State} (d : Desc) (st : Nat) (retry : List (Nat × Nat × Nat)) (h : Keeps s0 s) : Keeps s0 (State.gatherAgain s d st retry) := by
  unfold State.gatherAgain
  dsimp only [Keeps]
  repeat' first
    | with_reducible assumption
    | with_reducible apply State.setWork_keeps
    | with_reducible apply State.gatherEnd_keeps
    | with_reducible apply State.gatherPiece_keeps
    | with_reducible refine Keeps.foldl (fun _ _ _ => ?_) ?_

theorem State.dropSolves_keeps {s0 s : State} (e : Nat) (h : Keeps s0 s) : Keeps s0 (State.dropSolves s e) := by
  unfold State.dropSolves
  dsimp only [Keeps]
  repeat' first
    | with_reducible assumption
    | with_reducible apply State.setWork_keeps
    | with_reducible refine Keeps.foldl (fun _ _ _ => ?_) ?_

theorem State.offerHeld_keeps {s0 s t : State} (q : Nat) (h : Keeps s0 s) (e : State.offerHeld s q = some t) : Keeps s0 t := by
  unfold State.offerHeld at e
  split at e
  · exact State.offer_keeps _ _ (State.setSq_keeps _ _ h) e
  · cases e

theorem State.tryGrant_keeps {s0 s t : State} (n r : Nat) (h : Keeps s0 s) (e : State.tryGrant s n r = some t) : Keeps s0 t := by
  unfold State.tryGrant at e
  dsimp only at e
  split at e
  · split at e
    · split at e
      · cases e
      · cases e
        exact State.issueFrom_keeps _ _ h
    · cases e
  · obtain ⟨q, -, hq⟩ := List.exists_of_findSome?_eq_some e
    split at hq
    · exact State.offerHeld_keeps _ h hq
    · cases hq

theorem State.fetchFrom_keeps {s0 s : State} (q : Nat) (a2 : HostData) (m : OfferMeets) (h : Keeps s0 s) : Keeps s0 (State.fetchFrom s q a2 m) := by
  unfold State.fetchFrom
  dsimp only [Keeps]
  repeat' first
    | with_reducible assumption
    | with_reducible apply State.takeEntry_keeps
    | with_reducible apply State.fetchFails_keeps
    | with_reducible apply State.fetchDevice_keeps
    | dsimp only [Keeps]
    | split

theorem State.planReload_keeps {s0 s : State} (new : List Nat) (h : Keeps s0 s) : Keeps s0 (State.planReload s new) := by
  unfold State.planReload
  dsimp only [Keeps]
  exact h

theorem State.warmBoot_keeps {s0 s : State} (adoptOk : Bool) (h : Keeps s0 s) : Keeps s0 (State.warmBoot s adoptOk) := by
  unfold State.warmBoot
  dsimp only [Keeps]
  repeat' first
    | with_reducible assumption
    | with_reducible apply State.fatalReset_keeps
    | with_reducible apply State.logFatal_keeps
    | with_reducible apply State.bootFrom_keeps
    | with_reducible apply State.planReload_keeps
    | with_reducible apply State.directoryAfterBoot_keeps
    | with_reducible apply State.attn_keeps
    | with_reducible apply State.calicoDirty_keeps
    | with_reducible apply State.runDeferred_keeps
    | dsimp only [Keeps]
    | split

theorem State.readFlash_keeps {s0 s : State} (h : Keeps s0 s) : Keeps s0 (State.readFlash s) := by
  unfold State.readFlash
  dsimp only [Keeps]
  exact h

theorem State.coldBoot_keeps {s0 s : State} (h : Keeps s0 s) : Keeps s0 (State.coldBoot s) := by
  unfold State.coldBoot
  dsimp only [Keeps]
  repeat' first
    | with_reducible assumption
    | with_reducible apply State.readFlash_keeps
    | with_reducible apply State.bootFrom_keeps
    | with_reducible apply State.directoryAfterBoot_keeps
    | dsimp only [Keeps]
    | split

theorem State.bar2_keeps {s0 s : State} (a n : Nat) (t : State) (h : Keeps s0 s) (h2 : Keeps s0 t) : Keeps s0 (State.bar2 s a n t) := by
  unfold State.bar2
  dsimp only [Keeps]
  repeat' first
    | with_reducible assumption
    | with_reducible apply State.refuse_keeps
    | with_reducible apply State.bar2Refuse_keeps
    | dsimp only [Keeps]
    | split

theorem State.configWrite_keeps {s0 s : State} (off v : Nat) (h : Keeps s0 s) : Keeps s0 (State.configWrite s off v) := by
  unfold State.configWrite
  dsimp only [Keeps]
  exact h

theorem State.retireDone_keeps {s0 s : State} (h : Keeps s0 s) : Keeps s0 (State.retireDone s) := by
  unfold State.retireDone
  dsimp only [Keeps]
  repeat' first
    | with_reducible assumption
    | with_reducible apply State.attn_keeps
    | dsimp only [Keeps]
    | split

theorem State.published_keeps {s0 s : State} (h : Keeps s0 s) : Keeps s0 (State.published s) := by
  unfold State.published
  dsimp only [Keeps]
  repeat' first
    | with_reducible assumption
    | with_reducible apply State.resume_keeps
    | with_reducible apply State.retireDone_keeps
    | with_reducible apply State.attn_keeps

theorem State.sagged_keeps {s0 s : State} (h : Keeps s0 s) : Keeps s0 (State.sagged s) := by
  unfold State.sagged
  dsimp only [Keeps]
  repeat' first
    | with_reducible assumption
    | with_reducible apply State.deferRun_keeps
    | with_reducible apply State.dmkEnd_keeps
    | with_reducible apply State.stageDelta_keeps
    | dsimp only [Keeps]
    | split

theorem State.noteSupply_keeps {s0 t : State} (s : State) (h : Keeps s0 t) (h2 : Keeps s0 s) : Keeps s0 (State.noteSupply t s) := by
  unfold State.noteSupply
  dsimp only [Keeps]
  repeat' first
    | with_reducible assumption
    | with_reducible apply State.attn_keeps
    | dsimp only [Keeps]
    | split

theorem State.followEnv_keeps {s0 s : State} (h : Keeps s0 s) : Keeps s0 (State.followEnv s) := by
  unfold State.followEnv
  dsimp only [Keeps]
  repeat' first
    | with_reducible assumption
    | with_reducible apply State.checkEnv_keeps
    | dsimp only [Keeps]
    | split

theorem State.throttle_keeps {s0 s : State} (h : Keeps s0 s) : Keeps s0 (State.throttle s) := by
  unfold State.throttle
  dsimp only [Keeps]
  repeat' first
    | with_reducible assumption
    | with_reducible apply State.noteSupply_keeps

theorem State.program_keeps {s0 s : State} (w : Nat × Bytes) (h : Keeps s0 s) : Keeps s0 (State.program s w) := by
  unfold State.program
  dsimp only [Keeps]
  exact h

theorem State.lapEnds_keeps {s0 s : State} (u : Nat) (h : Keeps s0 s) : Keeps s0 (State.lapEnds s u) := by
  unfold State.lapEnds
  extract_lets x n late y s1
  have k : Keeps s0 s1 := State.setScrub_keeps _ _ h
  split
  · exact State.attn_keeps _ (State.logFault_keeps _ _ _ _ _ k)
  · exact k

theorem State.scrubGroup_keeps {s0 s : State} (u : Nat) (found : List (Nat × Nat)) (h : Keeps s0 s) : Keeps s0 (State.scrubGroup s u found) := by
  unfold State.scrubGroup
  dsimp only [Keeps]
  repeat' first
    | with_reducible assumption
    | with_reducible apply State.scrubFound_keeps
    | with_reducible apply State.lapEnds_keeps
    | with_reducible apply State.setScrub_keeps
    | with_reducible refine Keeps.foldl (fun _ _ _ => ?_) ?_
    | dsimp only [Keeps]
    | split

theorem State.endRises_keeps {s0 s : State} (h : Keeps s0 s) : Keeps s0 (State.endRises s) := by
  unfold State.endRises
  dsimp only [Keeps]
  repeat' first
    | with_reducible assumption
    | with_reducible apply State.beginFalls_keeps
    | dsimp only [Keeps]
    | split

theorem State.endSlot_keeps {s0 s : State} (r waited : Nat) (h : Keeps s0 s) : Keeps s0 (State.endSlot s r waited) := by
  unfold State.endSlot
  dsimp only [Keeps]
  repeat' first
    | with_reducible assumption
    | with_reducible apply State.resume_keeps
    | dsimp only [Keeps]
    | split

theorem State.endPrefetch_keeps {s0 s : State} (b : Nat) (h : Keeps s0 s) : Keeps s0 (State.endPrefetch s b) := by
  unfold State.endPrefetch
  dsimp only [Keeps]
  repeat' first
    | with_reducible assumption
    | with_reducible apply State.advance_keeps
    | with_reducible apply State.settleForces_keeps
    | with_reducible apply State.touch_keeps
    | with_reducible apply State.setBkt_keeps
    | with_reducible apply State.copyLines_keeps

theorem State.acceptFlit_keeps {s0 s : State} (p : Nat) (b : Bytes) (h : Keeps s0 s) : Keeps s0 (State.acceptFlit s p b) := by
  unfold State.acceptFlit
  dsimp only [Keeps]
  repeat' first
    | with_reducible assumption
    | with_reducible apply State.arrive_keeps
    | with_reducible apply State.setPort_keeps
    | dsimp only [Keeps]
    | split

theorem State.receiveData_keeps {s0 s : State} (p : Nat) (b : Bytes) (bad : Option (Nat × Nat)) (h : Keeps s0 s) : Keeps s0 (State.receiveData s p b bad) := by
  unfold State.receiveData
  dsimp only [Keeps]
  repeat' first
    | with_reducible assumption
    | with_reducible apply State.setPort_keeps
    | with_reducible apply State.acceptFlit_keeps
    | dsimp only [Keeps]
    | split

theorem State.rotate_keeps {s0 s : State} (p : Nat) (h : Keeps s0 s) : Keeps s0 (State.rotate s p) := by
  unfold State.rotate
  dsimp only [Keeps]
  repeat' first
    | with_reducible assumption
    | with_reducible apply State.queueAction_keeps
    | with_reducible apply State.setPort_keeps
    | dsimp only [Keeps]
    | split

theorem State.learnLoss_keeps {s0 s : State} (link : Nat × Nat) (t : Nat) (h : Keeps s0 s) : Keeps s0 (State.learnLoss s link t) := by
  unfold State.learnLoss
  dsimp only [Keeps]
  repeat' first
    | with_reducible assumption
    | with_reducible apply State.failLink_keeps
    | with_reducible apply State.noteLoss_keeps
    | dsimp only [Keeps]
    | split

theorem State.seeFault_keeps {s0 s : State} (f : FaultId) (origin : Nat) (h : Keeps s0 s) : Keeps s0 (State.seeFault s f origin) := by
  unfold State.seeFault
  dsimp only [Keeps]
  exact h

theorem State.releaseNext_keeps {s0 s : State} (ces : List (Nat × Nat)) (h : Keeps s0 s) : Keeps s0 (State.releaseNext s ces) := by
  unfold State.releaseNext
  dsimp only [Keeps]
  repeat' first
    | with_reducible assumption
    | with_reducible apply State.advance_keeps
    | with_reducible apply State.release_keeps
    | with_reducible apply State.wake_keeps
    | dsimp only [Keeps]
    | split

/-- A next state that an outcome answers keeps what `s` has. -/
def OutKeeps (s : State) (o : Out) : Prop := ∀ t, o = .next t → Keeps s t

theorem OutKeeps.next {s t : State} (h : Keeps s t) : OutKeeps s (.next t) := fun _ e => by
  cases e
  exact h

theorem OutKeeps.fault {s : State} (f : Fault) : OutKeeps s (.fault f) := fun _ e => by cases e

theorem guarded_keeps {s0 s : State} (ok : Bool) (h : Keeps s0 s) : OutKeeps s0 (guarded ok s) := by
  unfold guarded
  split
  · exact .next h
  · exact .fault _

theorem event_keeps {s0 s t : State} (c : Bool) (h : Keeps s0 s) (k : Keeps s0 t) : OutKeeps s0 (event c s t) := by
  unfold event
  split
  · exact .next k
  · exact .next h

theorem flannelEvent_keeps {s0 s t : State} (c : Bool) (h : Keeps s0 s) (k : Keeps s0 t) : OutKeeps s0 (flannelEvent c s t) :=
  event_keeps _ h k

theorem offerExec_keeps {s0 s : State} (o : Offer) (isRow : Bool) (h : Keeps s0 s) : OutKeeps s0 (offerExec o isRow s) :=
  guarded_keeps _ (State.offerRow_keeps _ _ h)

theorem deliver_keeps {s0 s : State} (isRow : Bool) (k : Packet) (m : Meets) (h : Keeps s0 s) : OutKeeps s0 (deliver isRow k m s) := by
  unfold deliver
  split
  · exact .fault _
  · exact event_keeps _ h (State.returnSlots_keeps (State.advance_keeps (State.admitPacket_keeps _ _ (State.take_keeps _ h))))

/-- An operation of a core keeps what its effect keeps. -/
theorem State.coreOp_keeps {s0 s : State} (k op : Nat) (f : (w : Nat) → Core → State) (h : Keeps s0 s) (hf : ∀ w c, Keeps s0 (f w c)) :
    OutKeeps s0 (s.coreOp k op f) := by
  unfold State.coreOp
  refine guarded_keeps _ ?_
  dsimp only
  split
  · exact h
  · split
    · exact State.coreFault_keeps _ _ h
    · split
      · exact h
      · split
        · exact State.coreFault_keeps _ _ h
        · exact hf _ _

/-- An access to BAR0 keeps what its effect on a register keeps. -/
theorem State.barOn_keeps {s0 s : State} (off : Nat) (p : Half) (f : Nat → Half → State) (h : Keeps s0 s) (hf : ∀ o q, Keeps s0 (f o q)) :
    Keeps s0 (s.barOn off p f) := by
  unfold State.barOn
  split
  · exact hf _ _
  · exact State.refuse_keeps _ _ h
end Sys2Proof.Machine
end

