-- ==== Sys2Proof/Laws/State.lean ====
section
/-! SUPPORT. Fields after each update: every field that an update does not write reads as before. -/

namespace Sys2Proof.Machine

@[simp] theorem State.setCluster_pending (s : State) (n : Nat) (c : Cluster) : (s.setCluster n c).pending = s.pending := rfl
@[simp] theorem State.setCluster_draws (s : State) (n : Nat) (c : Cluster) : (s.setCluster n c).draws = s.draws := rfl
@[simp] theorem State.setCluster_dramGen (s : State) (n : Nat) (c : Cluster) : (s.setCluster n c).dramGen = s.dramGen := rfl
@[simp] theorem State.setCluster_nextId (s : State) (n : Nat) (c : Cluster) : (s.setCluster n c).nextId = s.nextId := rfl
@[simp] theorem State.setCluster_nextTxn (s : State) (n : Nat) (c : Cluster) : (s.setCluster n c).nextTxn = s.nextTxn := rfl
@[simp] theorem State.setCluster_flannelOn (s : State) (n : Nat) (c : Cluster) : (s.setCluster n c).flannelOn = s.flannelOn := rfl
@[simp] theorem State.setCluster_up (s : State) (n : Nat) (c : Cluster) : (s.setCluster n c).up = s.up := rfl
@[simp] theorem State.setCluster_mpRunning (s : State) (n : Nat) (c : Cluster) : (s.setCluster n c).mpRunning = s.mpRunning := rfl
@[simp] theorem State.setCluster_probe (s : State) (n : Nat) (c : Cluster) : (s.setCluster n c).probe = s.probe := rfl
@[simp] theorem State.setCluster_startPhase (s : State) (n : Nat) (c : Cluster) : (s.setCluster n c).startPhase = s.startPhase := rfl
@[simp] theorem State.setCluster_vin (s : State) (n : Nat) (c : Cluster) : (s.setCluster n c).vin = s.vin := rfl
@[simp] theorem State.setCluster_pin (s : State) (n : Nat) (c : Cluster) : (s.setCluster n c).pin = s.pin := rfl
@[simp] theorem State.setCluster_iin (s : State) (n : Nat) (c : Cluster) : (s.setCluster n c).iin = s.iin := rfl
@[simp] theorem State.setCluster_nv (s : State) (n : Nat) (c : Cluster) : (s.setCluster n c).nv = s.nv := rfl
@[simp] theorem State.setCluster_lowSag (s : State) (n : Nat) (c : Cluster) : (s.setCluster n c).lowSag = s.lowSag := rfl
@[simp] theorem State.setCluster_lowTherm (s : State) (n : Nat) (c : Cluster) : (s.setCluster n c).lowTherm = s.lowTherm := rfl
@[simp] theorem State.setCluster_thermAlert (s : State) (n : Nat) (c : Cluster) : (s.setCluster n c).thermAlert = s.thermAlert := rfl
@[simp] theorem State.setCluster_throttled (s : State) (n : Nat) (c : Cluster) : (s.setCluster n c).throttled = s.throttled := rfl
@[simp] theorem State.setCluster_throttles (s : State) (n : Nat) (c : Cluster) : (s.setCluster n c).throttles = s.throttles := rfl
@[simp] theorem State.setCluster_powerRun (s : State) (n : Nat) (c : Cluster) : (s.setCluster n c).powerRun = s.powerRun := rfl
@[simp] theorem State.setCluster_calmRun (s : State) (n : Nat) (c : Cluster) : (s.setCluster n c).calmRun = s.calmRun := rfl
@[simp] theorem State.setCluster_refRun (s : State) (n : Nat) (c : Cluster) : (s.setCluster n c).refRun = s.refRun := rfl
@[simp] theorem State.setCluster_refclkLost (s : State) (n : Nat) (c : Cluster) : (s.setCluster n c).refclkLost = s.refclkLost := rfl
@[simp] theorem State.setCluster_onOsc (s : State) (n : Nat) (c : Cluster) : (s.setCluster n c).onOsc = s.onOsc := rfl
@[simp] theorem State.setCluster_perstN (s : State) (n : Nat) (c : Cluster) : (s.setCluster n c).perstN = s.perstN := rfl
@[simp] theorem State.setCluster_modResetN (s : State) (n : Nat) (c : Cluster) : (s.setCluster n c).modResetN = s.modResetN := rfl
@[simp] theorem State.setCluster_vinPg (s : State) (n : Nat) (c : Cluster) : (s.setCluster n c).vinPg = s.vinPg := rfl
@[simp] theorem State.setCluster_pinSample (s : State) (n : Nat) (c : Cluster) : (s.setCluster n c).pinSample = s.pinSample := rfl
@[simp] theorem State.setCluster_xspiOwn (s : State) (n : Nat) (c : Cluster) : (s.setCluster n c).xspiOwn = s.xspiOwn := rfl
@[simp] theorem State.setCluster_flashHeld (s : State) (n : Nat) (c : Cluster) : (s.setCluster n c).flashHeld = s.flashHeld := rfl
@[simp] theorem State.setCluster_tick (s : State) (n : Nat) (c : Cluster) : (s.setCluster n c).tick = s.tick := rfl
@[simp] theorem State.setCluster_resetEnds (s : State) (n : Nat) (c : Cluster) : (s.setCluster n c).resetEnds = s.resetEnds := rfl
@[simp] theorem State.setCluster_resetNode (s : State) (n : Nat) (c : Cluster) : (s.setCluster n c).resetNode = s.resetNode := rfl
@[simp] theorem State.setCluster_resetMemory (s : State) (n : Nat) (c : Cluster) : (s.setCluster n c).resetMemory = s.resetMemory := rfl
@[simp] theorem State.setCluster_startedAt (s : State) (n : Nat) (c : Cluster) : (s.setCluster n c).startedAt = s.startedAt := rfl
@[simp] theorem State.setCluster_frac (s : State) (n : Nat) (c : Cluster) : (s.setCluster n c).frac = s.frac := rfl
@[simp] theorem State.setCluster_stepped (s : State) (n : Nat) (c : Cluster) : (s.setCluster n c).stepped = s.stepped := rfl
@[simp] theorem State.setCluster_everLocked (s : State) (n : Nat) (c : Cluster) : (s.setCluster n c).everLocked = s.everLocked := rfl
@[simp] theorem State.setCluster_bootCount (s : State) (n : Nat) (c : Cluster) : (s.setCluster n c).bootCount = s.bootCount := rfl
@[simp] theorem State.setCluster_log (s : State) (n : Nat) (c : Cluster) : (s.setCluster n c).log = s.log := rfl
@[simp] theorem State.setCluster_handover (s : State) (n : Nat) (c : Cluster) : (s.setCluster n c).handover = s.handover := rfl
@[simp] theorem State.setCluster_flash (s : State) (n : Nat) (c : Cluster) : (s.setCluster n c).flash = s.flash := rfl
@[simp] theorem State.setCluster_deferred (s : State) (n : Nat) (c : Cluster) : (s.setCluster n c).deferred = s.deferred := rfl
@[simp] theorem State.setCluster_fw (s : State) (n : Nat) (c : Cluster) : (s.setCluster n c).fw = s.fw := rfl
@[simp] theorem State.setCluster_calico (s : State) (n : Nat) (c : Cluster) : (s.setCluster n c).calico = s.calico := rfl
@[simp] theorem State.setCluster_swapped (s : State) (n : Nat) (c : Cluster) : (s.setCluster n c).swapped = s.swapped := rfl
@[simp] theorem State.setCluster_absent (s : State) (n : Nat) (c : Cluster) : (s.setCluster n c).absent = s.absent := rfl
@[simp] theorem State.setCluster_spareCores (s : State) (n : Nat) (c : Cluster) : (s.setCluster n c).spareCores = s.spareCores := rfl
@[simp] theorem State.setCluster_remaps (s : State) (n : Nat) (c : Cluster) : (s.setCluster n c).remaps = s.remaps := rfl
@[simp] theorem State.setCluster_engineMap (s : State) (n : Nat) (c : Cluster) : (s.setCluster n c).engineMap = s.engineMap := rfl
@[simp] theorem State.setCluster_nearStacks (s : State) (n : Nat) (c : Cluster) : (s.setCluster n c).nearStacks = s.nearStacks := rfl
@[simp] theorem State.setCluster_tiers (s : State) (n : Nat) (c : Cluster) : (s.setCluster n c).tiers = s.tiers := rfl
@[simp] theorem State.setCluster_recal (s : State) (n : Nat) (c : Cluster) : (s.setCluster n c).recal = s.recal := rfl
@[simp] theorem State.setCluster_domains (s : State) (n : Nat) (c : Cluster) : (s.setCluster n c).domains = s.domains := rfl
@[simp] theorem State.setCluster_env (s : State) (n : Nat) (c : Cluster) : (s.setCluster n c).env = s.env := rfl
@[simp] theorem State.setCluster_hif (s : State) (n : Nat) (c : Cluster) : (s.setCluster n c).hif = s.hif := rfl
@[simp] theorem State.setCluster_sqs (s : State) (n : Nat) (c : Cluster) : (s.setCluster n c).sqs = s.sqs := rfl
@[simp] theorem State.setCluster_cqs (s : State) (n : Nat) (c : Cluster) : (s.setCluster n c).cqs = s.cqs := rfl
@[simp] theorem State.setCluster_lastServed (s : State) (n : Nat) (c : Cluster) : (s.setCluster n c).lastServed = s.lastServed := rfl
@[simp] theorem State.setCluster_descs (s : State) (n : Nat) (c : Cluster) : (s.setCluster n c).descs = s.descs := rfl
@[simp] theorem State.setCluster_txns (s : State) (n : Nat) (c : Cluster) : (s.setCluster n c).txns = s.txns := rfl
@[simp] theorem State.setCluster_laneSeeds (s : State) (n : Nat) (c : Cluster) : (s.setCluster n c).laneSeeds = s.laneSeeds := rfl
@[simp] theorem State.setCluster_mem (s : State) (n : Nat) (c : Cluster) : (s.setCluster n c).mem = s.mem := rfl
@[simp] theorem State.setCluster_zeroed (s : State) (n : Nat) (c : Cluster) : (s.setCluster n c).zeroed = s.zeroed := rfl
@[simp] theorem State.setCluster_scrub (s : State) (n : Nat) (c : Cluster) : (s.setCluster n c).scrub = s.scrub := rfl
@[simp] theorem State.setCluster_scrLimits (s : State) (n : Nat) (c : Cluster) : (s.setCluster n c).scrLimits = s.scrLimits := rfl
@[simp] theorem State.setCluster_dmk (s : State) (n : Nat) (c : Cluster) : (s.setCluster n c).dmk = s.dmk := rfl
@[simp] theorem State.setCluster_seq (s : State) (n : Nat) (c : Cluster) : (s.setCluster n c).seq = s.seq := rfl
@[simp] theorem State.setCluster_retire (s : State) (n : Nat) (c : Cluster) : (s.setCluster n c).retire = s.retire := rfl
@[simp] theorem State.setCluster_stash (s : State) (n : Nat) (c : Cluster) : (s.setCluster n c).stash = s.stash := rfl
@[simp] theorem State.setCluster_engines (s : State) (n : Nat) (c : Cluster) : (s.setCluster n c).engines = s.engines := rfl
@[simp] theorem State.setCluster_offloads (s : State) (n : Nat) (c : Cluster) : (s.setCluster n c).offloads = s.offloads := rfl
@[simp] theorem State.setCluster_factors (s : State) (n : Nat) (c : Cluster) : (s.setCluster n c).factors = s.factors := rfl
@[simp] theorem State.setCluster_grad (s : State) (n : Nat) (c : Cluster) : (s.setCluster n c).grad = s.grad := rfl
@[simp] theorem State.setCluster_shard (s : State) (n : Nat) (c : Cluster) : (s.setCluster n c).shard = s.shard := rfl
@[simp] theorem State.setCluster_ports (s : State) (n : Nat) (c : Cluster) : (s.setCluster n c).ports = s.ports := rfl
@[simp] theorem State.setCluster_lostLinks (s : State) (n : Nat) (c : Cluster) : (s.setCluster n c).lostLinks = s.lostLinks := rfl
@[simp] theorem State.setCluster_arrived (s : State) (n : Nat) (c : Cluster) : (s.setCluster n c).arrived = s.arrived := rfl
@[simp] theorem State.setCluster_egress (s : State) (n : Nat) (c : Cluster) : (s.setCluster n c).egress = s.egress := rfl

@[simp] theorem State.setCore_pending (s : State) (k : Nat) (c : Core) : (s.setCore k c).pending = s.pending := rfl
@[simp] theorem State.setCore_draws (s : State) (k : Nat) (c : Core) : (s.setCore k c).draws = s.draws := rfl
@[simp] theorem State.setCore_dramGen (s : State) (k : Nat) (c : Core) : (s.setCore k c).dramGen = s.dramGen := rfl
@[simp] theorem State.setCore_nextId (s : State) (k : Nat) (c : Core) : (s.setCore k c).nextId = s.nextId := rfl
@[simp] theorem State.setCore_nextTxn (s : State) (k : Nat) (c : Core) : (s.setCore k c).nextTxn = s.nextTxn := rfl
@[simp] theorem State.setCore_flannelOn (s : State) (k : Nat) (c : Core) : (s.setCore k c).flannelOn = s.flannelOn := rfl
@[simp] theorem State.setCore_up (s : State) (k : Nat) (c : Core) : (s.setCore k c).up = s.up := rfl
@[simp] theorem State.setCore_mpRunning (s : State) (k : Nat) (c : Core) : (s.setCore k c).mpRunning = s.mpRunning := rfl
@[simp] theorem State.setCore_probe (s : State) (k : Nat) (c : Core) : (s.setCore k c).probe = s.probe := rfl
@[simp] theorem State.setCore_startPhase (s : State) (k : Nat) (c : Core) : (s.setCore k c).startPhase = s.startPhase := rfl
@[simp] theorem State.setCore_vin (s : State) (k : Nat) (c : Core) : (s.setCore k c).vin = s.vin := rfl
@[simp] theorem State.setCore_pin (s : State) (k : Nat) (c : Core) : (s.setCore k c).pin = s.pin := rfl
@[simp] theorem State.setCore_iin (s : State) (k : Nat) (c : Core) : (s.setCore k c).iin = s.iin := rfl
@[simp] theorem State.setCore_nv (s : State) (k : Nat) (c : Core) : (s.setCore k c).nv = s.nv := rfl
@[simp] theorem State.setCore_lowSag (s : State) (k : Nat) (c : Core) : (s.setCore k c).lowSag = s.lowSag := rfl
@[simp] theorem State.setCore_lowTherm (s : State) (k : Nat) (c : Core) : (s.setCore k c).lowTherm = s.lowTherm := rfl
@[simp] theorem State.setCore_thermAlert (s : State) (k : Nat) (c : Core) : (s.setCore k c).thermAlert = s.thermAlert := rfl
@[simp] theorem State.setCore_throttled (s : State) (k : Nat) (c : Core) : (s.setCore k c).throttled = s.throttled := rfl
@[simp] theorem State.setCore_throttles (s : State) (k : Nat) (c : Core) : (s.setCore k c).throttles = s.throttles := rfl
@[simp] theorem State.setCore_powerRun (s : State) (k : Nat) (c : Core) : (s.setCore k c).powerRun = s.powerRun := rfl
@[simp] theorem State.setCore_calmRun (s : State) (k : Nat) (c : Core) : (s.setCore k c).calmRun = s.calmRun := rfl
@[simp] theorem State.setCore_refRun (s : State) (k : Nat) (c : Core) : (s.setCore k c).refRun = s.refRun := rfl
@[simp] theorem State.setCore_refclkLost (s : State) (k : Nat) (c : Core) : (s.setCore k c).refclkLost = s.refclkLost := rfl
@[simp] theorem State.setCore_onOsc (s : State) (k : Nat) (c : Core) : (s.setCore k c).onOsc = s.onOsc := rfl
@[simp] theorem State.setCore_perstN (s : State) (k : Nat) (c : Core) : (s.setCore k c).perstN = s.perstN := rfl
@[simp] theorem State.setCore_modResetN (s : State) (k : Nat) (c : Core) : (s.setCore k c).modResetN = s.modResetN := rfl
@[simp] theorem State.setCore_vinPg (s : State) (k : Nat) (c : Core) : (s.setCore k c).vinPg = s.vinPg := rfl
@[simp] theorem State.setCore_pinSample (s : State) (k : Nat) (c : Core) : (s.setCore k c).pinSample = s.pinSample := rfl
@[simp] theorem State.setCore_xspiOwn (s : State) (k : Nat) (c : Core) : (s.setCore k c).xspiOwn = s.xspiOwn := rfl
@[simp] theorem State.setCore_flashHeld (s : State) (k : Nat) (c : Core) : (s.setCore k c).flashHeld = s.flashHeld := rfl
@[simp] theorem State.setCore_tick (s : State) (k : Nat) (c : Core) : (s.setCore k c).tick = s.tick := rfl
@[simp] theorem State.setCore_resetEnds (s : State) (k : Nat) (c : Core) : (s.setCore k c).resetEnds = s.resetEnds := rfl
@[simp] theorem State.setCore_resetNode (s : State) (k : Nat) (c : Core) : (s.setCore k c).resetNode = s.resetNode := rfl
@[simp] theorem State.setCore_resetMemory (s : State) (k : Nat) (c : Core) : (s.setCore k c).resetMemory = s.resetMemory := rfl
@[simp] theorem State.setCore_startedAt (s : State) (k : Nat) (c : Core) : (s.setCore k c).startedAt = s.startedAt := rfl
@[simp] theorem State.setCore_frac (s : State) (k : Nat) (c : Core) : (s.setCore k c).frac = s.frac := rfl
@[simp] theorem State.setCore_stepped (s : State) (k : Nat) (c : Core) : (s.setCore k c).stepped = s.stepped := rfl
@[simp] theorem State.setCore_everLocked (s : State) (k : Nat) (c : Core) : (s.setCore k c).everLocked = s.everLocked := rfl
@[simp] theorem State.setCore_bootCount (s : State) (k : Nat) (c : Core) : (s.setCore k c).bootCount = s.bootCount := rfl
@[simp] theorem State.setCore_log (s : State) (k : Nat) (c : Core) : (s.setCore k c).log = s.log := rfl
@[simp] theorem State.setCore_handover (s : State) (k : Nat) (c : Core) : (s.setCore k c).handover = s.handover := rfl
@[simp] theorem State.setCore_flash (s : State) (k : Nat) (c : Core) : (s.setCore k c).flash = s.flash := rfl
@[simp] theorem State.setCore_deferred (s : State) (k : Nat) (c : Core) : (s.setCore k c).deferred = s.deferred := rfl
@[simp] theorem State.setCore_fw (s : State) (k : Nat) (c : Core) : (s.setCore k c).fw = s.fw := rfl
@[simp] theorem State.setCore_calico (s : State) (k : Nat) (c : Core) : (s.setCore k c).calico = s.calico := rfl
@[simp] theorem State.setCore_swapped (s : State) (k : Nat) (c : Core) : (s.setCore k c).swapped = s.swapped := rfl
@[simp] theorem State.setCore_absent (s : State) (k : Nat) (c : Core) : (s.setCore k c).absent = s.absent := rfl
@[simp] theorem State.setCore_spareCores (s : State) (k : Nat) (c : Core) : (s.setCore k c).spareCores = s.spareCores := rfl
@[simp] theorem State.setCore_remaps (s : State) (k : Nat) (c : Core) : (s.setCore k c).remaps = s.remaps := rfl
@[simp] theorem State.setCore_engineMap (s : State) (k : Nat) (c : Core) : (s.setCore k c).engineMap = s.engineMap := rfl
@[simp] theorem State.setCore_nearStacks (s : State) (k : Nat) (c : Core) : (s.setCore k c).nearStacks = s.nearStacks := rfl
@[simp] theorem State.setCore_tiers (s : State) (k : Nat) (c : Core) : (s.setCore k c).tiers = s.tiers := rfl
@[simp] theorem State.setCore_recal (s : State) (k : Nat) (c : Core) : (s.setCore k c).recal = s.recal := rfl
@[simp] theorem State.setCore_domains (s : State) (k : Nat) (c : Core) : (s.setCore k c).domains = s.domains := rfl
@[simp] theorem State.setCore_env (s : State) (k : Nat) (c : Core) : (s.setCore k c).env = s.env := rfl
@[simp] theorem State.setCore_hif (s : State) (k : Nat) (c : Core) : (s.setCore k c).hif = s.hif := rfl
@[simp] theorem State.setCore_sqs (s : State) (k : Nat) (c : Core) : (s.setCore k c).sqs = s.sqs := rfl
@[simp] theorem State.setCore_cqs (s : State) (k : Nat) (c : Core) : (s.setCore k c).cqs = s.cqs := rfl
@[simp] theorem State.setCore_lastServed (s : State) (k : Nat) (c : Core) : (s.setCore k c).lastServed = s.lastServed := rfl
@[simp] theorem State.setCore_descs (s : State) (k : Nat) (c : Core) : (s.setCore k c).descs = s.descs := rfl
@[simp] theorem State.setCore_txns (s : State) (k : Nat) (c : Core) : (s.setCore k c).txns = s.txns := rfl
@[simp] theorem State.setCore_laneSeeds (s : State) (k : Nat) (c : Core) : (s.setCore k c).laneSeeds = s.laneSeeds := rfl
@[simp] theorem State.setCore_mem (s : State) (k : Nat) (c : Core) : (s.setCore k c).mem = s.mem := rfl
@[simp] theorem State.setCore_zeroed (s : State) (k : Nat) (c : Core) : (s.setCore k c).zeroed = s.zeroed := rfl
@[simp] theorem State.setCore_scrub (s : State) (k : Nat) (c : Core) : (s.setCore k c).scrub = s.scrub := rfl
@[simp] theorem State.setCore_scrLimits (s : State) (k : Nat) (c : Core) : (s.setCore k c).scrLimits = s.scrLimits := rfl
@[simp] theorem State.setCore_dmk (s : State) (k : Nat) (c : Core) : (s.setCore k c).dmk = s.dmk := rfl
@[simp] theorem State.setCore_seq (s : State) (k : Nat) (c : Core) : (s.setCore k c).seq = s.seq := rfl
@[simp] theorem State.setCore_retire (s : State) (k : Nat) (c : Core) : (s.setCore k c).retire = s.retire := rfl
@[simp] theorem State.setCore_stash (s : State) (k : Nat) (c : Core) : (s.setCore k c).stash = s.stash := rfl
@[simp] theorem State.setCore_engines (s : State) (k : Nat) (c : Core) : (s.setCore k c).engines = s.engines := rfl
@[simp] theorem State.setCore_offloads (s : State) (k : Nat) (c : Core) : (s.setCore k c).offloads = s.offloads := rfl
@[simp] theorem State.setCore_factors (s : State) (k : Nat) (c : Core) : (s.setCore k c).factors = s.factors := rfl
@[simp] theorem State.setCore_grad (s : State) (k : Nat) (c : Core) : (s.setCore k c).grad = s.grad := rfl
@[simp] theorem State.setCore_shard (s : State) (k : Nat) (c : Core) : (s.setCore k c).shard = s.shard := rfl
@[simp] theorem State.setCore_ports (s : State) (k : Nat) (c : Core) : (s.setCore k c).ports = s.ports := rfl
@[simp] theorem State.setCore_lostLinks (s : State) (k : Nat) (c : Core) : (s.setCore k c).lostLinks = s.lostLinks := rfl
@[simp] theorem State.setCore_arrived (s : State) (k : Nat) (c : Core) : (s.setCore k c).arrived = s.arrived := rfl
@[simp] theorem State.setCore_egress (s : State) (k : Nat) (c : Core) : (s.setCore k c).egress = s.egress := rfl

@[simp] theorem State.setDom_pending (s : State) (d : Nat) (x : Domain) : (s.setDom d x).pending = s.pending := rfl
@[simp] theorem State.setDom_draws (s : State) (d : Nat) (x : Domain) : (s.setDom d x).draws = s.draws := rfl
@[simp] theorem State.setDom_dramGen (s : State) (d : Nat) (x : Domain) : (s.setDom d x).dramGen = s.dramGen := rfl
@[simp] theorem State.setDom_nextId (s : State) (d : Nat) (x : Domain) : (s.setDom d x).nextId = s.nextId := rfl
@[simp] theorem State.setDom_nextTxn (s : State) (d : Nat) (x : Domain) : (s.setDom d x).nextTxn = s.nextTxn := rfl
@[simp] theorem State.setDom_flannelOn (s : State) (d : Nat) (x : Domain) : (s.setDom d x).flannelOn = s.flannelOn := rfl
@[simp] theorem State.setDom_up (s : State) (d : Nat) (x : Domain) : (s.setDom d x).up = s.up := rfl
@[simp] theorem State.setDom_mpRunning (s : State) (d : Nat) (x : Domain) : (s.setDom d x).mpRunning = s.mpRunning := rfl
@[simp] theorem State.setDom_probe (s : State) (d : Nat) (x : Domain) : (s.setDom d x).probe = s.probe := rfl
@[simp] theorem State.setDom_startPhase (s : State) (d : Nat) (x : Domain) : (s.setDom d x).startPhase = s.startPhase := rfl
@[simp] theorem State.setDom_vin (s : State) (d : Nat) (x : Domain) : (s.setDom d x).vin = s.vin := rfl
@[simp] theorem State.setDom_pin (s : State) (d : Nat) (x : Domain) : (s.setDom d x).pin = s.pin := rfl
@[simp] theorem State.setDom_iin (s : State) (d : Nat) (x : Domain) : (s.setDom d x).iin = s.iin := rfl
@[simp] theorem State.setDom_nv (s : State) (d : Nat) (x : Domain) : (s.setDom d x).nv = s.nv := rfl
@[simp] theorem State.setDom_lowSag (s : State) (d : Nat) (x : Domain) : (s.setDom d x).lowSag = s.lowSag := rfl
@[simp] theorem State.setDom_lowTherm (s : State) (d : Nat) (x : Domain) : (s.setDom d x).lowTherm = s.lowTherm := rfl
@[simp] theorem State.setDom_thermAlert (s : State) (d : Nat) (x : Domain) : (s.setDom d x).thermAlert = s.thermAlert := rfl
@[simp] theorem State.setDom_throttled (s : State) (d : Nat) (x : Domain) : (s.setDom d x).throttled = s.throttled := rfl
@[simp] theorem State.setDom_throttles (s : State) (d : Nat) (x : Domain) : (s.setDom d x).throttles = s.throttles := rfl
@[simp] theorem State.setDom_powerRun (s : State) (d : Nat) (x : Domain) : (s.setDom d x).powerRun = s.powerRun := rfl
@[simp] theorem State.setDom_calmRun (s : State) (d : Nat) (x : Domain) : (s.setDom d x).calmRun = s.calmRun := rfl
@[simp] theorem State.setDom_refRun (s : State) (d : Nat) (x : Domain) : (s.setDom d x).refRun = s.refRun := rfl
@[simp] theorem State.setDom_refclkLost (s : State) (d : Nat) (x : Domain) : (s.setDom d x).refclkLost = s.refclkLost := rfl
@[simp] theorem State.setDom_onOsc (s : State) (d : Nat) (x : Domain) : (s.setDom d x).onOsc = s.onOsc := rfl
@[simp] theorem State.setDom_perstN (s : State) (d : Nat) (x : Domain) : (s.setDom d x).perstN = s.perstN := rfl
@[simp] theorem State.setDom_modResetN (s : State) (d : Nat) (x : Domain) : (s.setDom d x).modResetN = s.modResetN := rfl
@[simp] theorem State.setDom_vinPg (s : State) (d : Nat) (x : Domain) : (s.setDom d x).vinPg = s.vinPg := rfl
@[simp] theorem State.setDom_pinSample (s : State) (d : Nat) (x : Domain) : (s.setDom d x).pinSample = s.pinSample := rfl
@[simp] theorem State.setDom_xspiOwn (s : State) (d : Nat) (x : Domain) : (s.setDom d x).xspiOwn = s.xspiOwn := rfl
@[simp] theorem State.setDom_flashHeld (s : State) (d : Nat) (x : Domain) : (s.setDom d x).flashHeld = s.flashHeld := rfl
@[simp] theorem State.setDom_tick (s : State) (d : Nat) (x : Domain) : (s.setDom d x).tick = s.tick := rfl
@[simp] theorem State.setDom_resetEnds (s : State) (d : Nat) (x : Domain) : (s.setDom d x).resetEnds = s.resetEnds := rfl
@[simp] theorem State.setDom_resetNode (s : State) (d : Nat) (x : Domain) : (s.setDom d x).resetNode = s.resetNode := rfl
@[simp] theorem State.setDom_resetMemory (s : State) (d : Nat) (x : Domain) : (s.setDom d x).resetMemory = s.resetMemory := rfl
@[simp] theorem State.setDom_startedAt (s : State) (d : Nat) (x : Domain) : (s.setDom d x).startedAt = s.startedAt := rfl
@[simp] theorem State.setDom_frac (s : State) (d : Nat) (x : Domain) : (s.setDom d x).frac = s.frac := rfl
@[simp] theorem State.setDom_stepped (s : State) (d : Nat) (x : Domain) : (s.setDom d x).stepped = s.stepped := rfl
@[simp] theorem State.setDom_everLocked (s : State) (d : Nat) (x : Domain) : (s.setDom d x).everLocked = s.everLocked := rfl
@[simp] theorem State.setDom_bootCount (s : State) (d : Nat) (x : Domain) : (s.setDom d x).bootCount = s.bootCount := rfl
@[simp] theorem State.setDom_log (s : State) (d : Nat) (x : Domain) : (s.setDom d x).log = s.log := rfl
@[simp] theorem State.setDom_handover (s : State) (d : Nat) (x : Domain) : (s.setDom d x).handover = s.handover := rfl
@[simp] theorem State.setDom_flash (s : State) (d : Nat) (x : Domain) : (s.setDom d x).flash = s.flash := rfl
@[simp] theorem State.setDom_deferred (s : State) (d : Nat) (x : Domain) : (s.setDom d x).deferred = s.deferred := rfl
@[simp] theorem State.setDom_fw (s : State) (d : Nat) (x : Domain) : (s.setDom d x).fw = s.fw := rfl
@[simp] theorem State.setDom_calico (s : State) (d : Nat) (x : Domain) : (s.setDom d x).calico = s.calico := rfl
@[simp] theorem State.setDom_swapped (s : State) (d : Nat) (x : Domain) : (s.setDom d x).swapped = s.swapped := rfl
@[simp] theorem State.setDom_absent (s : State) (d : Nat) (x : Domain) : (s.setDom d x).absent = s.absent := rfl
@[simp] theorem State.setDom_spareCores (s : State) (d : Nat) (x : Domain) : (s.setDom d x).spareCores = s.spareCores := rfl
@[simp] theorem State.setDom_remaps (s : State) (d : Nat) (x : Domain) : (s.setDom d x).remaps = s.remaps := rfl
@[simp] theorem State.setDom_engineMap (s : State) (d : Nat) (x : Domain) : (s.setDom d x).engineMap = s.engineMap := rfl
@[simp] theorem State.setDom_nearStacks (s : State) (d : Nat) (x : Domain) : (s.setDom d x).nearStacks = s.nearStacks := rfl
@[simp] theorem State.setDom_tiers (s : State) (d : Nat) (x : Domain) : (s.setDom d x).tiers = s.tiers := rfl
@[simp] theorem State.setDom_recal (s : State) (d : Nat) (x : Domain) : (s.setDom d x).recal = s.recal := rfl
@[simp] theorem State.setDom_env (s : State) (d : Nat) (x : Domain) : (s.setDom d x).env = s.env := rfl
@[simp] theorem State.setDom_hif (s : State) (d : Nat) (x : Domain) : (s.setDom d x).hif = s.hif := rfl
@[simp] theorem State.setDom_sqs (s : State) (d : Nat) (x : Domain) : (s.setDom d x).sqs = s.sqs := rfl
@[simp] theorem State.setDom_cqs (s : State) (d : Nat) (x : Domain) : (s.setDom d x).cqs = s.cqs := rfl
@[simp] theorem State.setDom_lastServed (s : State) (d : Nat) (x : Domain) : (s.setDom d x).lastServed = s.lastServed := rfl
@[simp] theorem State.setDom_descs (s : State) (d : Nat) (x : Domain) : (s.setDom d x).descs = s.descs := rfl
@[simp] theorem State.setDom_txns (s : State) (d : Nat) (x : Domain) : (s.setDom d x).txns = s.txns := rfl
@[simp] theorem State.setDom_clusters (s : State) (d : Nat) (x : Domain) : (s.setDom d x).clusters = s.clusters := rfl
@[simp] theorem State.setDom_laneSeeds (s : State) (d : Nat) (x : Domain) : (s.setDom d x).laneSeeds = s.laneSeeds := rfl
@[simp] theorem State.setDom_mem (s : State) (d : Nat) (x : Domain) : (s.setDom d x).mem = s.mem := rfl
@[simp] theorem State.setDom_zeroed (s : State) (d : Nat) (x : Domain) : (s.setDom d x).zeroed = s.zeroed := rfl
@[simp] theorem State.setDom_scrub (s : State) (d : Nat) (x : Domain) : (s.setDom d x).scrub = s.scrub := rfl
@[simp] theorem State.setDom_scrLimits (s : State) (d : Nat) (x : Domain) : (s.setDom d x).scrLimits = s.scrLimits := rfl
@[simp] theorem State.setDom_dmk (s : State) (d : Nat) (x : Domain) : (s.setDom d x).dmk = s.dmk := rfl
@[simp] theorem State.setDom_seq (s : State) (d : Nat) (x : Domain) : (s.setDom d x).seq = s.seq := rfl
@[simp] theorem State.setDom_retire (s : State) (d : Nat) (x : Domain) : (s.setDom d x).retire = s.retire := rfl
@[simp] theorem State.setDom_stash (s : State) (d : Nat) (x : Domain) : (s.setDom d x).stash = s.stash := rfl
@[simp] theorem State.setDom_engines (s : State) (d : Nat) (x : Domain) : (s.setDom d x).engines = s.engines := rfl
@[simp] theorem State.setDom_offloads (s : State) (d : Nat) (x : Domain) : (s.setDom d x).offloads = s.offloads := rfl
@[simp] theorem State.setDom_factors (s : State) (d : Nat) (x : Domain) : (s.setDom d x).factors = s.factors := rfl
@[simp] theorem State.setDom_grad (s : State) (d : Nat) (x : Domain) : (s.setDom d x).grad = s.grad := rfl
@[simp] theorem State.setDom_shard (s : State) (d : Nat) (x : Domain) : (s.setDom d x).shard = s.shard := rfl
@[simp] theorem State.setDom_ports (s : State) (d : Nat) (x : Domain) : (s.setDom d x).ports = s.ports := rfl
@[simp] theorem State.setDom_lostLinks (s : State) (d : Nat) (x : Domain) : (s.setDom d x).lostLinks = s.lostLinks := rfl
@[simp] theorem State.setDom_arrived (s : State) (d : Nat) (x : Domain) : (s.setDom d x).arrived = s.arrived := rfl
@[simp] theorem State.setDom_egress (s : State) (d : Nat) (x : Domain) : (s.setDom d x).egress = s.egress := rfl

@[simp] theorem State.setPort_pending (s : State) (p : Nat) (x : Port) : (s.setPort p x).pending = s.pending := rfl
@[simp] theorem State.setPort_draws (s : State) (p : Nat) (x : Port) : (s.setPort p x).draws = s.draws := rfl
@[simp] theorem State.setPort_dramGen (s : State) (p : Nat) (x : Port) : (s.setPort p x).dramGen = s.dramGen := rfl
@[simp] theorem State.setPort_nextId (s : State) (p : Nat) (x : Port) : (s.setPort p x).nextId = s.nextId := rfl
@[simp] theorem State.setPort_nextTxn (s : State) (p : Nat) (x : Port) : (s.setPort p x).nextTxn = s.nextTxn := rfl
@[simp] theorem State.setPort_flannelOn (s : State) (p : Nat) (x : Port) : (s.setPort p x).flannelOn = s.flannelOn := rfl
@[simp] theorem State.setPort_up (s : State) (p : Nat) (x : Port) : (s.setPort p x).up = s.up := rfl
@[simp] theorem State.setPort_mpRunning (s : State) (p : Nat) (x : Port) : (s.setPort p x).mpRunning = s.mpRunning := rfl
@[simp] theorem State.setPort_probe (s : State) (p : Nat) (x : Port) : (s.setPort p x).probe = s.probe := rfl
@[simp] theorem State.setPort_startPhase (s : State) (p : Nat) (x : Port) : (s.setPort p x).startPhase = s.startPhase := rfl
@[simp] theorem State.setPort_vin (s : State) (p : Nat) (x : Port) : (s.setPort p x).vin = s.vin := rfl
@[simp] theorem State.setPort_pin (s : State) (p : Nat) (x : Port) : (s.setPort p x).pin = s.pin := rfl
@[simp] theorem State.setPort_iin (s : State) (p : Nat) (x : Port) : (s.setPort p x).iin = s.iin := rfl
@[simp] theorem State.setPort_nv (s : State) (p : Nat) (x : Port) : (s.setPort p x).nv = s.nv := rfl
@[simp] theorem State.setPort_lowSag (s : State) (p : Nat) (x : Port) : (s.setPort p x).lowSag = s.lowSag := rfl
@[simp] theorem State.setPort_lowTherm (s : State) (p : Nat) (x : Port) : (s.setPort p x).lowTherm = s.lowTherm := rfl
@[simp] theorem State.setPort_thermAlert (s : State) (p : Nat) (x : Port) : (s.setPort p x).thermAlert = s.thermAlert := rfl
@[simp] theorem State.setPort_throttled (s : State) (p : Nat) (x : Port) : (s.setPort p x).throttled = s.throttled := rfl
@[simp] theorem State.setPort_throttles (s : State) (p : Nat) (x : Port) : (s.setPort p x).throttles = s.throttles := rfl
@[simp] theorem State.setPort_powerRun (s : State) (p : Nat) (x : Port) : (s.setPort p x).powerRun = s.powerRun := rfl
@[simp] theorem State.setPort_calmRun (s : State) (p : Nat) (x : Port) : (s.setPort p x).calmRun = s.calmRun := rfl
@[simp] theorem State.setPort_refRun (s : State) (p : Nat) (x : Port) : (s.setPort p x).refRun = s.refRun := rfl
@[simp] theorem State.setPort_refclkLost (s : State) (p : Nat) (x : Port) : (s.setPort p x).refclkLost = s.refclkLost := rfl
@[simp] theorem State.setPort_onOsc (s : State) (p : Nat) (x : Port) : (s.setPort p x).onOsc = s.onOsc := rfl
@[simp] theorem State.setPort_perstN (s : State) (p : Nat) (x : Port) : (s.setPort p x).perstN = s.perstN := rfl
@[simp] theorem State.setPort_modResetN (s : State) (p : Nat) (x : Port) : (s.setPort p x).modResetN = s.modResetN := rfl
@[simp] theorem State.setPort_vinPg (s : State) (p : Nat) (x : Port) : (s.setPort p x).vinPg = s.vinPg := rfl
@[simp] theorem State.setPort_pinSample (s : State) (p : Nat) (x : Port) : (s.setPort p x).pinSample = s.pinSample := rfl
@[simp] theorem State.setPort_xspiOwn (s : State) (p : Nat) (x : Port) : (s.setPort p x).xspiOwn = s.xspiOwn := rfl
@[simp] theorem State.setPort_flashHeld (s : State) (p : Nat) (x : Port) : (s.setPort p x).flashHeld = s.flashHeld := rfl
@[simp] theorem State.setPort_tick (s : State) (p : Nat) (x : Port) : (s.setPort p x).tick = s.tick := rfl
@[simp] theorem State.setPort_resetEnds (s : State) (p : Nat) (x : Port) : (s.setPort p x).resetEnds = s.resetEnds := rfl
@[simp] theorem State.setPort_resetNode (s : State) (p : Nat) (x : Port) : (s.setPort p x).resetNode = s.resetNode := rfl
@[simp] theorem State.setPort_resetMemory (s : State) (p : Nat) (x : Port) : (s.setPort p x).resetMemory = s.resetMemory := rfl
@[simp] theorem State.setPort_startedAt (s : State) (p : Nat) (x : Port) : (s.setPort p x).startedAt = s.startedAt := rfl
@[simp] theorem State.setPort_frac (s : State) (p : Nat) (x : Port) : (s.setPort p x).frac = s.frac := rfl
@[simp] theorem State.setPort_stepped (s : State) (p : Nat) (x : Port) : (s.setPort p x).stepped = s.stepped := rfl
@[simp] theorem State.setPort_everLocked (s : State) (p : Nat) (x : Port) : (s.setPort p x).everLocked = s.everLocked := rfl
@[simp] theorem State.setPort_bootCount (s : State) (p : Nat) (x : Port) : (s.setPort p x).bootCount = s.bootCount := rfl
@[simp] theorem State.setPort_log (s : State) (p : Nat) (x : Port) : (s.setPort p x).log = s.log := rfl
@[simp] theorem State.setPort_handover (s : State) (p : Nat) (x : Port) : (s.setPort p x).handover = s.handover := rfl
@[simp] theorem State.setPort_flash (s : State) (p : Nat) (x : Port) : (s.setPort p x).flash = s.flash := rfl
@[simp] theorem State.setPort_deferred (s : State) (p : Nat) (x : Port) : (s.setPort p x).deferred = s.deferred := rfl
@[simp] theorem State.setPort_fw (s : State) (p : Nat) (x : Port) : (s.setPort p x).fw = s.fw := rfl
@[simp] theorem State.setPort_calico (s : State) (p : Nat) (x : Port) : (s.setPort p x).calico = s.calico := rfl
@[simp] theorem State.setPort_swapped (s : State) (p : Nat) (x : Port) : (s.setPort p x).swapped = s.swapped := rfl
@[simp] theorem State.setPort_absent (s : State) (p : Nat) (x : Port) : (s.setPort p x).absent = s.absent := rfl
@[simp] theorem State.setPort_spareCores (s : State) (p : Nat) (x : Port) : (s.setPort p x).spareCores = s.spareCores := rfl
@[simp] theorem State.setPort_remaps (s : State) (p : Nat) (x : Port) : (s.setPort p x).remaps = s.remaps := rfl
@[simp] theorem State.setPort_engineMap (s : State) (p : Nat) (x : Port) : (s.setPort p x).engineMap = s.engineMap := rfl
@[simp] theorem State.setPort_nearStacks (s : State) (p : Nat) (x : Port) : (s.setPort p x).nearStacks = s.nearStacks := rfl
@[simp] theorem State.setPort_tiers (s : State) (p : Nat) (x : Port) : (s.setPort p x).tiers = s.tiers := rfl
@[simp] theorem State.setPort_recal (s : State) (p : Nat) (x : Port) : (s.setPort p x).recal = s.recal := rfl
@[simp] theorem State.setPort_domains (s : State) (p : Nat) (x : Port) : (s.setPort p x).domains = s.domains := rfl
@[simp] theorem State.setPort_env (s : State) (p : Nat) (x : Port) : (s.setPort p x).env = s.env := rfl
@[simp] theorem State.setPort_hif (s : State) (p : Nat) (x : Port) : (s.setPort p x).hif = s.hif := rfl
@[simp] theorem State.setPort_sqs (s : State) (p : Nat) (x : Port) : (s.setPort p x).sqs = s.sqs := rfl
@[simp] theorem State.setPort_cqs (s : State) (p : Nat) (x : Port) : (s.setPort p x).cqs = s.cqs := rfl
@[simp] theorem State.setPort_lastServed (s : State) (p : Nat) (x : Port) : (s.setPort p x).lastServed = s.lastServed := rfl
@[simp] theorem State.setPort_descs (s : State) (p : Nat) (x : Port) : (s.setPort p x).descs = s.descs := rfl
@[simp] theorem State.setPort_txns (s : State) (p : Nat) (x : Port) : (s.setPort p x).txns = s.txns := rfl
@[simp] theorem State.setPort_clusters (s : State) (p : Nat) (x : Port) : (s.setPort p x).clusters = s.clusters := rfl
@[simp] theorem State.setPort_laneSeeds (s : State) (p : Nat) (x : Port) : (s.setPort p x).laneSeeds = s.laneSeeds := rfl
@[simp] theorem State.setPort_mem (s : State) (p : Nat) (x : Port) : (s.setPort p x).mem = s.mem := rfl
@[simp] theorem State.setPort_zeroed (s : State) (p : Nat) (x : Port) : (s.setPort p x).zeroed = s.zeroed := rfl
@[simp] theorem State.setPort_scrub (s : State) (p : Nat) (x : Port) : (s.setPort p x).scrub = s.scrub := rfl
@[simp] theorem State.setPort_scrLimits (s : State) (p : Nat) (x : Port) : (s.setPort p x).scrLimits = s.scrLimits := rfl
@[simp] theorem State.setPort_dmk (s : State) (p : Nat) (x : Port) : (s.setPort p x).dmk = s.dmk := rfl
@[simp] theorem State.setPort_seq (s : State) (p : Nat) (x : Port) : (s.setPort p x).seq = s.seq := rfl
@[simp] theorem State.setPort_retire (s : State) (p : Nat) (x : Port) : (s.setPort p x).retire = s.retire := rfl
@[simp] theorem State.setPort_stash (s : State) (p : Nat) (x : Port) : (s.setPort p x).stash = s.stash := rfl
@[simp] theorem State.setPort_engines (s : State) (p : Nat) (x : Port) : (s.setPort p x).engines = s.engines := rfl
@[simp] theorem State.setPort_offloads (s : State) (p : Nat) (x : Port) : (s.setPort p x).offloads = s.offloads := rfl
@[simp] theorem State.setPort_factors (s : State) (p : Nat) (x : Port) : (s.setPort p x).factors = s.factors := rfl
@[simp] theorem State.setPort_grad (s : State) (p : Nat) (x : Port) : (s.setPort p x).grad = s.grad := rfl
@[simp] theorem State.setPort_shard (s : State) (p : Nat) (x : Port) : (s.setPort p x).shard = s.shard := rfl
@[simp] theorem State.setPort_lostLinks (s : State) (p : Nat) (x : Port) : (s.setPort p x).lostLinks = s.lostLinks := rfl
@[simp] theorem State.setPort_arrived (s : State) (p : Nat) (x : Port) : (s.setPort p x).arrived = s.arrived := rfl
@[simp] theorem State.setPort_egress (s : State) (p : Nat) (x : Port) : (s.setPort p x).egress = s.egress := rfl

@[simp] theorem State.setSq_pending (s : State) (q : Nat) (x : Sq) : (s.setSq q x).pending = s.pending := rfl
@[simp] theorem State.setSq_draws (s : State) (q : Nat) (x : Sq) : (s.setSq q x).draws = s.draws := rfl
@[simp] theorem State.setSq_dramGen (s : State) (q : Nat) (x : Sq) : (s.setSq q x).dramGen = s.dramGen := rfl
@[simp] theorem State.setSq_nextId (s : State) (q : Nat) (x : Sq) : (s.setSq q x).nextId = s.nextId := rfl
@[simp] theorem State.setSq_nextTxn (s : State) (q : Nat) (x : Sq) : (s.setSq q x).nextTxn = s.nextTxn := rfl
@[simp] theorem State.setSq_flannelOn (s : State) (q : Nat) (x : Sq) : (s.setSq q x).flannelOn = s.flannelOn := rfl
@[simp] theorem State.setSq_up (s : State) (q : Nat) (x : Sq) : (s.setSq q x).up = s.up := rfl
@[simp] theorem State.setSq_mpRunning (s : State) (q : Nat) (x : Sq) : (s.setSq q x).mpRunning = s.mpRunning := rfl
@[simp] theorem State.setSq_probe (s : State) (q : Nat) (x : Sq) : (s.setSq q x).probe = s.probe := rfl
@[simp] theorem State.setSq_startPhase (s : State) (q : Nat) (x : Sq) : (s.setSq q x).startPhase = s.startPhase := rfl
@[simp] theorem State.setSq_vin (s : State) (q : Nat) (x : Sq) : (s.setSq q x).vin = s.vin := rfl
@[simp] theorem State.setSq_pin (s : State) (q : Nat) (x : Sq) : (s.setSq q x).pin = s.pin := rfl
@[simp] theorem State.setSq_iin (s : State) (q : Nat) (x : Sq) : (s.setSq q x).iin = s.iin := rfl
@[simp] theorem State.setSq_nv (s : State) (q : Nat) (x : Sq) : (s.setSq q x).nv = s.nv := rfl
@[simp] theorem State.setSq_lowSag (s : State) (q : Nat) (x : Sq) : (s.setSq q x).lowSag = s.lowSag := rfl
@[simp] theorem State.setSq_lowTherm (s : State) (q : Nat) (x : Sq) : (s.setSq q x).lowTherm = s.lowTherm := rfl
@[simp] theorem State.setSq_thermAlert (s : State) (q : Nat) (x : Sq) : (s.setSq q x).thermAlert = s.thermAlert := rfl
@[simp] theorem State.setSq_throttled (s : State) (q : Nat) (x : Sq) : (s.setSq q x).throttled = s.throttled := rfl
@[simp] theorem State.setSq_throttles (s : State) (q : Nat) (x : Sq) : (s.setSq q x).throttles = s.throttles := rfl
@[simp] theorem State.setSq_powerRun (s : State) (q : Nat) (x : Sq) : (s.setSq q x).powerRun = s.powerRun := rfl
@[simp] theorem State.setSq_calmRun (s : State) (q : Nat) (x : Sq) : (s.setSq q x).calmRun = s.calmRun := rfl
@[simp] theorem State.setSq_refRun (s : State) (q : Nat) (x : Sq) : (s.setSq q x).refRun = s.refRun := rfl
@[simp] theorem State.setSq_refclkLost (s : State) (q : Nat) (x : Sq) : (s.setSq q x).refclkLost = s.refclkLost := rfl
@[simp] theorem State.setSq_onOsc (s : State) (q : Nat) (x : Sq) : (s.setSq q x).onOsc = s.onOsc := rfl
@[simp] theorem State.setSq_perstN (s : State) (q : Nat) (x : Sq) : (s.setSq q x).perstN = s.perstN := rfl
@[simp] theorem State.setSq_modResetN (s : State) (q : Nat) (x : Sq) : (s.setSq q x).modResetN = s.modResetN := rfl
@[simp] theorem State.setSq_vinPg (s : State) (q : Nat) (x : Sq) : (s.setSq q x).vinPg = s.vinPg := rfl
@[simp] theorem State.setSq_pinSample (s : State) (q : Nat) (x : Sq) : (s.setSq q x).pinSample = s.pinSample := rfl
@[simp] theorem State.setSq_xspiOwn (s : State) (q : Nat) (x : Sq) : (s.setSq q x).xspiOwn = s.xspiOwn := rfl
@[simp] theorem State.setSq_flashHeld (s : State) (q : Nat) (x : Sq) : (s.setSq q x).flashHeld = s.flashHeld := rfl
@[simp] theorem State.setSq_tick (s : State) (q : Nat) (x : Sq) : (s.setSq q x).tick = s.tick := rfl
@[simp] theorem State.setSq_resetEnds (s : State) (q : Nat) (x : Sq) : (s.setSq q x).resetEnds = s.resetEnds := rfl
@[simp] theorem State.setSq_resetNode (s : State) (q : Nat) (x : Sq) : (s.setSq q x).resetNode = s.resetNode := rfl
@[simp] theorem State.setSq_resetMemory (s : State) (q : Nat) (x : Sq) : (s.setSq q x).resetMemory = s.resetMemory := rfl
@[simp] theorem State.setSq_startedAt (s : State) (q : Nat) (x : Sq) : (s.setSq q x).startedAt = s.startedAt := rfl
@[simp] theorem State.setSq_frac (s : State) (q : Nat) (x : Sq) : (s.setSq q x).frac = s.frac := rfl
@[simp] theorem State.setSq_stepped (s : State) (q : Nat) (x : Sq) : (s.setSq q x).stepped = s.stepped := rfl
@[simp] theorem State.setSq_everLocked (s : State) (q : Nat) (x : Sq) : (s.setSq q x).everLocked = s.everLocked := rfl
@[simp] theorem State.setSq_bootCount (s : State) (q : Nat) (x : Sq) : (s.setSq q x).bootCount = s.bootCount := rfl
@[simp] theorem State.setSq_log (s : State) (q : Nat) (x : Sq) : (s.setSq q x).log = s.log := rfl
@[simp] theorem State.setSq_handover (s : State) (q : Nat) (x : Sq) : (s.setSq q x).handover = s.handover := rfl
@[simp] theorem State.setSq_flash (s : State) (q : Nat) (x : Sq) : (s.setSq q x).flash = s.flash := rfl
@[simp] theorem State.setSq_deferred (s : State) (q : Nat) (x : Sq) : (s.setSq q x).deferred = s.deferred := rfl
@[simp] theorem State.setSq_fw (s : State) (q : Nat) (x : Sq) : (s.setSq q x).fw = s.fw := rfl
@[simp] theorem State.setSq_calico (s : State) (q : Nat) (x : Sq) : (s.setSq q x).calico = s.calico := rfl
@[simp] theorem State.setSq_swapped (s : State) (q : Nat) (x : Sq) : (s.setSq q x).swapped = s.swapped := rfl
@[simp] theorem State.setSq_absent (s : State) (q : Nat) (x : Sq) : (s.setSq q x).absent = s.absent := rfl
@[simp] theorem State.setSq_spareCores (s : State) (q : Nat) (x : Sq) : (s.setSq q x).spareCores = s.spareCores := rfl
@[simp] theorem State.setSq_remaps (s : State) (q : Nat) (x : Sq) : (s.setSq q x).remaps = s.remaps := rfl
@[simp] theorem State.setSq_engineMap (s : State) (q : Nat) (x : Sq) : (s.setSq q x).engineMap = s.engineMap := rfl
@[simp] theorem State.setSq_nearStacks (s : State) (q : Nat) (x : Sq) : (s.setSq q x).nearStacks = s.nearStacks := rfl
@[simp] theorem State.setSq_tiers (s : State) (q : Nat) (x : Sq) : (s.setSq q x).tiers = s.tiers := rfl
@[simp] theorem State.setSq_recal (s : State) (q : Nat) (x : Sq) : (s.setSq q x).recal = s.recal := rfl
@[simp] theorem State.setSq_domains (s : State) (q : Nat) (x : Sq) : (s.setSq q x).domains = s.domains := rfl
@[simp] theorem State.setSq_env (s : State) (q : Nat) (x : Sq) : (s.setSq q x).env = s.env := rfl
@[simp] theorem State.setSq_hif (s : State) (q : Nat) (x : Sq) : (s.setSq q x).hif = s.hif := rfl
@[simp] theorem State.setSq_cqs (s : State) (q : Nat) (x : Sq) : (s.setSq q x).cqs = s.cqs := rfl
@[simp] theorem State.setSq_lastServed (s : State) (q : Nat) (x : Sq) : (s.setSq q x).lastServed = s.lastServed := rfl
@[simp] theorem State.setSq_descs (s : State) (q : Nat) (x : Sq) : (s.setSq q x).descs = s.descs := rfl
@[simp] theorem State.setSq_txns (s : State) (q : Nat) (x : Sq) : (s.setSq q x).txns = s.txns := rfl
@[simp] theorem State.setSq_clusters (s : State) (q : Nat) (x : Sq) : (s.setSq q x).clusters = s.clusters := rfl
@[simp] theorem State.setSq_laneSeeds (s : State) (q : Nat) (x : Sq) : (s.setSq q x).laneSeeds = s.laneSeeds := rfl
@[simp] theorem State.setSq_mem (s : State) (q : Nat) (x : Sq) : (s.setSq q x).mem = s.mem := rfl
@[simp] theorem State.setSq_zeroed (s : State) (q : Nat) (x : Sq) : (s.setSq q x).zeroed = s.zeroed := rfl
@[simp] theorem State.setSq_scrub (s : State) (q : Nat) (x : Sq) : (s.setSq q x).scrub = s.scrub := rfl
@[simp] theorem State.setSq_scrLimits (s : State) (q : Nat) (x : Sq) : (s.setSq q x).scrLimits = s.scrLimits := rfl
@[simp] theorem State.setSq_dmk (s : State) (q : Nat) (x : Sq) : (s.setSq q x).dmk = s.dmk := rfl
@[simp] theorem State.setSq_seq (s : State) (q : Nat) (x : Sq) : (s.setSq q x).seq = s.seq := rfl
@[simp] theorem State.setSq_retire (s : State) (q : Nat) (x : Sq) : (s.setSq q x).retire = s.retire := rfl
@[simp] theorem State.setSq_stash (s : State) (q : Nat) (x : Sq) : (s.setSq q x).stash = s.stash := rfl
@[simp] theorem State.setSq_engines (s : State) (q : Nat) (x : Sq) : (s.setSq q x).engines = s.engines := rfl
@[simp] theorem State.setSq_offloads (s : State) (q : Nat) (x : Sq) : (s.setSq q x).offloads = s.offloads := rfl
@[simp] theorem State.setSq_factors (s : State) (q : Nat) (x : Sq) : (s.setSq q x).factors = s.factors := rfl
@[simp] theorem State.setSq_grad (s : State) (q : Nat) (x : Sq) : (s.setSq q x).grad = s.grad := rfl
@[simp] theorem State.setSq_shard (s : State) (q : Nat) (x : Sq) : (s.setSq q x).shard = s.shard := rfl
@[simp] theorem State.setSq_ports (s : State) (q : Nat) (x : Sq) : (s.setSq q x).ports = s.ports := rfl
@[simp] theorem State.setSq_lostLinks (s : State) (q : Nat) (x : Sq) : (s.setSq q x).lostLinks = s.lostLinks := rfl
@[simp] theorem State.setSq_arrived (s : State) (q : Nat) (x : Sq) : (s.setSq q x).arrived = s.arrived := rfl
@[simp] theorem State.setSq_egress (s : State) (q : Nat) (x : Sq) : (s.setSq q x).egress = s.egress := rfl

@[simp] theorem State.setCq_pending (s : State) (q : Nat) (x : Cq) : (s.setCq q x).pending = s.pending := rfl
@[simp] theorem State.setCq_draws (s : State) (q : Nat) (x : Cq) : (s.setCq q x).draws = s.draws := rfl
@[simp] theorem State.setCq_dramGen (s : State) (q : Nat) (x : Cq) : (s.setCq q x).dramGen = s.dramGen := rfl
@[simp] theorem State.setCq_nextId (s : State) (q : Nat) (x : Cq) : (s.setCq q x).nextId = s.nextId := rfl
@[simp] theorem State.setCq_nextTxn (s : State) (q : Nat) (x : Cq) : (s.setCq q x).nextTxn = s.nextTxn := rfl
@[simp] theorem State.setCq_flannelOn (s : State) (q : Nat) (x : Cq) : (s.setCq q x).flannelOn = s.flannelOn := rfl
@[simp] theorem State.setCq_up (s : State) (q : Nat) (x : Cq) : (s.setCq q x).up = s.up := rfl
@[simp] theorem State.setCq_mpRunning (s : State) (q : Nat) (x : Cq) : (s.setCq q x).mpRunning = s.mpRunning := rfl
@[simp] theorem State.setCq_probe (s : State) (q : Nat) (x : Cq) : (s.setCq q x).probe = s.probe := rfl
@[simp] theorem State.setCq_startPhase (s : State) (q : Nat) (x : Cq) : (s.setCq q x).startPhase = s.startPhase := rfl
@[simp] theorem State.setCq_vin (s : State) (q : Nat) (x : Cq) : (s.setCq q x).vin = s.vin := rfl
@[simp] theorem State.setCq_pin (s : State) (q : Nat) (x : Cq) : (s.setCq q x).pin = s.pin := rfl
@[simp] theorem State.setCq_iin (s : State) (q : Nat) (x : Cq) : (s.setCq q x).iin = s.iin := rfl
@[simp] theorem State.setCq_nv (s : State) (q : Nat) (x : Cq) : (s.setCq q x).nv = s.nv := rfl
@[simp] theorem State.setCq_lowSag (s : State) (q : Nat) (x : Cq) : (s.setCq q x).lowSag = s.lowSag := rfl
@[simp] theorem State.setCq_lowTherm (s : State) (q : Nat) (x : Cq) : (s.setCq q x).lowTherm = s.lowTherm := rfl
@[simp] theorem State.setCq_thermAlert (s : State) (q : Nat) (x : Cq) : (s.setCq q x).thermAlert = s.thermAlert := rfl
@[simp] theorem State.setCq_throttled (s : State) (q : Nat) (x : Cq) : (s.setCq q x).throttled = s.throttled := rfl
@[simp] theorem State.setCq_throttles (s : State) (q : Nat) (x : Cq) : (s.setCq q x).throttles = s.throttles := rfl
@[simp] theorem State.setCq_powerRun (s : State) (q : Nat) (x : Cq) : (s.setCq q x).powerRun = s.powerRun := rfl
@[simp] theorem State.setCq_calmRun (s : State) (q : Nat) (x : Cq) : (s.setCq q x).calmRun = s.calmRun := rfl
@[simp] theorem State.setCq_refRun (s : State) (q : Nat) (x : Cq) : (s.setCq q x).refRun = s.refRun := rfl
@[simp] theorem State.setCq_refclkLost (s : State) (q : Nat) (x : Cq) : (s.setCq q x).refclkLost = s.refclkLost := rfl
@[simp] theorem State.setCq_onOsc (s : State) (q : Nat) (x : Cq) : (s.setCq q x).onOsc = s.onOsc := rfl
@[simp] theorem State.setCq_perstN (s : State) (q : Nat) (x : Cq) : (s.setCq q x).perstN = s.perstN := rfl
@[simp] theorem State.setCq_modResetN (s : State) (q : Nat) (x : Cq) : (s.setCq q x).modResetN = s.modResetN := rfl
@[simp] theorem State.setCq_vinPg (s : State) (q : Nat) (x : Cq) : (s.setCq q x).vinPg = s.vinPg := rfl
@[simp] theorem State.setCq_pinSample (s : State) (q : Nat) (x : Cq) : (s.setCq q x).pinSample = s.pinSample := rfl
@[simp] theorem State.setCq_xspiOwn (s : State) (q : Nat) (x : Cq) : (s.setCq q x).xspiOwn = s.xspiOwn := rfl
@[simp] theorem State.setCq_flashHeld (s : State) (q : Nat) (x : Cq) : (s.setCq q x).flashHeld = s.flashHeld := rfl
@[simp] theorem State.setCq_tick (s : State) (q : Nat) (x : Cq) : (s.setCq q x).tick = s.tick := rfl
@[simp] theorem State.setCq_resetEnds (s : State) (q : Nat) (x : Cq) : (s.setCq q x).resetEnds = s.resetEnds := rfl
@[simp] theorem State.setCq_resetNode (s : State) (q : Nat) (x : Cq) : (s.setCq q x).resetNode = s.resetNode := rfl
@[simp] theorem State.setCq_resetMemory (s : State) (q : Nat) (x : Cq) : (s.setCq q x).resetMemory = s.resetMemory := rfl
@[simp] theorem State.setCq_startedAt (s : State) (q : Nat) (x : Cq) : (s.setCq q x).startedAt = s.startedAt := rfl
@[simp] theorem State.setCq_frac (s : State) (q : Nat) (x : Cq) : (s.setCq q x).frac = s.frac := rfl
@[simp] theorem State.setCq_stepped (s : State) (q : Nat) (x : Cq) : (s.setCq q x).stepped = s.stepped := rfl
@[simp] theorem State.setCq_everLocked (s : State) (q : Nat) (x : Cq) : (s.setCq q x).everLocked = s.everLocked := rfl
@[simp] theorem State.setCq_bootCount (s : State) (q : Nat) (x : Cq) : (s.setCq q x).bootCount = s.bootCount := rfl
@[simp] theorem State.setCq_log (s : State) (q : Nat) (x : Cq) : (s.setCq q x).log = s.log := rfl
@[simp] theorem State.setCq_handover (s : State) (q : Nat) (x : Cq) : (s.setCq q x).handover = s.handover := rfl
@[simp] theorem State.setCq_flash (s : State) (q : Nat) (x : Cq) : (s.setCq q x).flash = s.flash := rfl
@[simp] theorem State.setCq_deferred (s : State) (q : Nat) (x : Cq) : (s.setCq q x).deferred = s.deferred := rfl
@[simp] theorem State.setCq_fw (s : State) (q : Nat) (x : Cq) : (s.setCq q x).fw = s.fw := rfl
@[simp] theorem State.setCq_calico (s : State) (q : Nat) (x : Cq) : (s.setCq q x).calico = s.calico := rfl
@[simp] theorem State.setCq_swapped (s : State) (q : Nat) (x : Cq) : (s.setCq q x).swapped = s.swapped := rfl
@[simp] theorem State.setCq_absent (s : State) (q : Nat) (x : Cq) : (s.setCq q x).absent = s.absent := rfl
@[simp] theorem State.setCq_spareCores (s : State) (q : Nat) (x : Cq) : (s.setCq q x).spareCores = s.spareCores := rfl
@[simp] theorem State.setCq_remaps (s : State) (q : Nat) (x : Cq) : (s.setCq q x).remaps = s.remaps := rfl
@[simp] theorem State.setCq_engineMap (s : State) (q : Nat) (x : Cq) : (s.setCq q x).engineMap = s.engineMap := rfl
@[simp] theorem State.setCq_nearStacks (s : State) (q : Nat) (x : Cq) : (s.setCq q x).nearStacks = s.nearStacks := rfl
@[simp] theorem State.setCq_tiers (s : State) (q : Nat) (x : Cq) : (s.setCq q x).tiers = s.tiers := rfl
@[simp] theorem State.setCq_recal (s : State) (q : Nat) (x : Cq) : (s.setCq q x).recal = s.recal := rfl
@[simp] theorem State.setCq_domains (s : State) (q : Nat) (x : Cq) : (s.setCq q x).domains = s.domains := rfl
@[simp] theorem State.setCq_env (s : State) (q : Nat) (x : Cq) : (s.setCq q x).env = s.env := rfl
@[simp] theorem State.setCq_hif (s : State) (q : Nat) (x : Cq) : (s.setCq q x).hif = s.hif := rfl
@[simp] theorem State.setCq_sqs (s : State) (q : Nat) (x : Cq) : (s.setCq q x).sqs = s.sqs := rfl
@[simp] theorem State.setCq_lastServed (s : State) (q : Nat) (x : Cq) : (s.setCq q x).lastServed = s.lastServed := rfl
@[simp] theorem State.setCq_descs (s : State) (q : Nat) (x : Cq) : (s.setCq q x).descs = s.descs := rfl
@[simp] theorem State.setCq_txns (s : State) (q : Nat) (x : Cq) : (s.setCq q x).txns = s.txns := rfl
@[simp] theorem State.setCq_clusters (s : State) (q : Nat) (x : Cq) : (s.setCq q x).clusters = s.clusters := rfl
@[simp] theorem State.setCq_laneSeeds (s : State) (q : Nat) (x : Cq) : (s.setCq q x).laneSeeds = s.laneSeeds := rfl
@[simp] theorem State.setCq_mem (s : State) (q : Nat) (x : Cq) : (s.setCq q x).mem = s.mem := rfl
@[simp] theorem State.setCq_zeroed (s : State) (q : Nat) (x : Cq) : (s.setCq q x).zeroed = s.zeroed := rfl
@[simp] theorem State.setCq_scrub (s : State) (q : Nat) (x : Cq) : (s.setCq q x).scrub = s.scrub := rfl
@[simp] theorem State.setCq_scrLimits (s : State) (q : Nat) (x : Cq) : (s.setCq q x).scrLimits = s.scrLimits := rfl
@[simp] theorem State.setCq_dmk (s : State) (q : Nat) (x : Cq) : (s.setCq q x).dmk = s.dmk := rfl
@[simp] theorem State.setCq_seq (s : State) (q : Nat) (x : Cq) : (s.setCq q x).seq = s.seq := rfl
@[simp] theorem State.setCq_retire (s : State) (q : Nat) (x : Cq) : (s.setCq q x).retire = s.retire := rfl
@[simp] theorem State.setCq_stash (s : State) (q : Nat) (x : Cq) : (s.setCq q x).stash = s.stash := rfl
@[simp] theorem State.setCq_engines (s : State) (q : Nat) (x : Cq) : (s.setCq q x).engines = s.engines := rfl
@[simp] theorem State.setCq_offloads (s : State) (q : Nat) (x : Cq) : (s.setCq q x).offloads = s.offloads := rfl
@[simp] theorem State.setCq_factors (s : State) (q : Nat) (x : Cq) : (s.setCq q x).factors = s.factors := rfl
@[simp] theorem State.setCq_grad (s : State) (q : Nat) (x : Cq) : (s.setCq q x).grad = s.grad := rfl
@[simp] theorem State.setCq_shard (s : State) (q : Nat) (x : Cq) : (s.setCq q x).shard = s.shard := rfl
@[simp] theorem State.setCq_ports (s : State) (q : Nat) (x : Cq) : (s.setCq q x).ports = s.ports := rfl
@[simp] theorem State.setCq_lostLinks (s : State) (q : Nat) (x : Cq) : (s.setCq q x).lostLinks = s.lostLinks := rfl
@[simp] theorem State.setCq_arrived (s : State) (q : Nat) (x : Cq) : (s.setCq q x).arrived = s.arrived := rfl
@[simp] theorem State.setCq_egress (s : State) (q : Nat) (x : Cq) : (s.setCq q x).egress = s.egress := rfl

@[simp] theorem State.setEng_pending (s : State) (e : Nat) (x : Engine) : (s.setEng e x).pending = s.pending := rfl
@[simp] theorem State.setEng_draws (s : State) (e : Nat) (x : Engine) : (s.setEng e x).draws = s.draws := rfl
@[simp] theorem State.setEng_dramGen (s : State) (e : Nat) (x : Engine) : (s.setEng e x).dramGen = s.dramGen := rfl
@[simp] theorem State.setEng_nextId (s : State) (e : Nat) (x : Engine) : (s.setEng e x).nextId = s.nextId := rfl
@[simp] theorem State.setEng_nextTxn (s : State) (e : Nat) (x : Engine) : (s.setEng e x).nextTxn = s.nextTxn := rfl
@[simp] theorem State.setEng_flannelOn (s : State) (e : Nat) (x : Engine) : (s.setEng e x).flannelOn = s.flannelOn := rfl
@[simp] theorem State.setEng_up (s : State) (e : Nat) (x : Engine) : (s.setEng e x).up = s.up := rfl
@[simp] theorem State.setEng_mpRunning (s : State) (e : Nat) (x : Engine) : (s.setEng e x).mpRunning = s.mpRunning := rfl
@[simp] theorem State.setEng_probe (s : State) (e : Nat) (x : Engine) : (s.setEng e x).probe = s.probe := rfl
@[simp] theorem State.setEng_startPhase (s : State) (e : Nat) (x : Engine) : (s.setEng e x).startPhase = s.startPhase := rfl
@[simp] theorem State.setEng_vin (s : State) (e : Nat) (x : Engine) : (s.setEng e x).vin = s.vin := rfl
@[simp] theorem State.setEng_pin (s : State) (e : Nat) (x : Engine) : (s.setEng e x).pin = s.pin := rfl
@[simp] theorem State.setEng_iin (s : State) (e : Nat) (x : Engine) : (s.setEng e x).iin = s.iin := rfl
@[simp] theorem State.setEng_nv (s : State) (e : Nat) (x : Engine) : (s.setEng e x).nv = s.nv := rfl
@[simp] theorem State.setEng_lowSag (s : State) (e : Nat) (x : Engine) : (s.setEng e x).lowSag = s.lowSag := rfl
@[simp] theorem State.setEng_lowTherm (s : State) (e : Nat) (x : Engine) : (s.setEng e x).lowTherm = s.lowTherm := rfl
@[simp] theorem State.setEng_thermAlert (s : State) (e : Nat) (x : Engine) : (s.setEng e x).thermAlert = s.thermAlert := rfl
@[simp] theorem State.setEng_throttled (s : State) (e : Nat) (x : Engine) : (s.setEng e x).throttled = s.throttled := rfl
@[simp] theorem State.setEng_throttles (s : State) (e : Nat) (x : Engine) : (s.setEng e x).throttles = s.throttles := rfl
@[simp] theorem State.setEng_powerRun (s : State) (e : Nat) (x : Engine) : (s.setEng e x).powerRun = s.powerRun := rfl
@[simp] theorem State.setEng_calmRun (s : State) (e : Nat) (x : Engine) : (s.setEng e x).calmRun = s.calmRun := rfl
@[simp] theorem State.setEng_refRun (s : State) (e : Nat) (x : Engine) : (s.setEng e x).refRun = s.refRun := rfl
@[simp] theorem State.setEng_refclkLost (s : State) (e : Nat) (x : Engine) : (s.setEng e x).refclkLost = s.refclkLost := rfl
@[simp] theorem State.setEng_onOsc (s : State) (e : Nat) (x : Engine) : (s.setEng e x).onOsc = s.onOsc := rfl
@[simp] theorem State.setEng_perstN (s : State) (e : Nat) (x : Engine) : (s.setEng e x).perstN = s.perstN := rfl
@[simp] theorem State.setEng_modResetN (s : State) (e : Nat) (x : Engine) : (s.setEng e x).modResetN = s.modResetN := rfl
@[simp] theorem State.setEng_vinPg (s : State) (e : Nat) (x : Engine) : (s.setEng e x).vinPg = s.vinPg := rfl
@[simp] theorem State.setEng_pinSample (s : State) (e : Nat) (x : Engine) : (s.setEng e x).pinSample = s.pinSample := rfl
@[simp] theorem State.setEng_xspiOwn (s : State) (e : Nat) (x : Engine) : (s.setEng e x).xspiOwn = s.xspiOwn := rfl
@[simp] theorem State.setEng_flashHeld (s : State) (e : Nat) (x : Engine) : (s.setEng e x).flashHeld = s.flashHeld := rfl
@[simp] theorem State.setEng_tick (s : State) (e : Nat) (x : Engine) : (s.setEng e x).tick = s.tick := rfl
@[simp] theorem State.setEng_resetEnds (s : State) (e : Nat) (x : Engine) : (s.setEng e x).resetEnds = s.resetEnds := rfl
@[simp] theorem State.setEng_resetNode (s : State) (e : Nat) (x : Engine) : (s.setEng e x).resetNode = s.resetNode := rfl
@[simp] theorem State.setEng_resetMemory (s : State) (e : Nat) (x : Engine) : (s.setEng e x).resetMemory = s.resetMemory := rfl
@[simp] theorem State.setEng_startedAt (s : State) (e : Nat) (x : Engine) : (s.setEng e x).startedAt = s.startedAt := rfl
@[simp] theorem State.setEng_frac (s : State) (e : Nat) (x : Engine) : (s.setEng e x).frac = s.frac := rfl
@[simp] theorem State.setEng_stepped (s : State) (e : Nat) (x : Engine) : (s.setEng e x).stepped = s.stepped := rfl
@[simp] theorem State.setEng_everLocked (s : State) (e : Nat) (x : Engine) : (s.setEng e x).everLocked = s.everLocked := rfl
@[simp] theorem State.setEng_bootCount (s : State) (e : Nat) (x : Engine) : (s.setEng e x).bootCount = s.bootCount := rfl
@[simp] theorem State.setEng_log (s : State) (e : Nat) (x : Engine) : (s.setEng e x).log = s.log := rfl
@[simp] theorem State.setEng_handover (s : State) (e : Nat) (x : Engine) : (s.setEng e x).handover = s.handover := rfl
@[simp] theorem State.setEng_flash (s : State) (e : Nat) (x : Engine) : (s.setEng e x).flash = s.flash := rfl
@[simp] theorem State.setEng_deferred (s : State) (e : Nat) (x : Engine) : (s.setEng e x).deferred = s.deferred := rfl
@[simp] theorem State.setEng_fw (s : State) (e : Nat) (x : Engine) : (s.setEng e x).fw = s.fw := rfl
@[simp] theorem State.setEng_calico (s : State) (e : Nat) (x : Engine) : (s.setEng e x).calico = s.calico := rfl
@[simp] theorem State.setEng_swapped (s : State) (e : Nat) (x : Engine) : (s.setEng e x).swapped = s.swapped := rfl
@[simp] theorem State.setEng_absent (s : State) (e : Nat) (x : Engine) : (s.setEng e x).absent = s.absent := rfl
@[simp] theorem State.setEng_spareCores (s : State) (e : Nat) (x : Engine) : (s.setEng e x).spareCores = s.spareCores := rfl
@[simp] theorem State.setEng_remaps (s : State) (e : Nat) (x : Engine) : (s.setEng e x).remaps = s.remaps := rfl
@[simp] theorem State.setEng_engineMap (s : State) (e : Nat) (x : Engine) : (s.setEng e x).engineMap = s.engineMap := rfl
@[simp] theorem State.setEng_nearStacks (s : State) (e : Nat) (x : Engine) : (s.setEng e x).nearStacks = s.nearStacks := rfl
@[simp] theorem State.setEng_tiers (s : State) (e : Nat) (x : Engine) : (s.setEng e x).tiers = s.tiers := rfl
@[simp] theorem State.setEng_recal (s : State) (e : Nat) (x : Engine) : (s.setEng e x).recal = s.recal := rfl
@[simp] theorem State.setEng_domains (s : State) (e : Nat) (x : Engine) : (s.setEng e x).domains = s.domains := rfl
@[simp] theorem State.setEng_env (s : State) (e : Nat) (x : Engine) : (s.setEng e x).env = s.env := rfl
@[simp] theorem State.setEng_hif (s : State) (e : Nat) (x : Engine) : (s.setEng e x).hif = s.hif := rfl
@[simp] theorem State.setEng_sqs (s : State) (e : Nat) (x : Engine) : (s.setEng e x).sqs = s.sqs := rfl
@[simp] theorem State.setEng_cqs (s : State) (e : Nat) (x : Engine) : (s.setEng e x).cqs = s.cqs := rfl
@[simp] theorem State.setEng_lastServed (s : State) (e : Nat) (x : Engine) : (s.setEng e x).lastServed = s.lastServed := rfl
@[simp] theorem State.setEng_descs (s : State) (e : Nat) (x : Engine) : (s.setEng e x).descs = s.descs := rfl
@[simp] theorem State.setEng_txns (s : State) (e : Nat) (x : Engine) : (s.setEng e x).txns = s.txns := rfl
@[simp] theorem State.setEng_clusters (s : State) (e : Nat) (x : Engine) : (s.setEng e x).clusters = s.clusters := rfl
@[simp] theorem State.setEng_laneSeeds (s : State) (e : Nat) (x : Engine) : (s.setEng e x).laneSeeds = s.laneSeeds := rfl
@[simp] theorem State.setEng_mem (s : State) (e : Nat) (x : Engine) : (s.setEng e x).mem = s.mem := rfl
@[simp] theorem State.setEng_zeroed (s : State) (e : Nat) (x : Engine) : (s.setEng e x).zeroed = s.zeroed := rfl
@[simp] theorem State.setEng_scrub (s : State) (e : Nat) (x : Engine) : (s.setEng e x).scrub = s.scrub := rfl
@[simp] theorem State.setEng_scrLimits (s : State) (e : Nat) (x : Engine) : (s.setEng e x).scrLimits = s.scrLimits := rfl
@[simp] theorem State.setEng_dmk (s : State) (e : Nat) (x : Engine) : (s.setEng e x).dmk = s.dmk := rfl
@[simp] theorem State.setEng_seq (s : State) (e : Nat) (x : Engine) : (s.setEng e x).seq = s.seq := rfl
@[simp] theorem State.setEng_retire (s : State) (e : Nat) (x : Engine) : (s.setEng e x).retire = s.retire := rfl
@[simp] theorem State.setEng_stash (s : State) (e : Nat) (x : Engine) : (s.setEng e x).stash = s.stash := rfl
@[simp] theorem State.setEng_offloads (s : State) (e : Nat) (x : Engine) : (s.setEng e x).offloads = s.offloads := rfl
@[simp] theorem State.setEng_factors (s : State) (e : Nat) (x : Engine) : (s.setEng e x).factors = s.factors := rfl
@[simp] theorem State.setEng_grad (s : State) (e : Nat) (x : Engine) : (s.setEng e x).grad = s.grad := rfl
@[simp] theorem State.setEng_shard (s : State) (e : Nat) (x : Engine) : (s.setEng e x).shard = s.shard := rfl
@[simp] theorem State.setEng_ports (s : State) (e : Nat) (x : Engine) : (s.setEng e x).ports = s.ports := rfl
@[simp] theorem State.setEng_lostLinks (s : State) (e : Nat) (x : Engine) : (s.setEng e x).lostLinks = s.lostLinks := rfl
@[simp] theorem State.setEng_arrived (s : State) (e : Nat) (x : Engine) : (s.setEng e x).arrived = s.arrived := rfl
@[simp] theorem State.setEng_egress (s : State) (e : Nat) (x : Engine) : (s.setEng e x).egress = s.egress := rfl

@[simp] theorem State.setFactor_pending (s : State) (f : Nat) (x : Factor) : (s.setFactor f x).pending = s.pending := rfl
@[simp] theorem State.setFactor_draws (s : State) (f : Nat) (x : Factor) : (s.setFactor f x).draws = s.draws := rfl
@[simp] theorem State.setFactor_dramGen (s : State) (f : Nat) (x : Factor) : (s.setFactor f x).dramGen = s.dramGen := rfl
@[simp] theorem State.setFactor_nextId (s : State) (f : Nat) (x : Factor) : (s.setFactor f x).nextId = s.nextId := rfl
@[simp] theorem State.setFactor_nextTxn (s : State) (f : Nat) (x : Factor) : (s.setFactor f x).nextTxn = s.nextTxn := rfl
@[simp] theorem State.setFactor_flannelOn (s : State) (f : Nat) (x : Factor) : (s.setFactor f x).flannelOn = s.flannelOn := rfl
@[simp] theorem State.setFactor_up (s : State) (f : Nat) (x : Factor) : (s.setFactor f x).up = s.up := rfl
@[simp] theorem State.setFactor_mpRunning (s : State) (f : Nat) (x : Factor) : (s.setFactor f x).mpRunning = s.mpRunning := rfl
@[simp] theorem State.setFactor_probe (s : State) (f : Nat) (x : Factor) : (s.setFactor f x).probe = s.probe := rfl
@[simp] theorem State.setFactor_startPhase (s : State) (f : Nat) (x : Factor) : (s.setFactor f x).startPhase = s.startPhase := rfl
@[simp] theorem State.setFactor_vin (s : State) (f : Nat) (x : Factor) : (s.setFactor f x).vin = s.vin := rfl
@[simp] theorem State.setFactor_pin (s : State) (f : Nat) (x : Factor) : (s.setFactor f x).pin = s.pin := rfl
@[simp] theorem State.setFactor_iin (s : State) (f : Nat) (x : Factor) : (s.setFactor f x).iin = s.iin := rfl
@[simp] theorem State.setFactor_nv (s : State) (f : Nat) (x : Factor) : (s.setFactor f x).nv = s.nv := rfl
@[simp] theorem State.setFactor_lowSag (s : State) (f : Nat) (x : Factor) : (s.setFactor f x).lowSag = s.lowSag := rfl
@[simp] theorem State.setFactor_lowTherm (s : State) (f : Nat) (x : Factor) : (s.setFactor f x).lowTherm = s.lowTherm := rfl
@[simp] theorem State.setFactor_thermAlert (s : State) (f : Nat) (x : Factor) : (s.setFactor f x).thermAlert = s.thermAlert := rfl
@[simp] theorem State.setFactor_throttled (s : State) (f : Nat) (x : Factor) : (s.setFactor f x).throttled = s.throttled := rfl
@[simp] theorem State.setFactor_throttles (s : State) (f : Nat) (x : Factor) : (s.setFactor f x).throttles = s.throttles := rfl
@[simp] theorem State.setFactor_powerRun (s : State) (f : Nat) (x : Factor) : (s.setFactor f x).powerRun = s.powerRun := rfl
@[simp] theorem State.setFactor_calmRun (s : State) (f : Nat) (x : Factor) : (s.setFactor f x).calmRun = s.calmRun := rfl
@[simp] theorem State.setFactor_refRun (s : State) (f : Nat) (x : Factor) : (s.setFactor f x).refRun = s.refRun := rfl
@[simp] theorem State.setFactor_refclkLost (s : State) (f : Nat) (x : Factor) : (s.setFactor f x).refclkLost = s.refclkLost := rfl
@[simp] theorem State.setFactor_onOsc (s : State) (f : Nat) (x : Factor) : (s.setFactor f x).onOsc = s.onOsc := rfl
@[simp] theorem State.setFactor_perstN (s : State) (f : Nat) (x : Factor) : (s.setFactor f x).perstN = s.perstN := rfl
@[simp] theorem State.setFactor_modResetN (s : State) (f : Nat) (x : Factor) : (s.setFactor f x).modResetN = s.modResetN := rfl
@[simp] theorem State.setFactor_vinPg (s : State) (f : Nat) (x : Factor) : (s.setFactor f x).vinPg = s.vinPg := rfl
@[simp] theorem State.setFactor_pinSample (s : State) (f : Nat) (x : Factor) : (s.setFactor f x).pinSample = s.pinSample := rfl
@[simp] theorem State.setFactor_xspiOwn (s : State) (f : Nat) (x : Factor) : (s.setFactor f x).xspiOwn = s.xspiOwn := rfl
@[simp] theorem State.setFactor_flashHeld (s : State) (f : Nat) (x : Factor) : (s.setFactor f x).flashHeld = s.flashHeld := rfl
@[simp] theorem State.setFactor_tick (s : State) (f : Nat) (x : Factor) : (s.setFactor f x).tick = s.tick := rfl
@[simp] theorem State.setFactor_resetEnds (s : State) (f : Nat) (x : Factor) : (s.setFactor f x).resetEnds = s.resetEnds := rfl
@[simp] theorem State.setFactor_resetNode (s : State) (f : Nat) (x : Factor) : (s.setFactor f x).resetNode = s.resetNode := rfl
@[simp] theorem State.setFactor_resetMemory (s : State) (f : Nat) (x : Factor) : (s.setFactor f x).resetMemory = s.resetMemory := rfl
@[simp] theorem State.setFactor_startedAt (s : State) (f : Nat) (x : Factor) : (s.setFactor f x).startedAt = s.startedAt := rfl
@[simp] theorem State.setFactor_frac (s : State) (f : Nat) (x : Factor) : (s.setFactor f x).frac = s.frac := rfl
@[simp] theorem State.setFactor_stepped (s : State) (f : Nat) (x : Factor) : (s.setFactor f x).stepped = s.stepped := rfl
@[simp] theorem State.setFactor_everLocked (s : State) (f : Nat) (x : Factor) : (s.setFactor f x).everLocked = s.everLocked := rfl
@[simp] theorem State.setFactor_bootCount (s : State) (f : Nat) (x : Factor) : (s.setFactor f x).bootCount = s.bootCount := rfl
@[simp] theorem State.setFactor_log (s : State) (f : Nat) (x : Factor) : (s.setFactor f x).log = s.log := rfl
@[simp] theorem State.setFactor_handover (s : State) (f : Nat) (x : Factor) : (s.setFactor f x).handover = s.handover := rfl
@[simp] theorem State.setFactor_flash (s : State) (f : Nat) (x : Factor) : (s.setFactor f x).flash = s.flash := rfl
@[simp] theorem State.setFactor_deferred (s : State) (f : Nat) (x : Factor) : (s.setFactor f x).deferred = s.deferred := rfl
@[simp] theorem State.setFactor_fw (s : State) (f : Nat) (x : Factor) : (s.setFactor f x).fw = s.fw := rfl
@[simp] theorem State.setFactor_calico (s : State) (f : Nat) (x : Factor) : (s.setFactor f x).calico = s.calico := rfl
@[simp] theorem State.setFactor_swapped (s : State) (f : Nat) (x : Factor) : (s.setFactor f x).swapped = s.swapped := rfl
@[simp] theorem State.setFactor_absent (s : State) (f : Nat) (x : Factor) : (s.setFactor f x).absent = s.absent := rfl
@[simp] theorem State.setFactor_spareCores (s : State) (f : Nat) (x : Factor) : (s.setFactor f x).spareCores = s.spareCores := rfl
@[simp] theorem State.setFactor_remaps (s : State) (f : Nat) (x : Factor) : (s.setFactor f x).remaps = s.remaps := rfl
@[simp] theorem State.setFactor_engineMap (s : State) (f : Nat) (x : Factor) : (s.setFactor f x).engineMap = s.engineMap := rfl
@[simp] theorem State.setFactor_nearStacks (s : State) (f : Nat) (x : Factor) : (s.setFactor f x).nearStacks = s.nearStacks := rfl
@[simp] theorem State.setFactor_tiers (s : State) (f : Nat) (x : Factor) : (s.setFactor f x).tiers = s.tiers := rfl
@[simp] theorem State.setFactor_recal (s : State) (f : Nat) (x : Factor) : (s.setFactor f x).recal = s.recal := rfl
@[simp] theorem State.setFactor_domains (s : State) (f : Nat) (x : Factor) : (s.setFactor f x).domains = s.domains := rfl
@[simp] theorem State.setFactor_env (s : State) (f : Nat) (x : Factor) : (s.setFactor f x).env = s.env := rfl
@[simp] theorem State.setFactor_hif (s : State) (f : Nat) (x : Factor) : (s.setFactor f x).hif = s.hif := rfl
@[simp] theorem State.setFactor_sqs (s : State) (f : Nat) (x : Factor) : (s.setFactor f x).sqs = s.sqs := rfl
@[simp] theorem State.setFactor_cqs (s : State) (f : Nat) (x : Factor) : (s.setFactor f x).cqs = s.cqs := rfl
@[simp] theorem State.setFactor_lastServed (s : State) (f : Nat) (x : Factor) : (s.setFactor f x).lastServed = s.lastServed := rfl
@[simp] theorem State.setFactor_descs (s : State) (f : Nat) (x : Factor) : (s.setFactor f x).descs = s.descs := rfl
@[simp] theorem State.setFactor_txns (s : State) (f : Nat) (x : Factor) : (s.setFactor f x).txns = s.txns := rfl
@[simp] theorem State.setFactor_clusters (s : State) (f : Nat) (x : Factor) : (s.setFactor f x).clusters = s.clusters := rfl
@[simp] theorem State.setFactor_laneSeeds (s : State) (f : Nat) (x : Factor) : (s.setFactor f x).laneSeeds = s.laneSeeds := rfl
@[simp] theorem State.setFactor_mem (s : State) (f : Nat) (x : Factor) : (s.setFactor f x).mem = s.mem := rfl
@[simp] theorem State.setFactor_zeroed (s : State) (f : Nat) (x : Factor) : (s.setFactor f x).zeroed = s.zeroed := rfl
@[simp] theorem State.setFactor_scrub (s : State) (f : Nat) (x : Factor) : (s.setFactor f x).scrub = s.scrub := rfl
@[simp] theorem State.setFactor_scrLimits (s : State) (f : Nat) (x : Factor) : (s.setFactor f x).scrLimits = s.scrLimits := rfl
@[simp] theorem State.setFactor_dmk (s : State) (f : Nat) (x : Factor) : (s.setFactor f x).dmk = s.dmk := rfl
@[simp] theorem State.setFactor_seq (s : State) (f : Nat) (x : Factor) : (s.setFactor f x).seq = s.seq := rfl
@[simp] theorem State.setFactor_retire (s : State) (f : Nat) (x : Factor) : (s.setFactor f x).retire = s.retire := rfl
@[simp] theorem State.setFactor_stash (s : State) (f : Nat) (x : Factor) : (s.setFactor f x).stash = s.stash := rfl
@[simp] theorem State.setFactor_engines (s : State) (f : Nat) (x : Factor) : (s.setFactor f x).engines = s.engines := rfl
@[simp] theorem State.setFactor_offloads (s : State) (f : Nat) (x : Factor) : (s.setFactor f x).offloads = s.offloads := rfl
@[simp] theorem State.setFactor_grad (s : State) (f : Nat) (x : Factor) : (s.setFactor f x).grad = s.grad := rfl
@[simp] theorem State.setFactor_shard (s : State) (f : Nat) (x : Factor) : (s.setFactor f x).shard = s.shard := rfl
@[simp] theorem State.setFactor_ports (s : State) (f : Nat) (x : Factor) : (s.setFactor f x).ports = s.ports := rfl
@[simp] theorem State.setFactor_lostLinks (s : State) (f : Nat) (x : Factor) : (s.setFactor f x).lostLinks = s.lostLinks := rfl
@[simp] theorem State.setFactor_arrived (s : State) (f : Nat) (x : Factor) : (s.setFactor f x).arrived = s.arrived := rfl
@[simp] theorem State.setFactor_egress (s : State) (f : Nat) (x : Factor) : (s.setFactor f x).egress = s.egress := rfl

@[simp] theorem State.setBkt_pending (s : State) (b : Nat) (x : Bkt) : (s.setBkt b x).pending = s.pending := rfl
@[simp] theorem State.setBkt_draws (s : State) (b : Nat) (x : Bkt) : (s.setBkt b x).draws = s.draws := rfl
@[simp] theorem State.setBkt_dramGen (s : State) (b : Nat) (x : Bkt) : (s.setBkt b x).dramGen = s.dramGen := rfl
@[simp] theorem State.setBkt_nextId (s : State) (b : Nat) (x : Bkt) : (s.setBkt b x).nextId = s.nextId := rfl
@[simp] theorem State.setBkt_nextTxn (s : State) (b : Nat) (x : Bkt) : (s.setBkt b x).nextTxn = s.nextTxn := rfl
@[simp] theorem State.setBkt_flannelOn (s : State) (b : Nat) (x : Bkt) : (s.setBkt b x).flannelOn = s.flannelOn := rfl
@[simp] theorem State.setBkt_up (s : State) (b : Nat) (x : Bkt) : (s.setBkt b x).up = s.up := rfl
@[simp] theorem State.setBkt_mpRunning (s : State) (b : Nat) (x : Bkt) : (s.setBkt b x).mpRunning = s.mpRunning := rfl
@[simp] theorem State.setBkt_probe (s : State) (b : Nat) (x : Bkt) : (s.setBkt b x).probe = s.probe := rfl
@[simp] theorem State.setBkt_startPhase (s : State) (b : Nat) (x : Bkt) : (s.setBkt b x).startPhase = s.startPhase := rfl
@[simp] theorem State.setBkt_vin (s : State) (b : Nat) (x : Bkt) : (s.setBkt b x).vin = s.vin := rfl
@[simp] theorem State.setBkt_pin (s : State) (b : Nat) (x : Bkt) : (s.setBkt b x).pin = s.pin := rfl
@[simp] theorem State.setBkt_iin (s : State) (b : Nat) (x : Bkt) : (s.setBkt b x).iin = s.iin := rfl
@[simp] theorem State.setBkt_nv (s : State) (b : Nat) (x : Bkt) : (s.setBkt b x).nv = s.nv := rfl
@[simp] theorem State.setBkt_lowSag (s : State) (b : Nat) (x : Bkt) : (s.setBkt b x).lowSag = s.lowSag := rfl
@[simp] theorem State.setBkt_lowTherm (s : State) (b : Nat) (x : Bkt) : (s.setBkt b x).lowTherm = s.lowTherm := rfl
@[simp] theorem State.setBkt_thermAlert (s : State) (b : Nat) (x : Bkt) : (s.setBkt b x).thermAlert = s.thermAlert := rfl
@[simp] theorem State.setBkt_throttled (s : State) (b : Nat) (x : Bkt) : (s.setBkt b x).throttled = s.throttled := rfl
@[simp] theorem State.setBkt_throttles (s : State) (b : Nat) (x : Bkt) : (s.setBkt b x).throttles = s.throttles := rfl
@[simp] theorem State.setBkt_powerRun (s : State) (b : Nat) (x : Bkt) : (s.setBkt b x).powerRun = s.powerRun := rfl
@[simp] theorem State.setBkt_calmRun (s : State) (b : Nat) (x : Bkt) : (s.setBkt b x).calmRun = s.calmRun := rfl
@[simp] theorem State.setBkt_refRun (s : State) (b : Nat) (x : Bkt) : (s.setBkt b x).refRun = s.refRun := rfl
@[simp] theorem State.setBkt_refclkLost (s : State) (b : Nat) (x : Bkt) : (s.setBkt b x).refclkLost = s.refclkLost := rfl
@[simp] theorem State.setBkt_onOsc (s : State) (b : Nat) (x : Bkt) : (s.setBkt b x).onOsc = s.onOsc := rfl
@[simp] theorem State.setBkt_perstN (s : State) (b : Nat) (x : Bkt) : (s.setBkt b x).perstN = s.perstN := rfl
@[simp] theorem State.setBkt_modResetN (s : State) (b : Nat) (x : Bkt) : (s.setBkt b x).modResetN = s.modResetN := rfl
@[simp] theorem State.setBkt_vinPg (s : State) (b : Nat) (x : Bkt) : (s.setBkt b x).vinPg = s.vinPg := rfl
@[simp] theorem State.setBkt_pinSample (s : State) (b : Nat) (x : Bkt) : (s.setBkt b x).pinSample = s.pinSample := rfl
@[simp] theorem State.setBkt_xspiOwn (s : State) (b : Nat) (x : Bkt) : (s.setBkt b x).xspiOwn = s.xspiOwn := rfl
@[simp] theorem State.setBkt_flashHeld (s : State) (b : Nat) (x : Bkt) : (s.setBkt b x).flashHeld = s.flashHeld := rfl
@[simp] theorem State.setBkt_tick (s : State) (b : Nat) (x : Bkt) : (s.setBkt b x).tick = s.tick := rfl
@[simp] theorem State.setBkt_resetEnds (s : State) (b : Nat) (x : Bkt) : (s.setBkt b x).resetEnds = s.resetEnds := rfl
@[simp] theorem State.setBkt_resetNode (s : State) (b : Nat) (x : Bkt) : (s.setBkt b x).resetNode = s.resetNode := rfl
@[simp] theorem State.setBkt_resetMemory (s : State) (b : Nat) (x : Bkt) : (s.setBkt b x).resetMemory = s.resetMemory := rfl
@[simp] theorem State.setBkt_startedAt (s : State) (b : Nat) (x : Bkt) : (s.setBkt b x).startedAt = s.startedAt := rfl
@[simp] theorem State.setBkt_frac (s : State) (b : Nat) (x : Bkt) : (s.setBkt b x).frac = s.frac := rfl
@[simp] theorem State.setBkt_stepped (s : State) (b : Nat) (x : Bkt) : (s.setBkt b x).stepped = s.stepped := rfl
@[simp] theorem State.setBkt_everLocked (s : State) (b : Nat) (x : Bkt) : (s.setBkt b x).everLocked = s.everLocked := rfl
@[simp] theorem State.setBkt_bootCount (s : State) (b : Nat) (x : Bkt) : (s.setBkt b x).bootCount = s.bootCount := rfl
@[simp] theorem State.setBkt_log (s : State) (b : Nat) (x : Bkt) : (s.setBkt b x).log = s.log := rfl
@[simp] theorem State.setBkt_handover (s : State) (b : Nat) (x : Bkt) : (s.setBkt b x).handover = s.handover := rfl
@[simp] theorem State.setBkt_flash (s : State) (b : Nat) (x : Bkt) : (s.setBkt b x).flash = s.flash := rfl
@[simp] theorem State.setBkt_deferred (s : State) (b : Nat) (x : Bkt) : (s.setBkt b x).deferred = s.deferred := rfl
@[simp] theorem State.setBkt_fw (s : State) (b : Nat) (x : Bkt) : (s.setBkt b x).fw = s.fw := rfl
@[simp] theorem State.setBkt_calico (s : State) (b : Nat) (x : Bkt) : (s.setBkt b x).calico = s.calico := rfl
@[simp] theorem State.setBkt_swapped (s : State) (b : Nat) (x : Bkt) : (s.setBkt b x).swapped = s.swapped := rfl
@[simp] theorem State.setBkt_absent (s : State) (b : Nat) (x : Bkt) : (s.setBkt b x).absent = s.absent := rfl
@[simp] theorem State.setBkt_spareCores (s : State) (b : Nat) (x : Bkt) : (s.setBkt b x).spareCores = s.spareCores := rfl
@[simp] theorem State.setBkt_remaps (s : State) (b : Nat) (x : Bkt) : (s.setBkt b x).remaps = s.remaps := rfl
@[simp] theorem State.setBkt_engineMap (s : State) (b : Nat) (x : Bkt) : (s.setBkt b x).engineMap = s.engineMap := rfl
@[simp] theorem State.setBkt_nearStacks (s : State) (b : Nat) (x : Bkt) : (s.setBkt b x).nearStacks = s.nearStacks := rfl
@[simp] theorem State.setBkt_tiers (s : State) (b : Nat) (x : Bkt) : (s.setBkt b x).tiers = s.tiers := rfl
@[simp] theorem State.setBkt_recal (s : State) (b : Nat) (x : Bkt) : (s.setBkt b x).recal = s.recal := rfl
@[simp] theorem State.setBkt_domains (s : State) (b : Nat) (x : Bkt) : (s.setBkt b x).domains = s.domains := rfl
@[simp] theorem State.setBkt_env (s : State) (b : Nat) (x : Bkt) : (s.setBkt b x).env = s.env := rfl
@[simp] theorem State.setBkt_hif (s : State) (b : Nat) (x : Bkt) : (s.setBkt b x).hif = s.hif := rfl
@[simp] theorem State.setBkt_sqs (s : State) (b : Nat) (x : Bkt) : (s.setBkt b x).sqs = s.sqs := rfl
@[simp] theorem State.setBkt_cqs (s : State) (b : Nat) (x : Bkt) : (s.setBkt b x).cqs = s.cqs := rfl
@[simp] theorem State.setBkt_lastServed (s : State) (b : Nat) (x : Bkt) : (s.setBkt b x).lastServed = s.lastServed := rfl
@[simp] theorem State.setBkt_descs (s : State) (b : Nat) (x : Bkt) : (s.setBkt b x).descs = s.descs := rfl
@[simp] theorem State.setBkt_txns (s : State) (b : Nat) (x : Bkt) : (s.setBkt b x).txns = s.txns := rfl
@[simp] theorem State.setBkt_clusters (s : State) (b : Nat) (x : Bkt) : (s.setBkt b x).clusters = s.clusters := rfl
@[simp] theorem State.setBkt_laneSeeds (s : State) (b : Nat) (x : Bkt) : (s.setBkt b x).laneSeeds = s.laneSeeds := rfl
@[simp] theorem State.setBkt_mem (s : State) (b : Nat) (x : Bkt) : (s.setBkt b x).mem = s.mem := rfl
@[simp] theorem State.setBkt_zeroed (s : State) (b : Nat) (x : Bkt) : (s.setBkt b x).zeroed = s.zeroed := rfl
@[simp] theorem State.setBkt_scrub (s : State) (b : Nat) (x : Bkt) : (s.setBkt b x).scrub = s.scrub := rfl
@[simp] theorem State.setBkt_scrLimits (s : State) (b : Nat) (x : Bkt) : (s.setBkt b x).scrLimits = s.scrLimits := rfl
@[simp] theorem State.setBkt_dmk (s : State) (b : Nat) (x : Bkt) : (s.setBkt b x).dmk = s.dmk := rfl
@[simp] theorem State.setBkt_seq (s : State) (b : Nat) (x : Bkt) : (s.setBkt b x).seq = s.seq := rfl
@[simp] theorem State.setBkt_retire (s : State) (b : Nat) (x : Bkt) : (s.setBkt b x).retire = s.retire := rfl
@[simp] theorem State.setBkt_stash (s : State) (b : Nat) (x : Bkt) : (s.setBkt b x).stash = s.stash := rfl
@[simp] theorem State.setBkt_engines (s : State) (b : Nat) (x : Bkt) : (s.setBkt b x).engines = s.engines := rfl
@[simp] theorem State.setBkt_offloads (s : State) (b : Nat) (x : Bkt) : (s.setBkt b x).offloads = s.offloads := rfl
@[simp] theorem State.setBkt_factors (s : State) (b : Nat) (x : Bkt) : (s.setBkt b x).factors = s.factors := rfl
@[simp] theorem State.setBkt_shard (s : State) (b : Nat) (x : Bkt) : (s.setBkt b x).shard = s.shard := rfl
@[simp] theorem State.setBkt_ports (s : State) (b : Nat) (x : Bkt) : (s.setBkt b x).ports = s.ports := rfl
@[simp] theorem State.setBkt_lostLinks (s : State) (b : Nat) (x : Bkt) : (s.setBkt b x).lostLinks = s.lostLinks := rfl
@[simp] theorem State.setBkt_arrived (s : State) (b : Nat) (x : Bkt) : (s.setBkt b x).arrived = s.arrived := rfl
@[simp] theorem State.setBkt_egress (s : State) (b : Nat) (x : Bkt) : (s.setBkt b x).egress = s.egress := rfl

@[simp] theorem State.setScrub_pending (s : State) (u : Nat) (x : Scrub) : (s.setScrub u x).pending = s.pending := rfl
@[simp] theorem State.setScrub_draws (s : State) (u : Nat) (x : Scrub) : (s.setScrub u x).draws = s.draws := rfl
@[simp] theorem State.setScrub_dramGen (s : State) (u : Nat) (x : Scrub) : (s.setScrub u x).dramGen = s.dramGen := rfl
@[simp] theorem State.setScrub_nextId (s : State) (u : Nat) (x : Scrub) : (s.setScrub u x).nextId = s.nextId := rfl
@[simp] theorem State.setScrub_nextTxn (s : State) (u : Nat) (x : Scrub) : (s.setScrub u x).nextTxn = s.nextTxn := rfl
@[simp] theorem State.setScrub_flannelOn (s : State) (u : Nat) (x : Scrub) : (s.setScrub u x).flannelOn = s.flannelOn := rfl
@[simp] theorem State.setScrub_up (s : State) (u : Nat) (x : Scrub) : (s.setScrub u x).up = s.up := rfl
@[simp] theorem State.setScrub_mpRunning (s : State) (u : Nat) (x : Scrub) : (s.setScrub u x).mpRunning = s.mpRunning := rfl
@[simp] theorem State.setScrub_probe (s : State) (u : Nat) (x : Scrub) : (s.setScrub u x).probe = s.probe := rfl
@[simp] theorem State.setScrub_startPhase (s : State) (u : Nat) (x : Scrub) : (s.setScrub u x).startPhase = s.startPhase := rfl
@[simp] theorem State.setScrub_vin (s : State) (u : Nat) (x : Scrub) : (s.setScrub u x).vin = s.vin := rfl
@[simp] theorem State.setScrub_pin (s : State) (u : Nat) (x : Scrub) : (s.setScrub u x).pin = s.pin := rfl
@[simp] theorem State.setScrub_iin (s : State) (u : Nat) (x : Scrub) : (s.setScrub u x).iin = s.iin := rfl
@[simp] theorem State.setScrub_nv (s : State) (u : Nat) (x : Scrub) : (s.setScrub u x).nv = s.nv := rfl
@[simp] theorem State.setScrub_lowSag (s : State) (u : Nat) (x : Scrub) : (s.setScrub u x).lowSag = s.lowSag := rfl
@[simp] theorem State.setScrub_lowTherm (s : State) (u : Nat) (x : Scrub) : (s.setScrub u x).lowTherm = s.lowTherm := rfl
@[simp] theorem State.setScrub_thermAlert (s : State) (u : Nat) (x : Scrub) : (s.setScrub u x).thermAlert = s.thermAlert := rfl
@[simp] theorem State.setScrub_throttled (s : State) (u : Nat) (x : Scrub) : (s.setScrub u x).throttled = s.throttled := rfl
@[simp] theorem State.setScrub_throttles (s : State) (u : Nat) (x : Scrub) : (s.setScrub u x).throttles = s.throttles := rfl
@[simp] theorem State.setScrub_powerRun (s : State) (u : Nat) (x : Scrub) : (s.setScrub u x).powerRun = s.powerRun := rfl
@[simp] theorem State.setScrub_calmRun (s : State) (u : Nat) (x : Scrub) : (s.setScrub u x).calmRun = s.calmRun := rfl
@[simp] theorem State.setScrub_refRun (s : State) (u : Nat) (x : Scrub) : (s.setScrub u x).refRun = s.refRun := rfl
@[simp] theorem State.setScrub_refclkLost (s : State) (u : Nat) (x : Scrub) : (s.setScrub u x).refclkLost = s.refclkLost := rfl
@[simp] theorem State.setScrub_onOsc (s : State) (u : Nat) (x : Scrub) : (s.setScrub u x).onOsc = s.onOsc := rfl
@[simp] theorem State.setScrub_perstN (s : State) (u : Nat) (x : Scrub) : (s.setScrub u x).perstN = s.perstN := rfl
@[simp] theorem State.setScrub_modResetN (s : State) (u : Nat) (x : Scrub) : (s.setScrub u x).modResetN = s.modResetN := rfl
@[simp] theorem State.setScrub_vinPg (s : State) (u : Nat) (x : Scrub) : (s.setScrub u x).vinPg = s.vinPg := rfl
@[simp] theorem State.setScrub_pinSample (s : State) (u : Nat) (x : Scrub) : (s.setScrub u x).pinSample = s.pinSample := rfl
@[simp] theorem State.setScrub_xspiOwn (s : State) (u : Nat) (x : Scrub) : (s.setScrub u x).xspiOwn = s.xspiOwn := rfl
@[simp] theorem State.setScrub_flashHeld (s : State) (u : Nat) (x : Scrub) : (s.setScrub u x).flashHeld = s.flashHeld := rfl
@[simp] theorem State.setScrub_tick (s : State) (u : Nat) (x : Scrub) : (s.setScrub u x).tick = s.tick := rfl
@[simp] theorem State.setScrub_resetEnds (s : State) (u : Nat) (x : Scrub) : (s.setScrub u x).resetEnds = s.resetEnds := rfl
@[simp] theorem State.setScrub_resetNode (s : State) (u : Nat) (x : Scrub) : (s.setScrub u x).resetNode = s.resetNode := rfl
@[simp] theorem State.setScrub_resetMemory (s : State) (u : Nat) (x : Scrub) : (s.setScrub u x).resetMemory = s.resetMemory := rfl
@[simp] theorem State.setScrub_startedAt (s : State) (u : Nat) (x : Scrub) : (s.setScrub u x).startedAt = s.startedAt := rfl
@[simp] theorem State.setScrub_frac (s : State) (u : Nat) (x : Scrub) : (s.setScrub u x).frac = s.frac := rfl
@[simp] theorem State.setScrub_stepped (s : State) (u : Nat) (x : Scrub) : (s.setScrub u x).stepped = s.stepped := rfl
@[simp] theorem State.setScrub_everLocked (s : State) (u : Nat) (x : Scrub) : (s.setScrub u x).everLocked = s.everLocked := rfl
@[simp] theorem State.setScrub_bootCount (s : State) (u : Nat) (x : Scrub) : (s.setScrub u x).bootCount = s.bootCount := rfl
@[simp] theorem State.setScrub_log (s : State) (u : Nat) (x : Scrub) : (s.setScrub u x).log = s.log := rfl
@[simp] theorem State.setScrub_handover (s : State) (u : Nat) (x : Scrub) : (s.setScrub u x).handover = s.handover := rfl
@[simp] theorem State.setScrub_flash (s : State) (u : Nat) (x : Scrub) : (s.setScrub u x).flash = s.flash := rfl
@[simp] theorem State.setScrub_deferred (s : State) (u : Nat) (x : Scrub) : (s.setScrub u x).deferred = s.deferred := rfl
@[simp] theorem State.setScrub_fw (s : State) (u : Nat) (x : Scrub) : (s.setScrub u x).fw = s.fw := rfl
@[simp] theorem State.setScrub_calico (s : State) (u : Nat) (x : Scrub) : (s.setScrub u x).calico = s.calico := rfl
@[simp] theorem State.setScrub_swapped (s : State) (u : Nat) (x : Scrub) : (s.setScrub u x).swapped = s.swapped := rfl
@[simp] theorem State.setScrub_absent (s : State) (u : Nat) (x : Scrub) : (s.setScrub u x).absent = s.absent := rfl
@[simp] theorem State.setScrub_spareCores (s : State) (u : Nat) (x : Scrub) : (s.setScrub u x).spareCores = s.spareCores := rfl
@[simp] theorem State.setScrub_remaps (s : State) (u : Nat) (x : Scrub) : (s.setScrub u x).remaps = s.remaps := rfl
@[simp] theorem State.setScrub_engineMap (s : State) (u : Nat) (x : Scrub) : (s.setScrub u x).engineMap = s.engineMap := rfl
@[simp] theorem State.setScrub_nearStacks (s : State) (u : Nat) (x : Scrub) : (s.setScrub u x).nearStacks = s.nearStacks := rfl
@[simp] theorem State.setScrub_tiers (s : State) (u : Nat) (x : Scrub) : (s.setScrub u x).tiers = s.tiers := rfl
@[simp] theorem State.setScrub_recal (s : State) (u : Nat) (x : Scrub) : (s.setScrub u x).recal = s.recal := rfl
@[simp] theorem State.setScrub_domains (s : State) (u : Nat) (x : Scrub) : (s.setScrub u x).domains = s.domains := rfl
@[simp] theorem State.setScrub_env (s : State) (u : Nat) (x : Scrub) : (s.setScrub u x).env = s.env := rfl
@[simp] theorem State.setScrub_hif (s : State) (u : Nat) (x : Scrub) : (s.setScrub u x).hif = s.hif := rfl
@[simp] theorem State.setScrub_sqs (s : State) (u : Nat) (x : Scrub) : (s.setScrub u x).sqs = s.sqs := rfl
@[simp] theorem State.setScrub_cqs (s : State) (u : Nat) (x : Scrub) : (s.setScrub u x).cqs = s.cqs := rfl
@[simp] theorem State.setScrub_lastServed (s : State) (u : Nat) (x : Scrub) : (s.setScrub u x).lastServed = s.lastServed := rfl
@[simp] theorem State.setScrub_descs (s : State) (u : Nat) (x : Scrub) : (s.setScrub u x).descs = s.descs := rfl
@[simp] theorem State.setScrub_txns (s : State) (u : Nat) (x : Scrub) : (s.setScrub u x).txns = s.txns := rfl
@[simp] theorem State.setScrub_clusters (s : State) (u : Nat) (x : Scrub) : (s.setScrub u x).clusters = s.clusters := rfl
@[simp] theorem State.setScrub_laneSeeds (s : State) (u : Nat) (x : Scrub) : (s.setScrub u x).laneSeeds = s.laneSeeds := rfl
@[simp] theorem State.setScrub_mem (s : State) (u : Nat) (x : Scrub) : (s.setScrub u x).mem = s.mem := rfl
@[simp] theorem State.setScrub_zeroed (s : State) (u : Nat) (x : Scrub) : (s.setScrub u x).zeroed = s.zeroed := rfl
@[simp] theorem State.setScrub_scrLimits (s : State) (u : Nat) (x : Scrub) : (s.setScrub u x).scrLimits = s.scrLimits := rfl
@[simp] theorem State.setScrub_dmk (s : State) (u : Nat) (x : Scrub) : (s.setScrub u x).dmk = s.dmk := rfl
@[simp] theorem State.setScrub_seq (s : State) (u : Nat) (x : Scrub) : (s.setScrub u x).seq = s.seq := rfl
@[simp] theorem State.setScrub_retire (s : State) (u : Nat) (x : Scrub) : (s.setScrub u x).retire = s.retire := rfl
@[simp] theorem State.setScrub_stash (s : State) (u : Nat) (x : Scrub) : (s.setScrub u x).stash = s.stash := rfl
@[simp] theorem State.setScrub_engines (s : State) (u : Nat) (x : Scrub) : (s.setScrub u x).engines = s.engines := rfl
@[simp] theorem State.setScrub_offloads (s : State) (u : Nat) (x : Scrub) : (s.setScrub u x).offloads = s.offloads := rfl
@[simp] theorem State.setScrub_factors (s : State) (u : Nat) (x : Scrub) : (s.setScrub u x).factors = s.factors := rfl
@[simp] theorem State.setScrub_grad (s : State) (u : Nat) (x : Scrub) : (s.setScrub u x).grad = s.grad := rfl
@[simp] theorem State.setScrub_shard (s : State) (u : Nat) (x : Scrub) : (s.setScrub u x).shard = s.shard := rfl
@[simp] theorem State.setScrub_ports (s : State) (u : Nat) (x : Scrub) : (s.setScrub u x).ports = s.ports := rfl
@[simp] theorem State.setScrub_lostLinks (s : State) (u : Nat) (x : Scrub) : (s.setScrub u x).lostLinks = s.lostLinks := rfl
@[simp] theorem State.setScrub_arrived (s : State) (u : Nat) (x : Scrub) : (s.setScrub u x).arrived = s.arrived := rfl
@[simp] theorem State.setScrub_egress (s : State) (u : Nat) (x : Scrub) : (s.setScrub u x).egress = s.egress := rfl

@[simp] theorem State.setWork_pending (s : State) (id : Nat) (w : Work) : (s.setWork id w).pending = s.pending := rfl
@[simp] theorem State.setWork_draws (s : State) (id : Nat) (w : Work) : (s.setWork id w).draws = s.draws := rfl
@[simp] theorem State.setWork_dramGen (s : State) (id : Nat) (w : Work) : (s.setWork id w).dramGen = s.dramGen := rfl
@[simp] theorem State.setWork_nextId (s : State) (id : Nat) (w : Work) : (s.setWork id w).nextId = s.nextId := rfl
@[simp] theorem State.setWork_nextTxn (s : State) (id : Nat) (w : Work) : (s.setWork id w).nextTxn = s.nextTxn := rfl
@[simp] theorem State.setWork_flannelOn (s : State) (id : Nat) (w : Work) : (s.setWork id w).flannelOn = s.flannelOn := rfl
@[simp] theorem State.setWork_up (s : State) (id : Nat) (w : Work) : (s.setWork id w).up = s.up := rfl
@[simp] theorem State.setWork_mpRunning (s : State) (id : Nat) (w : Work) : (s.setWork id w).mpRunning = s.mpRunning := rfl
@[simp] theorem State.setWork_probe (s : State) (id : Nat) (w : Work) : (s.setWork id w).probe = s.probe := rfl
@[simp] theorem State.setWork_startPhase (s : State) (id : Nat) (w : Work) : (s.setWork id w).startPhase = s.startPhase := rfl
@[simp] theorem State.setWork_vin (s : State) (id : Nat) (w : Work) : (s.setWork id w).vin = s.vin := rfl
@[simp] theorem State.setWork_pin (s : State) (id : Nat) (w : Work) : (s.setWork id w).pin = s.pin := rfl
@[simp] theorem State.setWork_iin (s : State) (id : Nat) (w : Work) : (s.setWork id w).iin = s.iin := rfl
@[simp] theorem State.setWork_nv (s : State) (id : Nat) (w : Work) : (s.setWork id w).nv = s.nv := rfl
@[simp] theorem State.setWork_lowSag (s : State) (id : Nat) (w : Work) : (s.setWork id w).lowSag = s.lowSag := rfl
@[simp] theorem State.setWork_lowTherm (s : State) (id : Nat) (w : Work) : (s.setWork id w).lowTherm = s.lowTherm := rfl
@[simp] theorem State.setWork_thermAlert (s : State) (id : Nat) (w : Work) : (s.setWork id w).thermAlert = s.thermAlert := rfl
@[simp] theorem State.setWork_throttled (s : State) (id : Nat) (w : Work) : (s.setWork id w).throttled = s.throttled := rfl
@[simp] theorem State.setWork_throttles (s : State) (id : Nat) (w : Work) : (s.setWork id w).throttles = s.throttles := rfl
@[simp] theorem State.setWork_powerRun (s : State) (id : Nat) (w : Work) : (s.setWork id w).powerRun = s.powerRun := rfl
@[simp] theorem State.setWork_calmRun (s : State) (id : Nat) (w : Work) : (s.setWork id w).calmRun = s.calmRun := rfl
@[simp] theorem State.setWork_refRun (s : State) (id : Nat) (w : Work) : (s.setWork id w).refRun = s.refRun := rfl
@[simp] theorem State.setWork_refclkLost (s : State) (id : Nat) (w : Work) : (s.setWork id w).refclkLost = s.refclkLost := rfl
@[simp] theorem State.setWork_onOsc (s : State) (id : Nat) (w : Work) : (s.setWork id w).onOsc = s.onOsc := rfl
@[simp] theorem State.setWork_perstN (s : State) (id : Nat) (w : Work) : (s.setWork id w).perstN = s.perstN := rfl
@[simp] theorem State.setWork_modResetN (s : State) (id : Nat) (w : Work) : (s.setWork id w).modResetN = s.modResetN := rfl
@[simp] theorem State.setWork_vinPg (s : State) (id : Nat) (w : Work) : (s.setWork id w).vinPg = s.vinPg := rfl
@[simp] theorem State.setWork_pinSample (s : State) (id : Nat) (w : Work) : (s.setWork id w).pinSample = s.pinSample := rfl
@[simp] theorem State.setWork_xspiOwn (s : State) (id : Nat) (w : Work) : (s.setWork id w).xspiOwn = s.xspiOwn := rfl
@[simp] theorem State.setWork_flashHeld (s : State) (id : Nat) (w : Work) : (s.setWork id w).flashHeld = s.flashHeld := rfl
@[simp] theorem State.setWork_tick (s : State) (id : Nat) (w : Work) : (s.setWork id w).tick = s.tick := rfl
@[simp] theorem State.setWork_resetEnds (s : State) (id : Nat) (w : Work) : (s.setWork id w).resetEnds = s.resetEnds := rfl
@[simp] theorem State.setWork_resetNode (s : State) (id : Nat) (w : Work) : (s.setWork id w).resetNode = s.resetNode := rfl
@[simp] theorem State.setWork_resetMemory (s : State) (id : Nat) (w : Work) : (s.setWork id w).resetMemory = s.resetMemory := rfl
@[simp] theorem State.setWork_startedAt (s : State) (id : Nat) (w : Work) : (s.setWork id w).startedAt = s.startedAt := rfl
@[simp] theorem State.setWork_frac (s : State) (id : Nat) (w : Work) : (s.setWork id w).frac = s.frac := rfl
@[simp] theorem State.setWork_stepped (s : State) (id : Nat) (w : Work) : (s.setWork id w).stepped = s.stepped := rfl
@[simp] theorem State.setWork_everLocked (s : State) (id : Nat) (w : Work) : (s.setWork id w).everLocked = s.everLocked := rfl
@[simp] theorem State.setWork_bootCount (s : State) (id : Nat) (w : Work) : (s.setWork id w).bootCount = s.bootCount := rfl
@[simp] theorem State.setWork_log (s : State) (id : Nat) (w : Work) : (s.setWork id w).log = s.log := rfl
@[simp] theorem State.setWork_handover (s : State) (id : Nat) (w : Work) : (s.setWork id w).handover = s.handover := rfl
@[simp] theorem State.setWork_flash (s : State) (id : Nat) (w : Work) : (s.setWork id w).flash = s.flash := rfl
@[simp] theorem State.setWork_deferred (s : State) (id : Nat) (w : Work) : (s.setWork id w).deferred = s.deferred := rfl
@[simp] theorem State.setWork_fw (s : State) (id : Nat) (w : Work) : (s.setWork id w).fw = s.fw := rfl
@[simp] theorem State.setWork_calico (s : State) (id : Nat) (w : Work) : (s.setWork id w).calico = s.calico := rfl
@[simp] theorem State.setWork_swapped (s : State) (id : Nat) (w : Work) : (s.setWork id w).swapped = s.swapped := rfl
@[simp] theorem State.setWork_absent (s : State) (id : Nat) (w : Work) : (s.setWork id w).absent = s.absent := rfl
@[simp] theorem State.setWork_spareCores (s : State) (id : Nat) (w : Work) : (s.setWork id w).spareCores = s.spareCores := rfl
@[simp] theorem State.setWork_remaps (s : State) (id : Nat) (w : Work) : (s.setWork id w).remaps = s.remaps := rfl
@[simp] theorem State.setWork_engineMap (s : State) (id : Nat) (w : Work) : (s.setWork id w).engineMap = s.engineMap := rfl
@[simp] theorem State.setWork_nearStacks (s : State) (id : Nat) (w : Work) : (s.setWork id w).nearStacks = s.nearStacks := rfl
@[simp] theorem State.setWork_tiers (s : State) (id : Nat) (w : Work) : (s.setWork id w).tiers = s.tiers := rfl
@[simp] theorem State.setWork_recal (s : State) (id : Nat) (w : Work) : (s.setWork id w).recal = s.recal := rfl
@[simp] theorem State.setWork_domains (s : State) (id : Nat) (w : Work) : (s.setWork id w).domains = s.domains := rfl
@[simp] theorem State.setWork_env (s : State) (id : Nat) (w : Work) : (s.setWork id w).env = s.env := rfl
@[simp] theorem State.setWork_hif (s : State) (id : Nat) (w : Work) : (s.setWork id w).hif = s.hif := rfl
@[simp] theorem State.setWork_sqs (s : State) (id : Nat) (w : Work) : (s.setWork id w).sqs = s.sqs := rfl
@[simp] theorem State.setWork_cqs (s : State) (id : Nat) (w : Work) : (s.setWork id w).cqs = s.cqs := rfl
@[simp] theorem State.setWork_lastServed (s : State) (id : Nat) (w : Work) : (s.setWork id w).lastServed = s.lastServed := rfl
@[simp] theorem State.setWork_txns (s : State) (id : Nat) (w : Work) : (s.setWork id w).txns = s.txns := rfl
@[simp] theorem State.setWork_clusters (s : State) (id : Nat) (w : Work) : (s.setWork id w).clusters = s.clusters := rfl
@[simp] theorem State.setWork_laneSeeds (s : State) (id : Nat) (w : Work) : (s.setWork id w).laneSeeds = s.laneSeeds := rfl
@[simp] theorem State.setWork_mem (s : State) (id : Nat) (w : Work) : (s.setWork id w).mem = s.mem := rfl
@[simp] theorem State.setWork_zeroed (s : State) (id : Nat) (w : Work) : (s.setWork id w).zeroed = s.zeroed := rfl
@[simp] theorem State.setWork_scrub (s : State) (id : Nat) (w : Work) : (s.setWork id w).scrub = s.scrub := rfl
@[simp] theorem State.setWork_scrLimits (s : State) (id : Nat) (w : Work) : (s.setWork id w).scrLimits = s.scrLimits := rfl
@[simp] theorem State.setWork_dmk (s : State) (id : Nat) (w : Work) : (s.setWork id w).dmk = s.dmk := rfl
@[simp] theorem State.setWork_seq (s : State) (id : Nat) (w : Work) : (s.setWork id w).seq = s.seq := rfl
@[simp] theorem State.setWork_retire (s : State) (id : Nat) (w : Work) : (s.setWork id w).retire = s.retire := rfl
@[simp] theorem State.setWork_stash (s : State) (id : Nat) (w : Work) : (s.setWork id w).stash = s.stash := rfl
@[simp] theorem State.setWork_engines (s : State) (id : Nat) (w : Work) : (s.setWork id w).engines = s.engines := rfl
@[simp] theorem State.setWork_offloads (s : State) (id : Nat) (w : Work) : (s.setWork id w).offloads = s.offloads := rfl
@[simp] theorem State.setWork_factors (s : State) (id : Nat) (w : Work) : (s.setWork id w).factors = s.factors := rfl
@[simp] theorem State.setWork_grad (s : State) (id : Nat) (w : Work) : (s.setWork id w).grad = s.grad := rfl
@[simp] theorem State.setWork_shard (s : State) (id : Nat) (w : Work) : (s.setWork id w).shard = s.shard := rfl
@[simp] theorem State.setWork_ports (s : State) (id : Nat) (w : Work) : (s.setWork id w).ports = s.ports := rfl
@[simp] theorem State.setWork_lostLinks (s : State) (id : Nat) (w : Work) : (s.setWork id w).lostLinks = s.lostLinks := rfl
@[simp] theorem State.setWork_arrived (s : State) (id : Nat) (w : Work) : (s.setWork id w).arrived = s.arrived := rfl
@[simp] theorem State.setWork_egress (s : State) (id : Nat) (w : Work) : (s.setWork id w).egress = s.egress := rfl

@[simp] theorem State.attn_pending (s : State) (i : Nat) : (s.attn i).pending = s.pending := rfl
@[simp] theorem State.attn_draws (s : State) (i : Nat) : (s.attn i).draws = s.draws := rfl
@[simp] theorem State.attn_dramGen (s : State) (i : Nat) : (s.attn i).dramGen = s.dramGen := rfl
@[simp] theorem State.attn_nextId (s : State) (i : Nat) : (s.attn i).nextId = s.nextId := rfl
@[simp] theorem State.attn_nextTxn (s : State) (i : Nat) : (s.attn i).nextTxn = s.nextTxn := rfl
@[simp] theorem State.attn_flannelOn (s : State) (i : Nat) : (s.attn i).flannelOn = s.flannelOn := rfl
@[simp] theorem State.attn_up (s : State) (i : Nat) : (s.attn i).up = s.up := rfl
@[simp] theorem State.attn_mpRunning (s : State) (i : Nat) : (s.attn i).mpRunning = s.mpRunning := rfl
@[simp] theorem State.attn_probe (s : State) (i : Nat) : (s.attn i).probe = s.probe := rfl
@[simp] theorem State.attn_startPhase (s : State) (i : Nat) : (s.attn i).startPhase = s.startPhase := rfl
@[simp] theorem State.attn_vin (s : State) (i : Nat) : (s.attn i).vin = s.vin := rfl
@[simp] theorem State.attn_pin (s : State) (i : Nat) : (s.attn i).pin = s.pin := rfl
@[simp] theorem State.attn_iin (s : State) (i : Nat) : (s.attn i).iin = s.iin := rfl
@[simp] theorem State.attn_nv (s : State) (i : Nat) : (s.attn i).nv = s.nv := rfl
@[simp] theorem State.attn_lowSag (s : State) (i : Nat) : (s.attn i).lowSag = s.lowSag := rfl
@[simp] theorem State.attn_lowTherm (s : State) (i : Nat) : (s.attn i).lowTherm = s.lowTherm := rfl
@[simp] theorem State.attn_thermAlert (s : State) (i : Nat) : (s.attn i).thermAlert = s.thermAlert := rfl
@[simp] theorem State.attn_throttled (s : State) (i : Nat) : (s.attn i).throttled = s.throttled := rfl
@[simp] theorem State.attn_throttles (s : State) (i : Nat) : (s.attn i).throttles = s.throttles := rfl
@[simp] theorem State.attn_powerRun (s : State) (i : Nat) : (s.attn i).powerRun = s.powerRun := rfl
@[simp] theorem State.attn_calmRun (s : State) (i : Nat) : (s.attn i).calmRun = s.calmRun := rfl
@[simp] theorem State.attn_refRun (s : State) (i : Nat) : (s.attn i).refRun = s.refRun := rfl
@[simp] theorem State.attn_refclkLost (s : State) (i : Nat) : (s.attn i).refclkLost = s.refclkLost := rfl
@[simp] theorem State.attn_onOsc (s : State) (i : Nat) : (s.attn i).onOsc = s.onOsc := rfl
@[simp] theorem State.attn_perstN (s : State) (i : Nat) : (s.attn i).perstN = s.perstN := rfl
@[simp] theorem State.attn_modResetN (s : State) (i : Nat) : (s.attn i).modResetN = s.modResetN := rfl
@[simp] theorem State.attn_vinPg (s : State) (i : Nat) : (s.attn i).vinPg = s.vinPg := rfl
@[simp] theorem State.attn_pinSample (s : State) (i : Nat) : (s.attn i).pinSample = s.pinSample := rfl
@[simp] theorem State.attn_xspiOwn (s : State) (i : Nat) : (s.attn i).xspiOwn = s.xspiOwn := rfl
@[simp] theorem State.attn_flashHeld (s : State) (i : Nat) : (s.attn i).flashHeld = s.flashHeld := rfl
@[simp] theorem State.attn_tick (s : State) (i : Nat) : (s.attn i).tick = s.tick := rfl
@[simp] theorem State.attn_resetEnds (s : State) (i : Nat) : (s.attn i).resetEnds = s.resetEnds := rfl
@[simp] theorem State.attn_resetNode (s : State) (i : Nat) : (s.attn i).resetNode = s.resetNode := rfl
@[simp] theorem State.attn_resetMemory (s : State) (i : Nat) : (s.attn i).resetMemory = s.resetMemory := rfl
@[simp] theorem State.attn_startedAt (s : State) (i : Nat) : (s.attn i).startedAt = s.startedAt := rfl
@[simp] theorem State.attn_frac (s : State) (i : Nat) : (s.attn i).frac = s.frac := rfl
@[simp] theorem State.attn_stepped (s : State) (i : Nat) : (s.attn i).stepped = s.stepped := rfl
@[simp] theorem State.attn_everLocked (s : State) (i : Nat) : (s.attn i).everLocked = s.everLocked := rfl
@[simp] theorem State.attn_bootCount (s : State) (i : Nat) : (s.attn i).bootCount = s.bootCount := rfl
@[simp] theorem State.attn_log (s : State) (i : Nat) : (s.attn i).log = s.log := rfl
@[simp] theorem State.attn_handover (s : State) (i : Nat) : (s.attn i).handover = s.handover := rfl
@[simp] theorem State.attn_flash (s : State) (i : Nat) : (s.attn i).flash = s.flash := rfl
@[simp] theorem State.attn_deferred (s : State) (i : Nat) : (s.attn i).deferred = s.deferred := rfl
@[simp] theorem State.attn_fw (s : State) (i : Nat) : (s.attn i).fw = s.fw := rfl
@[simp] theorem State.attn_calico (s : State) (i : Nat) : (s.attn i).calico = s.calico := rfl
@[simp] theorem State.attn_swapped (s : State) (i : Nat) : (s.attn i).swapped = s.swapped := rfl
@[simp] theorem State.attn_absent (s : State) (i : Nat) : (s.attn i).absent = s.absent := rfl
@[simp] theorem State.attn_spareCores (s : State) (i : Nat) : (s.attn i).spareCores = s.spareCores := rfl
@[simp] theorem State.attn_remaps (s : State) (i : Nat) : (s.attn i).remaps = s.remaps := rfl
@[simp] theorem State.attn_engineMap (s : State) (i : Nat) : (s.attn i).engineMap = s.engineMap := rfl
@[simp] theorem State.attn_nearStacks (s : State) (i : Nat) : (s.attn i).nearStacks = s.nearStacks := rfl
@[simp] theorem State.attn_tiers (s : State) (i : Nat) : (s.attn i).tiers = s.tiers := rfl
@[simp] theorem State.attn_recal (s : State) (i : Nat) : (s.attn i).recal = s.recal := rfl
@[simp] theorem State.attn_domains (s : State) (i : Nat) : (s.attn i).domains = s.domains := rfl
@[simp] theorem State.attn_env (s : State) (i : Nat) : (s.attn i).env = s.env := rfl
@[simp] theorem State.attn_sqs (s : State) (i : Nat) : (s.attn i).sqs = s.sqs := rfl
@[simp] theorem State.attn_cqs (s : State) (i : Nat) : (s.attn i).cqs = s.cqs := rfl
@[simp] theorem State.attn_lastServed (s : State) (i : Nat) : (s.attn i).lastServed = s.lastServed := rfl
@[simp] theorem State.attn_descs (s : State) (i : Nat) : (s.attn i).descs = s.descs := rfl
@[simp] theorem State.attn_txns (s : State) (i : Nat) : (s.attn i).txns = s.txns := rfl
@[simp] theorem State.attn_clusters (s : State) (i : Nat) : (s.attn i).clusters = s.clusters := rfl
@[simp] theorem State.attn_laneSeeds (s : State) (i : Nat) : (s.attn i).laneSeeds = s.laneSeeds := rfl
@[simp] theorem State.attn_mem (s : State) (i : Nat) : (s.attn i).mem = s.mem := rfl
@[simp] theorem State.attn_zeroed (s : State) (i : Nat) : (s.attn i).zeroed = s.zeroed := rfl
@[simp] theorem State.attn_scrub (s : State) (i : Nat) : (s.attn i).scrub = s.scrub := rfl
@[simp] theorem State.attn_scrLimits (s : State) (i : Nat) : (s.attn i).scrLimits = s.scrLimits := rfl
@[simp] theorem State.attn_dmk (s : State) (i : Nat) : (s.attn i).dmk = s.dmk := rfl
@[simp] theorem State.attn_seq (s : State) (i : Nat) : (s.attn i).seq = s.seq := rfl
@[simp] theorem State.attn_retire (s : State) (i : Nat) : (s.attn i).retire = s.retire := rfl
@[simp] theorem State.attn_stash (s : State) (i : Nat) : (s.attn i).stash = s.stash := rfl
@[simp] theorem State.attn_engines (s : State) (i : Nat) : (s.attn i).engines = s.engines := rfl
@[simp] theorem State.attn_offloads (s : State) (i : Nat) : (s.attn i).offloads = s.offloads := rfl
@[simp] theorem State.attn_factors (s : State) (i : Nat) : (s.attn i).factors = s.factors := rfl
@[simp] theorem State.attn_grad (s : State) (i : Nat) : (s.attn i).grad = s.grad := rfl
@[simp] theorem State.attn_shard (s : State) (i : Nat) : (s.attn i).shard = s.shard := rfl
@[simp] theorem State.attn_ports (s : State) (i : Nat) : (s.attn i).ports = s.ports := rfl
@[simp] theorem State.attn_lostLinks (s : State) (i : Nat) : (s.attn i).lostLinks = s.lostLinks := rfl
@[simp] theorem State.attn_arrived (s : State) (i : Nat) : (s.attn i).arrived = s.arrived := rfl
@[simp] theorem State.attn_egress (s : State) (i : Nat) : (s.attn i).egress = s.egress := rfl

@[simp] theorem State.calicoDirty_pending (s : State) : (s.calicoDirty).pending = s.pending := rfl
@[simp] theorem State.calicoDirty_draws (s : State) : (s.calicoDirty).draws = s.draws := rfl
@[simp] theorem State.calicoDirty_dramGen (s : State) : (s.calicoDirty).dramGen = s.dramGen := rfl
@[simp] theorem State.calicoDirty_nextId (s : State) : (s.calicoDirty).nextId = s.nextId := rfl
@[simp] theorem State.calicoDirty_nextTxn (s : State) : (s.calicoDirty).nextTxn = s.nextTxn := rfl
@[simp] theorem State.calicoDirty_flannelOn (s : State) : (s.calicoDirty).flannelOn = s.flannelOn := rfl
@[simp] theorem State.calicoDirty_up (s : State) : (s.calicoDirty).up = s.up := rfl
@[simp] theorem State.calicoDirty_mpRunning (s : State) : (s.calicoDirty).mpRunning = s.mpRunning := rfl
@[simp] theorem State.calicoDirty_probe (s : State) : (s.calicoDirty).probe = s.probe := rfl
@[simp] theorem State.calicoDirty_startPhase (s : State) : (s.calicoDirty).startPhase = s.startPhase := rfl
@[simp] theorem State.calicoDirty_vin (s : State) : (s.calicoDirty).vin = s.vin := rfl
@[simp] theorem State.calicoDirty_pin (s : State) : (s.calicoDirty).pin = s.pin := rfl
@[simp] theorem State.calicoDirty_iin (s : State) : (s.calicoDirty).iin = s.iin := rfl
@[simp] theorem State.calicoDirty_nv (s : State) : (s.calicoDirty).nv = s.nv := rfl
@[simp] theorem State.calicoDirty_lowSag (s : State) : (s.calicoDirty).lowSag = s.lowSag := rfl
@[simp] theorem State.calicoDirty_lowTherm (s : State) : (s.calicoDirty).lowTherm = s.lowTherm := rfl
@[simp] theorem State.calicoDirty_thermAlert (s : State) : (s.calicoDirty).thermAlert = s.thermAlert := rfl
@[simp] theorem State.calicoDirty_throttled (s : State) : (s.calicoDirty).throttled = s.throttled := rfl
@[simp] theorem State.calicoDirty_throttles (s : State) : (s.calicoDirty).throttles = s.throttles := rfl
@[simp] theorem State.calicoDirty_powerRun (s : State) : (s.calicoDirty).powerRun = s.powerRun := rfl
@[simp] theorem State.calicoDirty_calmRun (s : State) : (s.calicoDirty).calmRun = s.calmRun := rfl
@[simp] theorem State.calicoDirty_refRun (s : State) : (s.calicoDirty).refRun = s.refRun := rfl
@[simp] theorem State.calicoDirty_refclkLost (s : State) : (s.calicoDirty).refclkLost = s.refclkLost := rfl
@[simp] theorem State.calicoDirty_onOsc (s : State) : (s.calicoDirty).onOsc = s.onOsc := rfl
@[simp] theorem State.calicoDirty_perstN (s : State) : (s.calicoDirty).perstN = s.perstN := rfl
@[simp] theorem State.calicoDirty_modResetN (s : State) : (s.calicoDirty).modResetN = s.modResetN := rfl
@[simp] theorem State.calicoDirty_vinPg (s : State) : (s.calicoDirty).vinPg = s.vinPg := rfl
@[simp] theorem State.calicoDirty_pinSample (s : State) : (s.calicoDirty).pinSample = s.pinSample := rfl
@[simp] theorem State.calicoDirty_xspiOwn (s : State) : (s.calicoDirty).xspiOwn = s.xspiOwn := rfl
@[simp] theorem State.calicoDirty_flashHeld (s : State) : (s.calicoDirty).flashHeld = s.flashHeld := rfl
@[simp] theorem State.calicoDirty_tick (s : State) : (s.calicoDirty).tick = s.tick := rfl
@[simp] theorem State.calicoDirty_resetEnds (s : State) : (s.calicoDirty).resetEnds = s.resetEnds := rfl
@[simp] theorem State.calicoDirty_resetNode (s : State) : (s.calicoDirty).resetNode = s.resetNode := rfl
@[simp] theorem State.calicoDirty_resetMemory (s : State) : (s.calicoDirty).resetMemory = s.resetMemory := rfl
@[simp] theorem State.calicoDirty_startedAt (s : State) : (s.calicoDirty).startedAt = s.startedAt := rfl
@[simp] theorem State.calicoDirty_frac (s : State) : (s.calicoDirty).frac = s.frac := rfl
@[simp] theorem State.calicoDirty_stepped (s : State) : (s.calicoDirty).stepped = s.stepped := rfl
@[simp] theorem State.calicoDirty_everLocked (s : State) : (s.calicoDirty).everLocked = s.everLocked := rfl
@[simp] theorem State.calicoDirty_bootCount (s : State) : (s.calicoDirty).bootCount = s.bootCount := rfl
@[simp] theorem State.calicoDirty_log (s : State) : (s.calicoDirty).log = s.log := rfl
@[simp] theorem State.calicoDirty_handover (s : State) : (s.calicoDirty).handover = s.handover := rfl
@[simp] theorem State.calicoDirty_flash (s : State) : (s.calicoDirty).flash = s.flash := rfl
@[simp] theorem State.calicoDirty_deferred (s : State) : (s.calicoDirty).deferred = s.deferred := rfl
@[simp] theorem State.calicoDirty_fw (s : State) : (s.calicoDirty).fw = s.fw := rfl
@[simp] theorem State.calicoDirty_swapped (s : State) : (s.calicoDirty).swapped = s.swapped := rfl
@[simp] theorem State.calicoDirty_absent (s : State) : (s.calicoDirty).absent = s.absent := rfl
@[simp] theorem State.calicoDirty_spareCores (s : State) : (s.calicoDirty).spareCores = s.spareCores := rfl
@[simp] theorem State.calicoDirty_remaps (s : State) : (s.calicoDirty).remaps = s.remaps := rfl
@[simp] theorem State.calicoDirty_engineMap (s : State) : (s.calicoDirty).engineMap = s.engineMap := rfl
@[simp] theorem State.calicoDirty_nearStacks (s : State) : (s.calicoDirty).nearStacks = s.nearStacks := rfl
@[simp] theorem State.calicoDirty_tiers (s : State) : (s.calicoDirty).tiers = s.tiers := rfl
@[simp] theorem State.calicoDirty_recal (s : State) : (s.calicoDirty).recal = s.recal := rfl
@[simp] theorem State.calicoDirty_domains (s : State) : (s.calicoDirty).domains = s.domains := rfl
@[simp] theorem State.calicoDirty_env (s : State) : (s.calicoDirty).env = s.env := rfl
@[simp] theorem State.calicoDirty_hif (s : State) : (s.calicoDirty).hif = s.hif := rfl
@[simp] theorem State.calicoDirty_sqs (s : State) : (s.calicoDirty).sqs = s.sqs := rfl
@[simp] theorem State.calicoDirty_cqs (s : State) : (s.calicoDirty).cqs = s.cqs := rfl
@[simp] theorem State.calicoDirty_lastServed (s : State) : (s.calicoDirty).lastServed = s.lastServed := rfl
@[simp] theorem State.calicoDirty_descs (s : State) : (s.calicoDirty).descs = s.descs := rfl
@[simp] theorem State.calicoDirty_txns (s : State) : (s.calicoDirty).txns = s.txns := rfl
@[simp] theorem State.calicoDirty_clusters (s : State) : (s.calicoDirty).clusters = s.clusters := rfl
@[simp] theorem State.calicoDirty_laneSeeds (s : State) : (s.calicoDirty).laneSeeds = s.laneSeeds := rfl
@[simp] theorem State.calicoDirty_mem (s : State) : (s.calicoDirty).mem = s.mem := rfl
@[simp] theorem State.calicoDirty_zeroed (s : State) : (s.calicoDirty).zeroed = s.zeroed := rfl
@[simp] theorem State.calicoDirty_scrub (s : State) : (s.calicoDirty).scrub = s.scrub := rfl
@[simp] theorem State.calicoDirty_scrLimits (s : State) : (s.calicoDirty).scrLimits = s.scrLimits := rfl
@[simp] theorem State.calicoDirty_dmk (s : State) : (s.calicoDirty).dmk = s.dmk := rfl
@[simp] theorem State.calicoDirty_seq (s : State) : (s.calicoDirty).seq = s.seq := rfl
@[simp] theorem State.calicoDirty_retire (s : State) : (s.calicoDirty).retire = s.retire := rfl
@[simp] theorem State.calicoDirty_stash (s : State) : (s.calicoDirty).stash = s.stash := rfl
@[simp] theorem State.calicoDirty_engines (s : State) : (s.calicoDirty).engines = s.engines := rfl
@[simp] theorem State.calicoDirty_offloads (s : State) : (s.calicoDirty).offloads = s.offloads := rfl
@[simp] theorem State.calicoDirty_factors (s : State) : (s.calicoDirty).factors = s.factors := rfl
@[simp] theorem State.calicoDirty_grad (s : State) : (s.calicoDirty).grad = s.grad := rfl
@[simp] theorem State.calicoDirty_shard (s : State) : (s.calicoDirty).shard = s.shard := rfl
@[simp] theorem State.calicoDirty_ports (s : State) : (s.calicoDirty).ports = s.ports := rfl
@[simp] theorem State.calicoDirty_lostLinks (s : State) : (s.calicoDirty).lostLinks = s.lostLinks := rfl
@[simp] theorem State.calicoDirty_arrived (s : State) : (s.calicoDirty).arrived = s.arrived := rfl
@[simp] theorem State.calicoDirty_egress (s : State) : (s.calicoDirty).egress = s.egress := rfl

@[simp] theorem State.write8_pending (s : State) (a : Nat) (b : Byte) : (s.write8 a b).pending = s.pending := rfl
@[simp] theorem State.write8_draws (s : State) (a : Nat) (b : Byte) : (s.write8 a b).draws = s.draws := rfl
@[simp] theorem State.write8_dramGen (s : State) (a : Nat) (b : Byte) : (s.write8 a b).dramGen = s.dramGen := rfl
@[simp] theorem State.write8_nextId (s : State) (a : Nat) (b : Byte) : (s.write8 a b).nextId = s.nextId := rfl
@[simp] theorem State.write8_nextTxn (s : State) (a : Nat) (b : Byte) : (s.write8 a b).nextTxn = s.nextTxn := rfl
@[simp] theorem State.write8_flannelOn (s : State) (a : Nat) (b : Byte) : (s.write8 a b).flannelOn = s.flannelOn := rfl
@[simp] theorem State.write8_up (s : State) (a : Nat) (b : Byte) : (s.write8 a b).up = s.up := rfl
@[simp] theorem State.write8_mpRunning (s : State) (a : Nat) (b : Byte) : (s.write8 a b).mpRunning = s.mpRunning := rfl
@[simp] theorem State.write8_probe (s : State) (a : Nat) (b : Byte) : (s.write8 a b).probe = s.probe := rfl
@[simp] theorem State.write8_startPhase (s : State) (a : Nat) (b : Byte) : (s.write8 a b).startPhase = s.startPhase := rfl
@[simp] theorem State.write8_vin (s : State) (a : Nat) (b : Byte) : (s.write8 a b).vin = s.vin := rfl
@[simp] theorem State.write8_pin (s : State) (a : Nat) (b : Byte) : (s.write8 a b).pin = s.pin := rfl
@[simp] theorem State.write8_iin (s : State) (a : Nat) (b : Byte) : (s.write8 a b).iin = s.iin := rfl
@[simp] theorem State.write8_nv (s : State) (a : Nat) (b : Byte) : (s.write8 a b).nv = s.nv := rfl
@[simp] theorem State.write8_lowSag (s : State) (a : Nat) (b : Byte) : (s.write8 a b).lowSag = s.lowSag := rfl
@[simp] theorem State.write8_lowTherm (s : State) (a : Nat) (b : Byte) : (s.write8 a b).lowTherm = s.lowTherm := rfl
@[simp] theorem State.write8_thermAlert (s : State) (a : Nat) (b : Byte) : (s.write8 a b).thermAlert = s.thermAlert := rfl
@[simp] theorem State.write8_throttled (s : State) (a : Nat) (b : Byte) : (s.write8 a b).throttled = s.throttled := rfl
@[simp] theorem State.write8_throttles (s : State) (a : Nat) (b : Byte) : (s.write8 a b).throttles = s.throttles := rfl
@[simp] theorem State.write8_powerRun (s : State) (a : Nat) (b : Byte) : (s.write8 a b).powerRun = s.powerRun := rfl
@[simp] theorem State.write8_calmRun (s : State) (a : Nat) (b : Byte) : (s.write8 a b).calmRun = s.calmRun := rfl
@[simp] theorem State.write8_refRun (s : State) (a : Nat) (b : Byte) : (s.write8 a b).refRun = s.refRun := rfl
@[simp] theorem State.write8_refclkLost (s : State) (a : Nat) (b : Byte) : (s.write8 a b).refclkLost = s.refclkLost := rfl
@[simp] theorem State.write8_onOsc (s : State) (a : Nat) (b : Byte) : (s.write8 a b).onOsc = s.onOsc := rfl
@[simp] theorem State.write8_perstN (s : State) (a : Nat) (b : Byte) : (s.write8 a b).perstN = s.perstN := rfl
@[simp] theorem State.write8_modResetN (s : State) (a : Nat) (b : Byte) : (s.write8 a b).modResetN = s.modResetN := rfl
@[simp] theorem State.write8_vinPg (s : State) (a : Nat) (b : Byte) : (s.write8 a b).vinPg = s.vinPg := rfl
@[simp] theorem State.write8_pinSample (s : State) (a : Nat) (b : Byte) : (s.write8 a b).pinSample = s.pinSample := rfl
@[simp] theorem State.write8_xspiOwn (s : State) (a : Nat) (b : Byte) : (s.write8 a b).xspiOwn = s.xspiOwn := rfl
@[simp] theorem State.write8_flashHeld (s : State) (a : Nat) (b : Byte) : (s.write8 a b).flashHeld = s.flashHeld := rfl
@[simp] theorem State.write8_tick (s : State) (a : Nat) (b : Byte) : (s.write8 a b).tick = s.tick := rfl
@[simp] theorem State.write8_resetEnds (s : State) (a : Nat) (b : Byte) : (s.write8 a b).resetEnds = s.resetEnds := rfl
@[simp] theorem State.write8_resetNode (s : State) (a : Nat) (b : Byte) : (s.write8 a b).resetNode = s.resetNode := rfl
@[simp] theorem State.write8_resetMemory (s : State) (a : Nat) (b : Byte) : (s.write8 a b).resetMemory = s.resetMemory := rfl
@[simp] theorem State.write8_startedAt (s : State) (a : Nat) (b : Byte) : (s.write8 a b).startedAt = s.startedAt := rfl
@[simp] theorem State.write8_frac (s : State) (a : Nat) (b : Byte) : (s.write8 a b).frac = s.frac := rfl
@[simp] theorem State.write8_stepped (s : State) (a : Nat) (b : Byte) : (s.write8 a b).stepped = s.stepped := rfl
@[simp] theorem State.write8_everLocked (s : State) (a : Nat) (b : Byte) : (s.write8 a b).everLocked = s.everLocked := rfl
@[simp] theorem State.write8_bootCount (s : State) (a : Nat) (b : Byte) : (s.write8 a b).bootCount = s.bootCount := rfl
@[simp] theorem State.write8_log (s : State) (a : Nat) (b : Byte) : (s.write8 a b).log = s.log := rfl
@[simp] theorem State.write8_handover (s : State) (a : Nat) (b : Byte) : (s.write8 a b).handover = s.handover := rfl
@[simp] theorem State.write8_flash (s : State) (a : Nat) (b : Byte) : (s.write8 a b).flash = s.flash := rfl
@[simp] theorem State.write8_deferred (s : State) (a : Nat) (b : Byte) : (s.write8 a b).deferred = s.deferred := rfl
@[simp] theorem State.write8_fw (s : State) (a : Nat) (b : Byte) : (s.write8 a b).fw = s.fw := rfl
@[simp] theorem State.write8_calico (s : State) (a : Nat) (b : Byte) : (s.write8 a b).calico = s.calico := rfl
@[simp] theorem State.write8_swapped (s : State) (a : Nat) (b : Byte) : (s.write8 a b).swapped = s.swapped := rfl
@[simp] theorem State.write8_absent (s : State) (a : Nat) (b : Byte) : (s.write8 a b).absent = s.absent := rfl
@[simp] theorem State.write8_spareCores (s : State) (a : Nat) (b : Byte) : (s.write8 a b).spareCores = s.spareCores := rfl
@[simp] theorem State.write8_remaps (s : State) (a : Nat) (b : Byte) : (s.write8 a b).remaps = s.remaps := rfl
@[simp] theorem State.write8_engineMap (s : State) (a : Nat) (b : Byte) : (s.write8 a b).engineMap = s.engineMap := rfl
@[simp] theorem State.write8_nearStacks (s : State) (a : Nat) (b : Byte) : (s.write8 a b).nearStacks = s.nearStacks := rfl
@[simp] theorem State.write8_tiers (s : State) (a : Nat) (b : Byte) : (s.write8 a b).tiers = s.tiers := rfl
@[simp] theorem State.write8_recal (s : State) (a : Nat) (b : Byte) : (s.write8 a b).recal = s.recal := rfl
@[simp] theorem State.write8_domains (s : State) (a : Nat) (b : Byte) : (s.write8 a b).domains = s.domains := rfl
@[simp] theorem State.write8_env (s : State) (a : Nat) (b : Byte) : (s.write8 a b).env = s.env := rfl
@[simp] theorem State.write8_hif (s : State) (a : Nat) (b : Byte) : (s.write8 a b).hif = s.hif := rfl
@[simp] theorem State.write8_sqs (s : State) (a : Nat) (b : Byte) : (s.write8 a b).sqs = s.sqs := rfl
@[simp] theorem State.write8_cqs (s : State) (a : Nat) (b : Byte) : (s.write8 a b).cqs = s.cqs := rfl
@[simp] theorem State.write8_lastServed (s : State) (a : Nat) (b : Byte) : (s.write8 a b).lastServed = s.lastServed := rfl
@[simp] theorem State.write8_descs (s : State) (a : Nat) (b : Byte) : (s.write8 a b).descs = s.descs := rfl
@[simp] theorem State.write8_txns (s : State) (a : Nat) (b : Byte) : (s.write8 a b).txns = s.txns := rfl
@[simp] theorem State.write8_clusters (s : State) (a : Nat) (b : Byte) : (s.write8 a b).clusters = s.clusters := rfl
@[simp] theorem State.write8_laneSeeds (s : State) (a : Nat) (b : Byte) : (s.write8 a b).laneSeeds = s.laneSeeds := rfl
@[simp] theorem State.write8_zeroed (s : State) (a : Nat) (b : Byte) : (s.write8 a b).zeroed = s.zeroed := rfl
@[simp] theorem State.write8_scrub (s : State) (a : Nat) (b : Byte) : (s.write8 a b).scrub = s.scrub := rfl
@[simp] theorem State.write8_scrLimits (s : State) (a : Nat) (b : Byte) : (s.write8 a b).scrLimits = s.scrLimits := rfl
@[simp] theorem State.write8_dmk (s : State) (a : Nat) (b : Byte) : (s.write8 a b).dmk = s.dmk := rfl
@[simp] theorem State.write8_seq (s : State) (a : Nat) (b : Byte) : (s.write8 a b).seq = s.seq := rfl
@[simp] theorem State.write8_retire (s : State) (a : Nat) (b : Byte) : (s.write8 a b).retire = s.retire := rfl
@[simp] theorem State.write8_stash (s : State) (a : Nat) (b : Byte) : (s.write8 a b).stash = s.stash := rfl
@[simp] theorem State.write8_engines (s : State) (a : Nat) (b : Byte) : (s.write8 a b).engines = s.engines := rfl
@[simp] theorem State.write8_offloads (s : State) (a : Nat) (b : Byte) : (s.write8 a b).offloads = s.offloads := rfl
@[simp] theorem State.write8_factors (s : State) (a : Nat) (b : Byte) : (s.write8 a b).factors = s.factors := rfl
@[simp] theorem State.write8_grad (s : State) (a : Nat) (b : Byte) : (s.write8 a b).grad = s.grad := rfl
@[simp] theorem State.write8_shard (s : State) (a : Nat) (b : Byte) : (s.write8 a b).shard = s.shard := rfl
@[simp] theorem State.write8_ports (s : State) (a : Nat) (b : Byte) : (s.write8 a b).ports = s.ports := rfl
@[simp] theorem State.write8_lostLinks (s : State) (a : Nat) (b : Byte) : (s.write8 a b).lostLinks = s.lostLinks := rfl
@[simp] theorem State.write8_arrived (s : State) (a : Nat) (b : Byte) : (s.write8 a b).arrived = s.arrived := rfl
@[simp] theorem State.write8_egress (s : State) (a : Nat) (b : Byte) : (s.write8 a b).egress = s.egress := rfl

end Sys2Proof.Machine
end

