-- ==== Sys2Proof/Laws/Reads.lean ====
section
/-! SUPPORT. What each map of the state reads after one of its entries has been set, and the cores of a cluster. -/

namespace Sys2Proof.Machine

theorem cluster_setCluster (s : State) (n m : Nat) (c : Cluster) : (s.setCluster n c).cluster m = if m = n then c else s.cluster m :=
  SMap.get_set ..

theorem port_setPort (s : State) (p q : Nat) (x : Port) : (s.setPort p x).port q = if q = p then x else s.port q := SMap.get_set ..

theorem sq_setSq (s : State) (p q : Nat) (x : Sq) : (s.setSq p x).sq q = if q = p then x else s.sq q := SMap.get_set ..

theorem cq_setCq (s : State) (p q : Nat) (x : Cq) : (s.setCq p x).cq q = if q = p then x else s.cq q := SMap.get_set ..

theorem eng_setEng (s : State) (e f : Nat) (x : Engine) : (s.setEng e x).eng f = if f = e then x else s.eng f := SMap.get_set ..

theorem factor_setFactor (s : State) (e f : Nat) (x : Factor) : (s.setFactor e x).factor f = if f = e then x else s.factor f := SMap.get_set ..

theorem bkt_setBkt (s : State) (a b : Nat) (x : Bkt) : (s.setBkt a x).bkt b = if b = a then x else s.bkt b := SMap.get_set ..

theorem scrubOf_setScrub (s : State) (u v : Nat) (x : Scrub) : (s.setScrub u x).scrubOf v = if v = u then x else s.scrubOf v := SMap.get_set ..

/-- A domain that was never set reads its default, whichever one is set. -/
theorem dom_setDom (s : State) (d e : Nat) (x : Domain) : (s.setDom d x).dom e = if e = d then x else s.dom e := by
  unfold State.setDom State.dom
  split
  · subst e
    exact SMap.get_set_same ..
  · rename_i h
    unfold SMap.set SMap.get
    split
    · rw [SMap.find_erase_other _ _ _ h]
    · rw [SMap.find_put_other _ _ _ _ h]

theorem core_setCore (s : State) (k j : Nat) (c : Core) : (s.setCore k c).core j = if j = k then c else s.core j := by
  unfold State.setCore State.core
  simp only [cluster_setCluster]
  by_cases h : j / 16 = k / 16
  · simp only [h, if_true, SMap.get_set]
    by_cases h2 : j % 16 = k % 16
    · have : j = k := by omega
      simp [this]
    · have : j ≠ k := by rintro rfl; exact h2 rfl
      simp [h2, this]
  · have : j ≠ k := by rintro rfl; exact h rfl
    simp [h, this]

@[simp] theorem core_setCore_same (s : State) (k : Nat) (c : Core) : (s.setCore k c).core k = c := by rw [core_setCore, if_pos rfl]

/-- Setting a core leaves everything else. -/
theorem sameButCore_setCore (s : State) (k : Nat) (c : Core) : sameButCore s (s.setCore k c) k := by
  refine ⟨rfl, ?_, ?_, ?_⟩
  · intro n h
    simp [State.setCore, cluster_setCluster, h]
  · simp [State.setCore, cluster_setCluster]
  · intro i h
    simp [State.setCore, cluster_setCluster, SMap.get_set, h]

/-- R168: a register reads what was written, s0 always 0. -/
theorem reg_setReg (c : Core) (i j : Nat) (v : Word) : (c.setReg i v).reg j = if j = 0 then 0 else if j = i then v else c.reg j := by
  unfold Core.setReg Core.reg
  by_cases hj : j = 0
  · simp [hj]
  · by_cases hi : i = 0
    · subst hi
      simp [hj]
    · simp [hj, hi, SMap.get_set]

theorem goneTo_setReg (c : Core) (i pc : Nat) (v : Word) : goneTo c ((c.setReg i v).goto pc) pc := by
  unfold goneTo Core.goto Core.setReg
  split <;> rfl

theorem wroteReg_setReg (c : Core) (i pc : Nat) (v : Word) : wroteReg c ((c.setReg i v).goto pc) i v := by
  have e : ∀ j, ((c.setReg i v).goto pc).reg j = (c.setReg i v).reg j := fun _ => rfl
  refine ⟨by rw [e, reg_setReg]; simp, fun j h => ?_⟩
  rw [e, reg_setReg]
  simp only [h, if_false]
  split
  · subst j
    rfl
  · rfl

/-- A core operation whose word is well formed runs its effect. -/
theorem coreOp_of_coreAt {s : State} {k op w : Nat} {f : Nat → Core → State} (h : s.coreAt k op w = true) :
    s.coreOp k op f = .next (f w (s.core k)) := by
  simp only [State.coreAt, Bool.and_eq_true, beq_iff_eq] at h
  obtain ⟨⟨⟨⟨⟨h1, h2⟩, h3⟩, h4⟩, h5⟩, h6⟩ := h
  simp [State.coreOp, guarded, h1, h2, h3, h4, h5, h6]

/-- Such a core runs, and nothing holds it. -/
theorem coreAt_running {s : State} {k op w : Nat} (h : s.coreAt k op w = true) : (s.core k).st = .run ∧ (s.core k).hold = .none := by
  simp only [State.coreAt, State.coreMay, Bool.and_eq_true, beq_iff_eq] at h
  exact ⟨h.1.1.1.1.2.1.2, h.1.1.1.1.2.2⟩

/-- An operation that writes RD and goes on. -/
theorem coreAlu_wrote (s : State) (k w : Nat) (v : Word) (hp : (s.core k).pc < 8191) : coreWrote s (s.coreAlu k w (s.core k) v) k (iRd w) v := by
  have : (s.core k).pc + 1 ≤ 8191 := by omega
  simp only [State.coreAlu, State.coreGo, this, if_true]
  exact ⟨sameButCore_setCore .., by rw [core_setCore_same]; exact goneTo_setReg .., by rw [core_setCore_same]; exact wroteReg_setReg ..⟩

/-- An operation that goes on to an index of program memory. -/
theorem coreGo_went (s : State) (k pc : Nat) (hp : pc ≤ 8191) : coreWent s (s.coreGo k (s.core k) pc) k pc := by
  simp only [State.coreGo, hp, if_true]
  exact ⟨sameButCore_setCore .., by rw [core_setCore_same]; rfl, fun i => by rw [core_setCore_same]; rfl⟩

end Sys2Proof.Machine
end

