-- ==== Sys2Proof/Tests/Slice0.lean ====
section
/-! SUPPORT. Tests: ill-formed commands that the checks refuse, worked values of the spec, and for every statement with hypotheses
states and operands that meet them. -/

namespace Sys2Proof.Tests

set_option Elab.async false

open Sys2Proof.Machine

/-! ### Small states -/

/-- A started module whose domains all serve. -/
def on : State :=
  { State.reset with
    up := true, mpRunning := true, startPhase := 4, vin := 7000, tick := 1000000
    domains := (List.range 58).map fun d => (d, { domainDefault d with st := .on }) }

/-- A word of Table 8.6. -/
def word (op : Nat) (rd ra rb c nc imm : Nat := 0) : Nat :=
  op + rd * 2 ^ 8 + ra * 2 ^ 12 + rb * 2 ^ 16 + c * 2 ^ 20 + nc * 2 ^ 26 + imm * 2 ^ 32

/-- Core 5 at index `pc` with word `w` there and s1, s2 as given. -/
def at_ (pc w : Nat) (s1 s2 : Word := 0) : State :=
  on.setCore 5 { st := .run, pc := pc, prog := [(pc, BitVec.ofNat 64 w)], regs := [(1, s1), (2, s2)] }

/-- What core 5 is about to execute is `w` of operation `op`, at index `pc`. -/
def ready (s : State) (op w pc : Nat) : Bool := s.coreAt 5 op w && (s.core 5).pc == pc

/-- A write of all 8 bytes of a register. -/
def w8 (v : Nat) : Wr := { v := BitVec.ofNat 64 v }

/-- The 64 bytes of a descriptor of type `t` with TARGET 0x3FF and what follows at 0x10 (Table 8.1). -/
def desc (t : Nat) (rest : Bytes) (ordered : Nat := 0) (target : Nat := 0x3FF) : Bytes :=
  let w := t + 256 + ordered * 2 ^ 19 + target * 2 ^ 24
  leBytes 8 w ++ leBytes 8 (2 ^ 64 - 1 - w) ++ rest ++ List.replicate (48 - rest.length) 0

/-! ### Witnesses: cores -/

theorem wit_StepRunsFrontCommand : State.reset.pending = [] := rfl

theorem wit_CoreArithmetic :
    (∀ op ∈ [opADD, opSUB, opSHL, opSHR, opSRA, opAND, opOR, opXOR], ready (at_ 8190 (word op 3 1 2)) op (word op 3 1 2) 8190 = true) ∧
    ready (at_ 0 (word opADDI 0 1 0 0 0 0xFFFFFFFF)) opADDI (word opADDI 0 1 0 0 0 0xFFFFFFFF) 0 = true := by decide +kernel

/-- Every branch with its target at the last index, taken, and at index 8,190 not taken. -/
theorem wit_CoreBranches :
    (∀ e ∈ [(opBEQ, (1 : Word), (1 : Word)), (opBNE, 1, 2), (opBLT, -1, 1), (opBGE, 1, 1), (opBLTU, 1, 2), (opBGEU, 2, 2)],
      ready (at_ 7 (word e.1 0 1 2 0 0 8191) e.2.1 e.2.2) e.1 (word e.1 0 1 2 0 0 8191) 7 = true) ∧
    (∀ e ∈ [(opBEQ, (1 : Word), (2 : Word)), (opBNE, 1, 1), (opBLT, 1, 1), (opBGE, -1, 1), (opBLTU, 2, 2), (opBGEU, 1, 2)],
      ready (at_ 8190 (word e.1 0 1 2) e.2.1 e.2.2) e.1 (word e.1 0 1 2) 8190 = true) ∧
    ready (at_ 9 (word opLOOP 0 1 0 0 0 8191) 2) opLOOP (word opLOOP 0 1 0 0 0 8191) 9 = true ∧
    ready (at_ 8190 (word opLOOP 0 1) 1) opLOOP (word opLOOP 0 1) 8190 = true ∧
    ready (at_ 8191 (word opJUMP 3 1) 8191) opJUMP (word opJUMP 3 1) 8191 = true := by decide +kernel

/-- Counter 4 of cluster 0 at `v`, and core 5 at a WAIT on it. -/
def waits (v : Word32) (s1 s2 : Word) : State := (at_ 8190 (word opWAIT 3 1 2 4) s1 s2).setCounter 0 4 v

theorem wit_CoreWaits :
    (ready (waits 7 7 0) opWAIT (word opWAIT 3 1 2 4) 8190 = true ∧
      0 ≤ ((waits 7 7 0).counter 0 4 - (((waits 7 7 0).core 5).reg 1).truncate 32).toInt) ∧
    (ready (waits 6 7 0) opWAIT (word opWAIT 3 1 2 4) 8190 = true ∧
      ((waits 6 7 0).counter 0 4 - (((waits 6 7 0).core 5).reg 1).truncate 32).toInt < 0) ∧
    (let s := (waits 6 7 999999).setCore 5 { (waits 6 7 999999).core 5 with st := .wait, hold := .wait }
     (s.core 5).hold = .wait ∧ (s.core 5).word (s.core 5).pc = word opWAIT 3 1 2 4 ∧ 0 < ((s.core 5).reg 2).toNat ∧ ((s.core 5).reg 2).toNat < s.tick ∧
     s.stepped.2 ≤ ((s.core 5).reg 2).toNat ∧ { s with stepped := (999990, 1000000) }.overdue 999999 = false ∧
     0 ≤ ((7 : Word32) - ((s.core 5).reg 1).truncate 32).toInt ∧ ((6 : Word32) - ((s.core 5).reg 1).truncate 32).toInt < 0) ∧
    (let s := (waits 6 7 1000000).setCore 5 { (waits 6 7 1000000).core 5 with st := .wait, hold := .wait }
     (s.core 5).hold = .wait ∧ s.tick ≤ ((s.core 5).reg 2).toNat) ∧
    ready (at_ 8190 (word opFENCE)) opFENCE (word opFENCE) 8190 = true ∧ (at_ 8190 (word opFENCE)).descs = [] := by decide +kernel

theorem wit_CoreSignalAndHalt :
    ready (at_ 8190 (word opSIGNAL 0 1 0 63 0 5)) opSIGNAL (word opSIGNAL 0 1 0 63 0 5) 8190 = true ∧
    ready (at_ 8191 (word opHALT)) opHALT (word opHALT) 8191 = true := by decide +kernel

/-- A LOAD at each edge of each range of Table 8.8. -/
theorem wit_CoreLoadsAndStores_loads :
    ∀ a ∈ [0, 0x5FFFF8, 0x1000000, 0x100FFF8, 0x2000000, 0x2000008, 0x2000010, 0x2000018, 0x2000020, 0x2000100, 0x20002F8],
      ready (at_ 8190 (word opLOAD 3 0 0 0 0 a)) opLOAD (word opLOAD 3 0 0 0 0 a) 8190 = true ∧
      (((at_ 8190 (word opLOAD 3 0 0 0 0 a)).core 5).reg 0 + BitVec.ofInt 64 (iImm (word opLOAD 3 0 0 0 0 a))).toNat = a := by decide +kernel

theorem wit_CoreLoadsAndStores :
    (∀ a ∈ [0, 0x5FFFF8, 0x2000100, 0x20002F8],
      ready (at_ 8190 (word opSTORE 0 1 2 0 0 a)) opSTORE (word opSTORE 0 1 2 0 0 a) 8190 = true ∧
      (((at_ 8190 (word opSTORE 0 1 2 0 0 a)).core 5).reg 1 + BitVec.ofInt 64 (iImm (word opSTORE 0 1 2 0 0 a))).toNat = a) ∧
    (let s := at_ 8190 (word opSTORE 0 1 2 0 0 0x5FFFF8)
     let t := s.setCore 5 { s.core 5 with hold := .store }
     (t.core 5).hold = .store ∧ t.domOn 0 = true ∧ (t.core 5).word (t.core 5).pc = word opSTORE 0 1 2 0 0 0x5FFFF8) := by decide +kernel

theorem wit_PlogSelectionsStandApart :
    on.flannelOn = true ∧ (List.replicate 8 (1 : Byte)).length = 8 ∧ on.barTakes = true ∧ 3 ≤ on.startPhase ∧ (w8 5).get? 0 18 = some 5 ∧
    regAt 0x220040 = .plogData 0 := by decide +kernel

/-- Each cause of R172: an unknown code, a field that is not 0, addresses just outside Table 8.8, a next index of 8,192, a STORE to
what is LOAD only. -/
theorem wit_CoreFaults :
    (let s := at_ 3 0xFF
     s.coreMay 5 = true ∧ (s.core 5).word 3 = 0xFF ∧ iUnused 0xFF = none) ∧
    (∀ e ∈ coreRows 5, let w := word e.1 + 2 ^ 27
      (at_ 3 w).coreMay 5 = true ∧ ((at_ 3 w).core 5).word 3 = w ∧ iOp w = e.1 ∧ iReserved w ≠ 0) ∧
    (∀ a ∈ [4, 0x600000, 0x1010000, 0x2000028, 0x20000F8, 0x2000300],
      ready (at_ 8191 (word opLOAD 3 0 0 0 0 a)) opLOAD (word opLOAD 3 0 0 0 0 a) 8191 = true ∧
      ready (at_ 8191 (word opSTORE 0 0 2 0 0 a)) opSTORE (word opSTORE 0 0 2 0 0 a) 8191 = true ∧ coreAddr a = none) ∧
    (∀ a ∈ [32, 0x5FFFE0, 0x600000], ready (at_ 3 (word opISSUE 0 1 0 4 0 a)) opISSUE (word opISSUE 0 1 0 4 0 a) 3 = true) ∧
    (∀ op ∈ opsGoingOn, ready (at_ 8191 (word op)) op (word op) 8191 = true) ∧
    (∀ e ∈ [(opLOAD, 0), (opSTORE, 0x2000100), (opISSUE, 0x5FFFC0)], ready (at_ 8191 (word e.1 0 0 0 0 0 e.2)) e.1 (word e.1 0 0 0 0 0 e.2) 8191 = true) ∧
    (∀ e ∈ [(opBEQ, (1 : Word), (1 : Word)), (opBNE, 1, 2), (opBLT, -1, 1), (opBGE, 1, 1), (opBLTU, 1, 2), (opBGEU, 2, 2)],
      ready (at_ 7 (word e.1 0 1 2 0 0 8192) e.2.1 e.2.2) e.1 (word e.1 0 1 2 0 0 8192) 7 = true) ∧
    ready (at_ 7 (word opLOOP 0 1 0 0 0 8192) 2) opLOOP (word opLOOP 0 1 0 0 0 8192) 7 = true ∧
    ready (at_ 7 (word opJUMP 3 1) 8192) opJUMP (word opJUMP 3 1) 7 = true ∧
    (∀ a ∈ [0x1000000, 0x100FFF8, 0x2000000, 0x2000020],
      ready (at_ 8190 (word opSTORE 0 0 2 0 0 a)) opSTORE (word opSTORE 0 0 2 0 0 a) 8190 = true) := by decide +kernel

/-- An ISSUE of the last 64 bytes of the store: 64 zero bytes fail a check, and are offered; a core whose FENCE is open stalls. -/
theorem wit_CoreIssues :
    let w := word opISSUE 0 1 0 4 0 0x5FFFC0
    ready (at_ 8190 w) opISSUE w 8190 = true ∧
    (at_ 8190 w).entriesTaken { iss := .core 5, ctr := some 4, bytes := (at_ 8190 w).readBytes (storeBase 0 + 0x5FFFC0) 64, lost := [] } = false ∧
    ((at_ 8190 w).offer { iss := .core 5, ctr := some 4, bytes := (at_ 8190 w).readBytes (storeBase 0 + 0x5FFFC0) 64, lost := [] }).isSome = true := by
  decide +kernel

/-! ### Witnesses: descriptors -/

/-- A FENCE of core 5 under counter 4. -/
def fenceOffer : Offer := { iss := .core 5, ctr := some 4, bytes := desc tyFENCE [] }

/-- Queue 0 and ring 0 enabled. -/
def onQ : State := { on with cqs := [(0, { enable := true })], sqs := [(0, { enable := true, head := 3, tail := 9, acted := 9 })] }

theorem wit_DescriptorsAreAccepted :
    on.takes fenceOffer = true ∧ (offerRows on fenceOffer 0).any (fun e => e.1) = true ∧
    (let s := on.accept fenceOffer 0
     s.offers fenceOffer = true ∧ s.issuerCheck fenceOffer.iss fenceOffer.bytes = stOK ∧ s.fenced fenceOffer.iss = true) := by decide +kernel

/-- A FENCE whose complement is wrong, from a core and from queue 0. -/
def spoilt (iss : Issuer) : Offer := { iss := iss, bytes := (desc tyFENCE []).take 8 ++ List.replicate 56 0 }

theorem wit_DescriptorsFailingACheck : ∀ iss ∈ [Issuer.core 8191, .host 0],
    onQ.offers (spoilt iss) = true ∧ onQ.issuerCheck iss (spoilt iss).bytes ≠ stOK ∧
    (offerRows onQ (spoilt iss) 0).any (fun e => e.1) = true ∧ onQ.hif.d3hot = false := by decide +kernel

/-- A COPY of two rows of 64 bytes inside the store of cluster 0. -/
def copyOffer : Offer :=
  let g := fun a => leBytes 8 (0xFFFF * 2 ^ 48 + storeBase 0 + a)
  { iss := .core 5, ctr := some 4, bytes := desc tyCOPY (g 0 ++ g 0x1000 ++ leBytes 4 64 ++ leBytes 4 2 ++ leBytes 8 0x100 ++ leBytes 8 64) }

theorem wit_CopyMovesItsRows :
    let b := copyOffer.bytes
    on.takes copyOffer = true ∧ on.idleFor1 copyOffer = true ∧ copyOffer.lost = [] ∧ dType b = tyCOPY ∧ on.isSelf (gaNode (Cp.src b)) = true ∧
    on.isSelf (gaNode (Cp.dst b)) = true ∧ Cp.rows b = 2 ∧ ∀ r, r < 2 → on.populated (gaLocal (Cp.src b) + r * Cp.srcStride b) (Cp.bytes b) = true := by
  decide +kernel

/-- A SIGNAL of 9 to counter 63 of cluster 511. -/
def signalOffer : Offer :=
  { iss := .core 5, bytes := desc tySIGNAL (leBytes 4 63 ++ leBytes 4 9 ++ leBytes 2 0xFFFF) (target := 511) }

theorem wit_SignalAddsAndFenceEnds :
    on.takes signalOffer = true ∧ on.idleFor1 signalOffer = true ∧ dType signalOffer.bytes = tySIGNAL ∧
    on.isSelf (Sg.node signalOffer.bytes) = true ∧
    on.takes fenceOffer = true ∧ on.idleFor1 fenceOffer = true ∧ dType fenceOffer.bytes = tyFENCE := by decide +kernel

/-- An ISSUE of a COPY that stalls behind an open FENCE of its core. -/
theorem wit_CoreIssues_stall :
    let w := word opISSUE 0 1 0 4 0 0x5FFFC0
    let s := ((at_ 8190 w).accept fenceOffer 0).writeBytes (storeBase 0 + 0x5FFFC0) copyOffer.bytes
    ready s opISSUE w 8190 = true ∧
    (s.offer { iss := .core 5, ctr := some 4, bytes := s.readBytes (storeBase 0 + 0x5FFFC0) 64, lost := [] }).isNone = true := by
  decide +kernel

/-- A state whose only descriptor is `d`. -/
def only (s : State) (d : Desc) : State := { s with descs := [d], nextId := 8 }

/-- An accepted descriptor, number 7. -/
def acc (iss : Issuer) (b : Bytes) (p : Place) (w : Work) : Desc :=
  { id := 7, iss := iss, ctr := some 4, bytes := b, place := p, num := {}, epoch := 0, step := 0, accepted := 0, limit := 0, woke := false
    sqHead := 0, work := w, lost := [], retry := [], dropped := false }

/-- With 63 entries of the tracker in use and a core stalled before it, an ISSUE finds the free entry taken. -/
theorem wit_CoreIssues_taken :
    let w := word opISSUE 0 1 0 4 0 0x5FFFC0
    let s := { ((at_ 8190 w).setCore 4 { (at_ 8190 w).core 5 with hold := .issue {} }).writeBytes (storeBase 0 + 0x5FFFC0) copyOffer.bytes with
      descs := List.replicate 63 (acc (.host 0) copyOffer.bytes (.movers 0) (.done stOK 0 0)) }
    ready s opISSUE w 8190 = true ∧
    s.entriesTaken { iss := .core 5, ctr := some 4, bytes := s.readBytes (storeBase 0 + 0x5FFFC0) 64, lost := [] } = true := by
  decide +kernel

theorem wit_CoreWaits_fence :
    let s := only (at_ 8190 (word opFENCE)) (acc (.core 5) (desc tyFENCE []) .issuer .queued)
    ready s opFENCE (word opFENCE) 8190 = true ∧ ∃ d ∈ s.descs, d.iss = .core 5 := by decide +kernel

theorem wit_DescriptorsComplete : ∀ iss ∈ [Issuer.core 5, .host 0],
    let d := { acc iss copyOffer.bytes (.movers 0) (.done stOK 0 0) with dropped := true }
    d.work = .done stOK 0 0 ∧ d.retry = [] ∧ (only onQ d).desc? d.id = some d ∧ (only onQ d).descs = [d] ∧ (only onQ d).hif.d3hot = false ∧
    (onQ.cqs.get {} (onQ.sqs.get {} 0).cq).enable = true ∧ (on.cqs.get {} (on.sqs.get {} 0).cq).enable = false ∧
    (let t : Txn := { txn := 9, use := .desc 7, kind := kREAD_REQ, sub := 0, dst := 1, sent := 0, addr := 0, len := 64, off := 0 }
     let s := { only on d with txns := [t] }
     t.queued = true ∧ s.partnerLost t.dst = false) := by
  decide +kernel

/-- A MATMUL of BF16, 1 by 1, with K = 4,096: A at 0, B at 0x4000, C at 0x8000; FP32 out. -/
def matmulBytes (k : Nat) : Bytes :=
  desc tyMATMUL (leBytes 4 0 ++ leBytes 4 0x10000 ++ leBytes 4 0x20000 ++ leBytes 4 0 ++ leBytes 4 0x8000 ++ leBytes 4 0x8000 ++ leBytes 4 0x80 ++
    leBytes 4 k ++ [1, 1, 0, 0, 0, 0, 0xFF, 0, 0])

/-! ### A state with an image in force -/

/-- Two modules along X through ports 0 and 1; group 0 of clusters 0 and 1, group 1 of clusters 16 and 17; every region in stack 0;
bucket 0 here, bucket 1 at the other module and mirrored here; a stage queue; one factor of 64. -/
def image : Image :=
  { epoch := 5, liveOnly := false
    topology := some { axisOfPair := [0, 0xFF, 0xFF, 0xFF], axisSize := [2, 1, 1, 1], cutOfAxis := [2, 0, 0, 0] }
    clusters := some [{ stage := 0, flags := 0, firstLayer := 0, layerCount := 1, clusters := 3 },
      { stage := 1, flags := 0, firstLayer := 1, layerCount := 1, clusters := 3 * 2 ^ 16 }]
    numerics := some {}
    memory := some { mode := 1, regions := [{ kind := rkSTASH, ecc := 0, group := 0, base := 0, size := 0x100000 },
      { kind := rkREDUCTION, ecc := 0, group := 0xFFFF, base := 0x1000000, size := 0x100000 },
      { kind := rkOPTIMISER, ecc := 0, group := 0xFFFF, base := 0x2000000, size := 0x100000 },
      { kind := rkSERGE, ecc := 0, group := 0xFFFF, base := 0x3000000, size := 0x1000000 }] }
    collective := some { reduceFormat := 0
                         buckets := [{ owner := 0, mirror := 1, expected := 4, compress := 0, flags := 0, bufOff := 0, elements := 64 },
                           { owner := 1, mirror := 0, expected := 4, compress := 0, flags := 1, bufOff := 0x1000, elements := 64 }]
                         live := [] }
    pipeline := some { stageCount := 2, microBatches := 4
                       queues := [{ stage := 1, dir := 0, lTile := 0, peer := 0, credit := 0x1000, bufOff := 0 }] }
    serge := some { factors := [{ layer := 0, side := 0, p := 2, method := 1, engine := 0, dim := 64, beta := 0, epsilon := 0 }]
                    live := [(0, [{ period := 1, phase := 0, deadline := 1000000 }])] }
    power := none }

def imaged : State := { on with nearStacks := [(0, { w := 32, state := 0 })], dmk := { inForce := some image } }

theorem imaged_serves : imaged.populated 0 0x1000 = true ∧ imaged.asleep imaged.sergeDomains = [] ∧ imaged.bucketsHere = [0, 1] ∧
    imaged.role 0 = some false ∧ imaged.role 1 = some true ∧ imaged.epochNow = 5 := by decide +kernel

/-! ### Witnesses: arrays, movers, gates, engines -/

/-- `s` with domain `d` off. -/
def without (s : State) (d : Nat) : State := s.setDom d { s.dom d with st := .off }

/-- A VECOP of OP 0 at slice 511. -/
def vecDesc : Desc := acc (.host 0) (desc tyVECOP [] 0 511) (.slice 511) .queued
/-- A STASH_PUT of cluster 0. -/
def putDesc : Desc := acc (.host 0) (desc tyVECOP (List.replicate 20 0 ++ [0x30]) 0 0) (.slice 0) .queued
/-- A MATMUL of K = `k` at array 511 with its work at `w`. -/
def matDesc (k : Nat) (w : Work) : Desc := acc (.host 0) (matmulBytes k) (.array 511) w

/-- A descriptor of type `t` with its operands, alone. -/
def some_ (t : Nat) (rest : Bytes) (w : Work) (p : Place := .movers 0) : Desc := acc (.host 0) (desc t rest) p w

theorem wit_ArraysAndSlicesRun_slice :
    (∀ e ∈ [(only imaged vecDesc, vecDesc, 511, true), (only imaged putDesc, putDesc, 0, true), (without (only imaged putDesc) 50, putDesc, 0, false)],
      e.1.descs.find? (fun d => d.place == .slice e.2.2.1 && d.work == .queued) = some e.2.1 ∧ e.1.mayStart e.2.1 = e.2.2.2) ∧
    (let s := without (only imaged putDesc) 50
     s.orderOk putDesc = true ∧ s.behind putDesc = false) ∧
    (let d := { vecDesc with bytes := desc tyVECOP [] 1 511 }
     let s := { imaged with descs := [some_ tyCOPY [] .queued, { d with id := 8 }] }
     s.descs.find? (fun d => d.place == .slice 511 && d.work == .queued) = some { d with id := 8 } ∧ s.orderOk { d with id := 8 } = false ∧
     s.mayStart { d with id := 8 } = false) := by decide +kernel

/-- A MATMUL that a SOLVE offloads to array 511. -/
def offloaded : Offload := { engine := 0, solve := 7, n := 511, seq := 3, interval := 32, k := 64, flags := 0, tag := 0 }

theorem wit_ArraysAndSlicesRun_array :
    (only on (matDesc 64 .queued)).startable 511 = some (.inl (matDesc 64 .queued)) ∧
    { on with offloads := [offloaded] }.startable 511 = some (.inr offloaded) ∧
    (let d := matDesc 64 (.mat 0 0 false [])
     (only on d).firstOf 511 Desc.inProducts Offload.inProducts = some (.inl d) ∧ (only on d).writingBack 511 = false ∧
     0 + 1 = mmContributions d.bytes (mmCfg d.bytes d.num)) ∧
    (let d := matDesc 128 (.mat 0 0 false [])
     (only on d).firstOf 511 Desc.inProducts Offload.inProducts = some (.inl d) ∧ (only on d).writingBack 511 = false ∧
     0 + 1 < mmContributions d.bytes (mmCfg d.bytes d.num) ∧ matmulCheck d.bytes d.num = stOK) ∧
    (let d := matDesc 64 (.mat 1 0 false [1])
     (only on d).firstOf 511 Desc.inWriteback Offload.inWriteback = some (.inl d)) ∧
    (let o := { offloaded with left := some 0 }
     { on with offloads := [o] }.firstOf 511 Desc.inWriteback Offload.inWriteback = some (.inr o)) := by decide +kernel

/-- A PERMUTE with BUCKET `b` and CTRL `c` for the pending epoch 6. -/
def permuteDesc (b c : Nat) (w : Work) : Desc := some_ tyPERMUTE (List.replicate 20 0 ++ leBytes 4 b ++ leBytes 8 c ++ leBytes 4 6) w

theorem wit_MoversWaitAndVote :
    (on.stepped.2 ≤ 999999 ∧ 999999 < on.tick ∧ on.tick < 1000001 ∧ 1000000 = on.tick ∧ on.pending = []) ∧
    (∀ k ∈ [0, 14, 15], let d := { some_ tyCOPY [] .queued with retry := [(storeBase 0, leBytes 8 7, k)] }
      (only on d).losing 0 = some d) ∧
    (let d := some_ tyCURVGATHER [] (.emit [1] 0 (some 1000000) 0)
     (only on d).desc? d.id = some d ∧ 1000000 ≤ on.tick) ∧
    (let d := some_ tyGATHER (List.replicate 0x28 0 ++ leBytes 8 999999) (.gather stOK [(0, 64, 1000000)])
     (only on d).desc? d.id = some d ∧ d.gathering = true ∧ 0 < Ga.deadline d.bytes ∧ (only on d).overdue (Ga.deadline d.bytes) = true) ∧
    (let d := permuteDesc 0 0 .queued
     let s := (only imaged d).setBkt 0 { count := 1 }
     s.desc? d.id = some d ∧ dType d.bytes = tyPERMUTE ∧ pmFinal d.bytes = false ∧ s.runOut d.limit = true ∧ Pm.bucket d.bytes ≠ 0xFFFFFFFF ∧
     d.inTime = false ∧ (s.bkt 0).drained = false ∧ s.overdue d.limit = true) ∧
    (let d := permuteDesc 0xFFFFFFFF 1 (.final stOK)
     let s := only imaged d
     s.shard.begun = false ∧ s.waitingFinal = some (d, stOK) ∧ s.switchReady d = true) ∧
    (let d := permuteDesc 0xFFFFFFFF 1 .queued
     (only imaged d).finalDesc = some d ∧ (only imaged d).runOut d.limit = true) ∧
    (let d := permuteDesc 0xFFFFFFFF 1 (.final stOK)
     let s := (only imaged d).setBkt 0 { count := 1 }
     s.finalDesc = some d ∧ s.runOut d.limit = true ∧ s.switchReady d = false) := by decide +kernel

/-- A GATE of STEP 0. -/
def gateDesc (w : Work) : Desc := some_ tyGATE [] w .issuer

/-- The ready list of step 0, in cluster 0. -/
def list0 : ReadyList := { step := 0, n := 0, off := 0, counter := 3 }

theorem wit_GatesFormAndObey :
    (let d := gateDesc .gate
     let s := (only imaged d).setBkt 0 { st := .complete, count := 4 }
     s.openGate = some d ∧ s.grad.gate.own = none ∧ s.gateReady (Gt.step d.bytes) = true ∧ s.asleep s.buffersDomains = [] ∧
     (without s 50).gateReady (Gt.step d.bytes) = true ∧ (without s 50).asleep (without s 50).buffersDomains ≠ []) ∧
    (let s := { imaged with grad := { imaged.grad with lists := [list0] } }.setBkt 0 { st := .decided, step := 0, fwdSent := true }
     s.nextRelease = some (list0, 0) ∧ s.domOn (list0.n / 16) = true) ∧
    (let s := without ({ imaged with grad := { imaged.grad with lists := [list0] } }.setBkt 1 { st := .decided, step := 0, fwdDone := true }) 0
     s.nextRelease = some (list0, 1) ∧ s.domOn (list0.n / 16) = false) ∧
    (∀ w ∈ [Work.queued, .gate], (only imaged (gateDesc w)).barTakes = true ∧ (only imaged (gateDesc w)).gateDesc = some (gateDesc w)) ∧
    ((w8 1).sets 0 = true ∧ (w8 1).sets 1 = false ∧ (w8 1).sets 2 = false) ∧ ((w8 2).sets 0 = false ∧ (w8 2).sets 1 = true ∧ (w8 2).sets 2 = false) ∧
    ((w8 4).sets 0 = false ∧ (w8 4).sets 1 = false ∧ (w8 4).sets 2 = true) ∧ imaged.gateDesc = none ∧
    (w8 (2 ^ 64 - 1)).get? 0 64 = some (2 ^ 64 - 1) ∧ imaged.stepFree = true ∧ (only imaged (gateDesc .gate)).stepFree = false := by decide +kernel

/-- A SOLVE of factor 0 on engine 0 in phase `p` by METHOD `m`, with its descriptor. -/
def solving (p : SolvePhase) (m : Nat) (deadline : Nat := 1000000) : Solve :=
  { id := 7, factor := 0, phase := p, n := 64, p := 2, method := m, maxIter := 4, tol := 0, group := 0, eps := 0, sig := 0, step := 0
    deadline := deadline, a := [], m := [], cands := [], iters := 0, warm := false, warmRefused := false, underrun := false, clamped := false, cause := 0
    flags := 0, late := false }

def solveDesc (w : Work) (limit : Nat := 1000000) : Desc := { some_ tySOLVE [] w (.engine 0) with limit := limit }

def runs (v : Solve) : State := (only imaged (solveDesc .solve)).setEng 0 { run := some v }

theorem wit_SolvesRun :
    (let d := solveDesc .queued
     let s := only imaged d
     s.enginePresent 0 = true ∧ (s.eng 0).run = none ∧ s.headSolve 0 = some d ∧ s.factorBusy d = false ∧ s.orderOk d = true ∧ s.swapDue 0 = false ∧
     s.overdue d.limit = false ∧ s.asleep (s.needs d) = [] ∧ (s.factorRec (So.factor d.bytes)).isSome = true ∧
     s.readRetired 0 (So.factor d.bytes) 64 (soWarm d.bytes) = false ∧
     { s with flash := { s.flash with retired := [0x3000000] } }.readRetired 0 (So.factor d.bytes) 64 (soWarm d.bytes) = true ∧
     (∀ r ∈ s.factorRec (So.factor d.bytes), r.dim = 64)) ∧
    (let d := { solveDesc .queued with place := .engine 3 }
     let s := { only imaged d with engineMap := [some 0, some 1, some 2, none] }
     s.enginePresent 3 = false ∧ s.engineQueue 3 = [d]) ∧
    (∀ e ∈ [(SolvePhase.start, 1), (.compute, 1), (.compute, 0), (.compute, 2)],
      ((runs (solving e.1 e.2)).eng 0).run = some (solving e.1 e.2) ∧ ((runs (solving e.1 e.2)).eng 0).products = [] ∧ (runs (solving e.1 e.2)).overdue (solving e.1 e.2).deadline = false) ∧
    (∀ p ∈ [SolvePhase.start, .compute], let v := solving p 1 999999
      (runs v).desc? v.id = some (solveDesc .solve) ∧ ((runs v).eng 0).run = some v ∧ (runs v).overdue v.deadline = true) ∧
    (let d := solveDesc .queued 999999
     (only imaged d).desc? d.id = some d ∧ dType d.bytes = tySOLVE ∧ (only imaged d).overdue d.limit = true) ∧
    (∀ p ∈ [SolvePhase.choose, .writeback], ((runs (solving p 1)).eng 0).run = some (solving p 1) ∧
      (runs (solving p 1)).asleep (runs (solving p 1)).sergeDomains = []) := by decide +kernel

/-- Factor 0 with one packet in its ring. -/
def ringed : State := imaged.setFactor 0 { ring := [{ entered := 3, bytes := List.replicate 64 0 }] }

/-- Engine 0 marked in flash, for a swap. -/
def marked (m : List (Option Nat)) : State :=
  { imaged with flash := { imaged.flash with marks := { imaged.flash.marks with engines := [0] } }, engineMap := m }

theorem wit_FoldsAndSwaps :
    (∀ s ∈ [ringed, without ringed 50], (s.factorRec 0).isSome = true ∧ (s.factor 0).ring = [{ entered := 3, bytes := List.replicate 64 0 }] ∧
      (∀ r ∈ s.factorRec 0, s.foldEngine 0 r ≠ none) ∧ s.foldBarred 0 { entered := 3, bytes := List.replicate 64 0 } = false) ∧
    ringed.asleep ringed.sergeDomains = [] ∧ (without ringed 50).asleep (without ringed 50).sergeDomains ≠ [] ∧
    (let s := marked [some 0, some 1, some 2, some 3]
     s.swapDue 0 = true ∧ s.domOn 40 = true ∧ (s.eng 0).run = none ∧ (s.replaceEngine 0).enginePresent 0 = true) ∧
    (let s := marked [some 0, some 1, some 4, some 3]
     s.swapDue 0 = true ∧ s.domOn 40 = true ∧ (s.eng 0).run = none ∧ (s.replaceEngine 0).enginePresent 0 = false) ∧
    (let r : Reserve := { src := 1, txn := 9, since := 750000, len := 64, got := [] }
     let s := imaged.setFactor 0 { reserved := [r] }
     (s.factor 0).reserved = [r] ∧ s.runOut (r.since + 250000) = true) := by decide +kernel

/-! ### Witnesses: host queues -/

/-- Queue 63, bound to ring 63. -/
def q63 (x : Sq) (c : Cq := {}) : State := { imaged with sqs := [(63, { x with cq := 63 })], cqs := [(63, c)] }

theorem wit_SubmissionQueues :
    let w := w8 (1 + 63 * 2 ^ 16)
    (w.sets 0 = true ∧ w.sets 22 = false) ∧
    (∀ e ∈ [true, false], let s := q63 { sizeLog2 := 16 } { enable := e }
      s.barTakes = true ∧ (s.sq 63).enable = false ∧ (s.cq (w.upd 16 6 (s.sq 63).cq)).enable = e) ∧
    (q63 { enable := true }).barTakes = true ∧ ((q63 { enable := true }).sq 63).enable = true ∧
    ((w8 0).get? 0 1 = some 0 ∧ (w8 0).sets 22 = false) ∧
    (∀ v ∈ [0, 15, 16, 0xFFFF], (w8 v).get? 0 16 = some v ∧ (w8 v).sets 32 = false ∧ (w8 v).sets 33 = false) ∧
    (15 < 2 ^ ((q63 {}).sq 63).sizeLog2 ∧ 2 ^ ((q63 {}).sq 63).sizeLog2 ≤ 16 ∧ (q63 {}).hif.waiting.any (fun e => e.req.holdsDoorbell) = false) ∧
    (let a := w8 (2 ^ 22 + 1)
     a.sets 22 = true ∧ a.get? 0 1 ≠ some 0 ∧ ((q63 { enable := true }).sq 63).held = none ∧ ∀ d ∈ (q63 { enable := true }).descs, d.iss ≠ .host 63) ∧
    ((q63 { enable := true, held := some (copyOffer.bytes, 1, {}) }).sq 63).held = some (copyOffer.bytes, 1, {}) ∧
    (∀ w ∈ [Work.queued, .emit [1] 0 none 0], let d := acc (.host 63) copyOffer.bytes (.movers 0) w
      let s := only (q63 { enable := true } { enable := true }) d
      (s.sq 63).held = none ∧ s.descs = [d] ∧ d.iss = .host 63 ∧ s.barTakes = true ∧ (s.sq 63).enable = true ∧
      (s.cqs.get {} (s.sq 63).cq).enable = true) := by
  decide +kernel

theorem wit_CompletionRings :
    ((w8 1).sets 0 = true ∧ (w8 1).sets 1 = false ∧ ((q63 {}).cq 63).enable = false) ∧
    ((w8 0).get? 0 1 = some 0 ∧ (w8 0).sets 1 = false ∧ (q63 {} { enable := true }).cqIdle 63 = true ∧
      (q63 { enable := true } { enable := true }).cqIdle 63 = false ∧ ((q63 { enable := true } { enable := true }).cq 63).enable = true) ∧
    (∀ v ∈ [0, 15, 16, 0xFFFF], (w8 v).get? 0 16 = some v ∧ (w8 v).sets 33 = false) := by decide +kernel

/-- A valid entry of queue 63. -/
def entry : Bytes := desc tyFENCE []

theorem wit_EntriesAreFetched :
    (let s := (imaged.setCore 5 { st := .run, hold := .issue {}, prog := [(0, BitVec.ofNat 64 (word opISSUE 0 1 0 4))] })
     s.grantOrder 0 = [0, 1, 2, 3, 4] ++ 5 :: (List.range 11).map (6 + ·) ∧ (∀ i ∈ [0, 1, 2, 3, 4], s.tryGrant 0 i = none) ∧ (s.tryGrant 0 5).isSome = true) ∧
    (let s := q63 { enable := true, held := some (entry, 1, {}) } { enable := true }
     s.grantOrder 511 = List.range 16 ++ 16 :: [] ∧ (∀ i ∈ List.range 16, s.tryGrant 511 i = none) ∧ (s.tryGrant 511 16).isSome = true) ∧
    (∀ loc ∈ [true, false], ∀ base ∈ [storeBase 0, storeBase 0 + storeSize],
      let s := q63 { enable := true, loc := loc, base := base, head := 15, tail := 3, acted := 3 } { enable := true }
      s.barTakes = true ∧ 3 ≤ s.startPhase ∧ s.nextQueue = some 63 ∧ entry.length = 64 ∧ (s.sq 63).loc = loc ∧
      (base = storeBase 0 → s.populated (base + 15 * 64) 64 = true ∧ s.touchesRetired (base + 15 * 64) 64 = false ∧
        s.asleep (s.rangeDomains (base + 15 * 64) 64) = []) ∧
      (base ≠ storeBase 0 → s.populated (base + 15 * 64) 64 = false)) ∧
    (∀ e ∈ [aeFETCH_UR, aeFETCH_TIMEOUT], 8 ≤ e ∧ e ≤ 11) ∧
    (let s := q63 { enable := true, head := 15, tail := 3, acted := 3 } { enable := true }
     let u := { s with lastServed := some 63 }.setSq 63 { s.sq 63 with head := 0 }
     (u.offer { iss := .host 63, bytes := entry, lost := [] } 0).isSome = true ∧
     (let f := u.accept { iss := .host 63, bytes := entry } 0
      (f.offer { iss := .host 63, bytes := entry, lost := [] } 0).isNone = true)) := by decide +kernel

/-! ### Witnesses: operations of the MP -/

theorem wit_DamaskOperations :
    (∀ nv ∈ [true, false], { imaged with nv := nv }.nv = nv) ∧ imaged.flash.damask.get none 0 = none ∧
    imaged.flash.slotValid 0 = false ∧ ({ imaged.flash with damask := [(0, some [1])] } : Flash).slotValid 0 = false ∧
    (∀ op ∈ [0, 1, 2, 3], (w8 (1 + 2 * op)).sets 0 = true ∧ (w8 (1 + 2 * op)).get? 1 2 = some op) ∧
    imaged.barTakes = true ∧ imaged.dmkBusy = false ∧ imaged.mpTakes = true ∧ { imaged with dmk := { imaged.dmk with busy := true } }.dmkBusy = true ∧
    { imaged with mpRunning := false }.mpTakes = false ∧ { imaged with dmk := { imaged.dmk with clearing := true, busy := true } }.dmk.clearing = true ∧
    (let s := { imaged with startPhase := 3 }
     s.barTakes = true ∧ s.mpRunning = true ∧ s.fw.restarting = false ∧ s.dmk.busy = false ∧ s.flash.bootSet = false ∧ s.dmk.clearing = false) := by
  decide +kernel

/-- GBL_SEQ_CTRL: GO, OP, cluster 511, all 16 cores, COUNT. -/
def seqW (op count : Nat) : Wr := w8 (1 + 2 * op + 511 * 2 ^ 8 + 0xFFFF * 2 ^ 32 + count * 2 ^ 48)

theorem wit_SequencerOperations :
    (∀ e ∈ [(0, 8192), (0, 1), (1, 8191), (2, 0)], (seqW e.1 e.2).sets 0 = true ∧ (seqW e.1 e.2).sets 4 = false ∧ (seqW e.1 e.2).sets 5 = false ∧
      (seqW e.1 e.2).get? 1 2 = some e.1 ∧ imaged.seqCheck e.1 511 0xFFFF e.2 0 = stOK) ∧
    (∀ e ∈ [(0, 0), (0, 8193), (1, 8192)], (seqW e.1 e.2).get? 1 2 = some e.1 ∧ imaged.seqCheck e.1 511 0xFFFF e.2 0 ≠ stOK) ∧
    imaged.seqCheck 2 0 0xFFFF 0 0 ≠ stOK ∧ imaged.barTakes = true ∧ imaged.seq.busy = false ∧ imaged.mpTakes = true ∧
    imaged.asleep (511 / 16 :: imaged.rangeDomains 0 65536) = [] := by decide +kernel

theorem wit_PagesRetire :
    (w8 1).sets 0 = true ∧ (w8 1).sets 3 = false ∧ (w8 1).sets 4 = false ∧ (w8 1).get? 1 1 = some 0 ∧ (w8 3).get? 1 1 = some 1 ∧
    imaged.retire.busy = false ∧ imaged.mpTakes = true ∧ imaged.retireCheck 0 0 {} = rtOK ∧ imaged.retireCheck 0 0x1FFFFF0000 {} = rtOK ∧
    imaged.retireCheck 0 0x2000000000 {} ≠ rtOK ∧ imaged.retireCheck 1 0 {} ≠ rtOK ∧
    { imaged with flash := { imaged.flash with retired := [0] } }.retireCheck 1 0 {} = rtOK ∧
    { imaged with retire := { imaged.retire with busy := true } }.retire.busy = true ∧
    (let v := imaged.calicoNow
     let s := { imaged with calico := { imaged.calico with view := some v }, retire := { imaged.retire with busy := true } }
     s.calico.view = some v ∧ v.retired = s.flash.retired ∧ v.retired ≠ { s with flash := { s.flash with retired := [0] } }.flash.retired) := by
  decide +kernel

theorem wit_FirmwareOperations :
    (∀ op ∈ [0, 1, 2, 3], (w8 (1 + 2 * op)).sets 0 = true ∧ (w8 (1 + 2 * op)).get? 1 2 = some op) ∧
    imaged.fw.busy = false ∧ imaged.mpTakes = true ∧ imaged.fw.staged = 0xFF ∧ imaged.mpBusy = false ∧
    { imaged with fw := { imaged.fw with staged := 1 } }.fw.staged ≠ 0xFF ∧ { imaged with nv := true }.nv = true ∧ imaged.nv = false ∧
    (∀ b ∈ [none, some FwSlot.golden], let f := { imaged.fw with bootedSlot := 0, slots := imaged.fw.slots.set none 1 b }
      (f.slot 1).any (fun x : FwSlot => x.headerOk) = b.isSome) ∧ { imaged with fw := { imaged.fw with busy := true } }.fw.busy = true := by
  decide +kernel

theorem wit_MpBootsAndReloads :
    (let s := { on with mpRunning := false, startPhase := 0 }
     s.fw.restarting = false ∧ s.up = true ∧ s.domOn 45 = true ∧ s.mpRunning = false ∧ s.startPhase = 0) ∧
    { on with fw := { on.fw with slots := [] } }.fw.readDirectory.bootSlot = none ∧
    (let f := { on.fw with slots := [(2, some { FwSlot.golden with unitSerial := Config.serial })] }
     f.slotCheck 0 ≠ 0 ∧ f.slotCheck 1 ≠ 0) ∧
    { on with fw := { on.fw with restarting := true } }.fw.restarting = true ∧
    (let s := { on with fw := { on.fw with toReload := [[], [0, 511], [], [], [], []] } }
     (s.fw.toReload.getD 1 []).contains 511 = true ∧ s.reloadPoint 1 511 = true) := by decide +kernel

/-- On a unit whose fuses revoke key 0 not and bind it to nothing, the golden slot passes. -/
theorem wit_MpBootsAndReloads_golden (hk : Config.keyRevoked 0 = false) (hb : Config.unitBound = false) : on.fw.readDirectory.bootSlot = some 2 := by
  have h : FwSlot.golden.check = 0 := by simp [FwSlot.check, FwSlot.golden, bindingOk, hk, hb]
  have e : on.fw.readDirectory.slotCheck 2 = FwSlot.golden.check := rfl
  have e0 : on.fw.readDirectory.slotCheck 0 = bcBAD_HEADER := rfl
  have e1 : on.fw.readDirectory.slotCheck 1 = bcBAD_HEADER := rfl
  have o : on.fw.readDirectory.bootOrder = [0, 1, 2] := rfl
  simp [Firmware.bootSlot, o, List.find?, e0, e1, e, h, bcBAD_HEADER]

/-! ### Witnesses: registers, BAR2, the function -/

theorem wit_RegistersTakeAccesses :
    imaged.barTakes = true ∧ (∀ off ∈ [0, 0x3FFFFF8], regOffOk off = true ∧ off % 8 = 0) ∧
    (∀ off ∈ [4, 0x3FFFFFC], regOffOk off = true ∧ off % 8 = 4) ∧ (∀ off ∈ [1, 7, 0x3FFFFFF], regOffOk off = true ∧ off % 8 ≠ 0 ∧ off % 8 ≠ 4) ∧
    (∀ h ∈ [Half.lo, .hi, .both], ({ half := h, v := 0 } : Wr).half = h) ∧
    imaged.clears (regAt 0) = true ∧ { imaged with startPhase := 2 }.clears (regAt 0) = false ∧
    (∀ e ∈ [(2, 0), (4, 2), (8, 4), (16, 0)], ¬((e.1 = 4 ∨ e.1 = 8) ∧ e.2 % e.1 = 0)) ∧
    (let s := { imaged with hif := { imaged.hif with d3hot := true } }
     s.hifOn = true ∧ s.hif.d3hot = true) ∧ State.reset.hifOn = false ∧
    (∀ x ∈ imaged.hif.config, aerOffset x.1 ≠ aerUncMask ∧ aerOffset x.1 ≠ aerUncSeverity ∧ aerOffset x.1 ≠ aerCorMask) := by decide +kernel

theorem wit_GlobalRegistersWrite :
    (w8 0xFFFFFFFF).get? 0 32 = some 0xFFFFFFFF ∧ imaged.domOn (511 / 16) = true ∧ (without imaged 31).barTakes = true ∧
    (without imaged 31).domOn (511 / 16) = false := by decide +kernel

theorem wit_ForceMovesDomains :
    (∀ v ∈ [0, 1, 2, 3], (w8 v).get? 0 2 = some v) ∧ imaged.barTakes = true ∧
    (∀ f ∈ [2, 3], ({ imaged with descs := [] }.setDom 31 { imaged.dom 31 with force := f }).domIdle 31 = true) ∧
    (let s := imaged.setCore 0 { st := .run }
     (s.dom 0).st = .on ∧ ∀ f ∈ [2, 3], (s.setDom 0 { s.dom 0 with force := f }).domIdle 0 = false) ∧
    (∀ st ∈ [DomSt.retain, .off], ((imaged.setDom 57 { imaged.dom 57 with st := st }).dom 57).st = st) ∧
    ((imaged.setDom 57 { imaged.dom 57 with force := 1 }).dom 57).force = 1 ∧ imaged.envOff 43 = true := by decide +kernel

/-- BAR2 shows the last 64 KiB of the store of cluster 0 from `base` on. -/
def barred (base : Nat) (waiting : List Parked := []) : State := { imaged with hif := { imaged.hif with bar2Base := base, waiting := waiting } }

theorem wit_Bar2ReachesMemory :
    (let s := barred (storeBase 0)
     s.barTakes = true ∧ (∀ e ∈ [(0, 1), (0x5FFFFF, 1), (0x5FFFC0, 64)], bar2Ok e.1 e.2 = true ∧ s.bar2Reaches (storeBase 0 + e.1) e.2 = true ∧
       s.asleep (s.rangeDomains (storeBase 0 + e.1) e.2) = [] ∧ s.behindWrite (storeBase 0 + e.1) e.2 = false)) ∧
    (without (barred (storeBase 0)) 0).bar2Reaches (storeBase 0) 8 = true ∧
    (without (barred (storeBase 0)) 0).asleep ((without (barred (storeBase 0)) 0).rangeDomains (storeBase 0) 8) ≠ [] ∧
    (barred (storeBase 0) [{ seq := 0, req := .write (storeBase 0 + 7) [1] 0 [] }]).behindWrite (storeBase 0) 8 = true ∧
    (∀ a ∈ [0x5FFFFF, 0x600000], (barred (storeBase 0)).bar2Reaches (storeBase 0 + a) 2 = false) ∧ bar2Ok 0xFFFFFFFFF 1 = true := by decide +kernel

/-- The record of a completed FENCE of queue 0. -/
def fenceRecord : Record :=
  { status := stOK, flags := 0, woke := false, typ := tyFENCE, tag := 0, sq := 0, sqHead := 0, timestamp := 0, result := 0 }

theorem wit_PcieFunction :
    imaged.hifOn = true ∧ configOk 0 = true ∧ configOk 0xFFC = true ∧
    (let s := { imaged with hif := { imaged.hif with d3hot := true } }
     s.hifOn = true ∧ s.hif.d3hot = true ∧ s.hif.owed = [] ∧
     (let t := { s with hif := { s.hif with owed := [(0, fenceRecord)] }, cqs := [(0, { enable := true })] }
      t.hif.d3hot = true ∧ ∀ e ∈ t.hif.owed, (t.cq e.1).enable = true)) ∧
    (HostData.entry entry).wf = true := by decide +kernel

/-! ### Witnesses: resets, the start, supply, pins -/

/-- An uncorrectable error of a store word. -/
def ueError : FaultId × Nat × Nat := ({ kind := fkUE, subject := 0, unit := faultUnit 0 0, location := 0 }, 0, 0)

theorem wit_ModuleResets :
    imaged.flannelOn = true ∧ imaged.resetEnds ≠ imaged.tick + 500 ∧ imaged.up = true ∧
    ([ueError].filter fun e => isUncorrectable e.1.kind).mergeSort (fun a b => decide (a.2.1 ≤ b.2.1)) ≠ [] ∧ (∀ e ∈ [ueError], e.1.kind ≠ fkCE) ∧
    farOk 0 = true ∧ farOk 1 = true ∧ 4799 < 4800 ∧
    (let s := { imaged with up := false, resetEnds := 1000500, log := { imaged.log with lastReset := lrMOD_RESET } }
     s.up = false ∧ s.resetEnds = s.tick + 500 ∧ s.log.lastReset ≠ lrFATAL) := by decide +kernel

theorem wit_StartsAndPower :
    (({} : Probe).wf = true ∧ State.reset.flannelOn = true ∧ State.reset.up = false ∧ State.reset.resetEnds ≤ State.reset.tick) ∧
    (let s := { State.reset with vin := 5601, vinPg := true, modResetN := true, perstN := true }
     s.flannelOn = true ∧ s.up = false ∧ s.vinPg = true ∧ 5600 < s.vin ∧ s.modResetN = true ∧ s.perstN = true ∧ s.resetEnds ≤ s.tick ∧ s.dom 0 = domainDefault 0) ∧
    { State.reset with flannelOn := false }.flannelOn = false := by decide +kernel

theorem wit_CalicoPublishes :
    { on with calico := { on.calico with dirty := true } }.publishDue = true ∧
    { on with startPhase := 2 }.publishDue = true ∧ { on with calico := { on.calico with generation := 1 } }.calico.generation % 2 = 1 := by decide +kernel

theorem wit_SagThresholds :
    on.flannelOn = true ∧ on.nv = false ∧ on.lowSag = false ∧ { on with nv := true }.nv = true ∧ { on with nv := true, lowSag := true }.lowSag = true ∧
    on.up = true ∧ on.dmk.waking = none ∧ on.fw.waiting = none ∧ on.log.persistBusy = false ∧ on.lowTherm = false ∧ 5999 < 6000 ∧ 6200 < 6201 ∧ 5399 < 5400 ∧ 5600 < 5601 := by decide +kernel

/-- What the sensors read at a tick: 70 V, nothing drawn, the reference clock running. -/
def tickSample : Sample := { vin := 7000, iin := 0, pin := 0 }

theorem wit_SensorsAndPins :
    on.flannelOn = true ∧ on.up = true ∧ on.throttled = false ∧ { on with throttled := true }.throttled = true ∧ on.onOsc = false ∧
    { on with powerRun := 400000 }.powerRun = 400000 ∧ on.powerRun < 400000 ∧ { on with calmRun := 25000 }.calmRun = 25000 ∧ on.calmRun < 25000 ∧
    2600 < 2601 ∧ calm 2399 159 = true ∧ calm 2400 159 = false ∧ calm 2399 160 = false ∧
    { on with refRun := 25000 }.refRun = 25000 ∧ on.refRun < 25000 ∧ { on with onOsc := true }.onOsc = true ∧ on.probe.clkSel = false ∧ on.lowTherm = false ∧ { on with lowTherm := true }.lowTherm = true ∧
    (tickSample.perstN = on.perstN ∧ tickSample.modResetN = on.modResetN ∧ tickSample.vinPg = on.vinPg ∧ on.startPhase ≠ 1) ∧
    (∀ b ∈ [true, false], let y := { tickSample with perstN := false }
      let s := { on with pinSample := (b, true, true) }
      y.perstN = false ∧ s.perstN = true ∧ y.modResetN = s.modResetN ∧ y.vinPg = s.vinPg ∧ s.startPhase ≠ 1 ∧ s.pinSample.1 = b) ∧
    on.flashHeld = false ∧ { on with flashHeld := true }.flashHeld = true := by
  decide +kernel

theorem wit_SensorsAndPins_resets :
    (∀ b ∈ [true, false], let y := { tickSample with modResetN := false }
      let s := { on with pinSample := (true, b, true) }
      y.modResetN = false ∧ s.modResetN = true ∧ y.perstN = s.perstN ∧ y.vinPg = s.vinPg ∧ s.startPhase ≠ 1 ∧ s.pinSample.2.1 = b) ∧
    (∀ b ∈ [true, false], let y := { tickSample with vinPg := false }
      let s := { on with pinSample := (true, true, b) }
      y.vinPg = false ∧ s.vinPg = true ∧ y.perstN = s.perstN ∧ y.modResetN = s.modResetN ∧ s.startPhase ≠ 1 ∧ s.pinSample.2.2 = b) := by
  decide +kernel

theorem wit_TestAndI3cPorts :
    on.flannelOn = true ∧ on.modResetN = true ∧ { on with modResetN := false }.modResetN = false ∧ on.vinPg = true ∧ { on with vinPg := false }.vinPg = false ∧
    (∀ off ∈ [0, 0x3FFFFF8], regOffOk off = true ∧ off % 8 = 0 ∧ off < 2 ^ 32) ∧ 0xFFFFFFFF % 8 ≠ 0 ∧ (List.replicate 8 (0 : Byte)).length = 8 ∧
    i3cOk 1 = true ∧ i3cOk 127 = true ∧ on.hif.i3cDyn = none ∧ { on with hif := { on.hif with i3cDyn := some 9 } }.hif.i3cDyn ≠ none ∧
    (let y : I3cXfer := { cmd := some 3 }
     y.addr = none ∧ y.cmd.getD 1 ≠ 1) ∧ (let y : I3cXfer := { len := 4 }; y.addr = none ∧ y.len ≠ 8) ∧
    (let y : I3cXfer := { addr := some 0x2D }; y.addr = some 0x2D ∧ on.hif.i3cDyn.getD 0x2C ≠ 0x2D) ∧ 0x2D ≠ 0x2C := by decide +kernel

/-- The recalibration of tier unit `r`. -/
def recalOf (s : State) (r : Nat) : Recal := s.recal.get {} r

/-! ### Witnesses: faults, scrubbing, domains, tiers -/

/-- A record of `ueError` at tick `t`. -/
def record (t : Nat) : FaultRec :=
  { fid := ueError.1, role := 0, severity := 0, phys := 0, count := 0xFFFFFFFF, tick := t, origin := 0, reporter := 0, bootCount := 0, seq := 1
    detail := 0 }

/-- The state with that record in slot 254. -/
def logged (t : Nat) : State := { on with log := { on.log with slots := [(254, record t)], writeIndex := 0 } }

/-- Tick 1,000,000 lies in window 40: a record of tick 999,999 is of an earlier one. -/
theorem wit_FaultsAreLogged :
    (∀ e ∈ (logged 999999).log.slots, ¬(e.2.fid = ueError.1 ∧ e.2.tick / 25000 = on.tick / 25000)) ∧
    (∃ e ∈ (logged 1000000).log.slots, e.2.fid = ueError.1 ∧ e.2.tick / 25000 = on.tick / 25000) ∧
    SMap.find? (logged 1000000).log.slots 254 = some (record 1000000) := by decide +kernel

/-- The image with its regions under parity where their MODE allows it. -/
def parityImaged : State :=
  { imaged with dmk := { imaged.dmk with inForce := some { image with memory := some { mode := 1, regions := [{ kind := rkGENERAL, ecc := 2, group := 0xFFFF, base := 0x2000000, size := 0x100000 }] } } } }

theorem wit_FaultUpkeep :
    on.mpRunning = true ∧ on.nvHeld = false ∧
    { on with nv := true }.nvHeld = true ∧ on.log.persistBusy = false ∧ on.toPersist = [] ∧
    ((let s := { logged 999999 with nv := true }
      s.toPersist.getLast? = some (record 999999) ∧ Deferred.persist (record 999999).seq ∉ s.deferred)) ∧
    (∀ a ∈ [0, 0x5FFFF8, 0x600000], ready (at_ 8190 (word opLOAD 3 0 0 0 0 a)) opLOAD (word opLOAD 3 0 0 0 0 a) 8190 = true) ∧
    (∀ u ∈ [0, 511, 512, 523, 524], scrubOk u = true ∧ imaged.scrubMay u = true ∧ ((imaged.scrubOf u).pos + 1) * 64 < imaged.scrubBytes u ∧
      (let s := imaged.setScrub u { imaged.scrubOf u with pos := imaged.scrubBytes u / 64 - 1 }
       s.scrubMay u = true ∧ s.scrubBytes u ≤ ((s.scrubOf u).pos + 1) * 64)) ∧
    (scrubOk 549 = true ∧ on.scrubMay 549 = false) ∧
    (∀ u ∈ [0, 524], let s := { imaged with tick := imaged.scrubLimit u + 1 }
      s.up = true ∧ 0 < s.scrubBytes u ∧ s.scrubLimit u < s.tick - (s.scrubOf u).lapStart) ∧
    imaged.codeOf 0 ≠ 2 ∧ parityImaged.codeOf 0x2000000 = 2 := by decide +kernel

/-- `on` with domain `d` in state `st`. -/
def inSt (d : Nat) (st : DomSt) : State := on.setDom d { on.dom d with st := st }

theorem wit_DomainsSleepAndWake :
    (∀ d ∈ [0, 31, 57], on.domIdle d = true ∧ (on.dom d).force ≠ 1 ∧ on.idleFor d (on.dom d).retainAfter = true) ∧
    (let s := { on with tick := 25000000 }
     s.up = true ∧ s.domIdle 31 = true ∧ s.idleFor 31 (s.dom 31).offAfter = true) ∧
    (let s := { (inSt 31 .retain) with tick := 25000000 }
     (s.dom 31).st = .retain ∧ (s.dom 31).wanted = false ∧ s.idleFor 31 (s.dom 31).offAfter = true) ∧
    (∀ d ∈ [0, 31, 32, 39, 57], ∀ st ∈ [DomSt.toRetain, .toOff], ((inSt d st).dom d).st = st ∧ ((inSt d st).dom d).wanted = false ∧
      ((inSt d st).dom d).force = 0) ∧
    (inSt 57 .toRetain).envOff 57 = false ∧ ((inSt 43 .toRetain).envOff 43 = true ∧ (inSt 43 .toRetain).engineDrained (43 - 40) = true) ∧
    ((inSt 0 .wakeOff).runOut (((inSt 0 .wakeOff).dom 0).wakeAt + (inSt 0 .wakeOff).wakeBound 0) = true ∧
      (let s := { (inSt 0 .wakeOff) with tick := 1449 }
       s.waking 0 = true ∧ s.runOut ((s.dom 0).wakeAt + s.wakeBound 0) = false)) ∧
    (∀ d ∈ [0, 57], ∀ st ∈ [DomSt.wakeOff, .wakeRetain], (inSt d st).waking d = true) ∧
    (let s := only (inSt 0 .wakeOff) (acc (.core 5) (desc tyVECOP [] 0 0) (.slice 0) .queued)
     ∃ e ∈ s.descs, s.waitsOn 0 e = true ∧ e.work = .queued) := by decide +kernel

theorem wit_EnvelopesSwitch :
    (let s := { on with env := { on.env with phase := .falls, engines := 3 } }
     s.up = true ∧ s.env.phase = .falls ∧ s.fallsDone = false ∧ (without s 43).fallsDone = true ∧
     ((without s 43).setPort 0 { st := pUP, width := 16, active := 16 }).lanesOk < 17) ∧
    (let s := { on with env := { on.env with phase := .rises } }
     s.env.phase = .rises ∧ s.env.restart = false ∧ s.risesDone = true ∧ (s.setPort 0 { st := pUP, width := 4, widening := some 8 }).risesDone = false) := by
  decide +kernel

/-- The prefetch record of bucket 0 moves 64 bytes. -/
def prefetching : State :=
  { imaged with grad := { imaged.grad with pfBase := storeBase 0 } }.writeBytes (storeBase 0)
    (leBytes 8 (storeBase 0 + 0x1000) ++ leBytes 8 (storeBase 0 + 0x2000) ++ leBytes 4 64)

def moved64 : PfRec := { src := storeBase 0 + 0x1000, stage := storeBase 0 + 0x2000, bytes := 64, writeback := false, valid := false }

theorem wit_TierEvents :
    (∀ e ∈ [(0, 1000000), (7, 1021875), (8, 1000000), (23, 1002250)], let s := { on with tick := e.2 }
      tierOk e.1 = true ∧ s.domOn (unitDomain e.1) = true ∧ slotTick e.1 s.tick = true ∧ (recalOf s e.1).inSlot = false) ∧
    (∀ e ∈ [(0, 25), (8, 5)], let s := { on with recal := [(e.1, { inSlot := true, startTick := 1000000 })], tick := 1000000 + e.2 }
      (recalOf s e.1).inSlot = true ∧ (recalOf s e.1).reloading = false ∧ (recalOf s e.1).startTick + slotLength e.1 (recalOf s e.1).startTick ≤ s.tick) ∧
    (prefetching.pfRec 0 = moved64) ∧
    (∀ b ∈ [0, 16383], let s := prefetching.setBkt b { pfBusy := true, pf := moved64 }
     bucketOk b = true ∧ (s.bkt b).pfBusy = true ∧ s.behindWriteBack b = false ∧ s.asleep (s.pfGates moved64) = [] ∧ (s.bkt b).runningPf = moved64 ∧
     (s.bkt b).pfStale = false ∧ s.touchesRetired moved64.src 64 = false ∧ s.touchesRetired moved64.stage 64 = false ∧ moved64.stage % 64 = 0 ∧
     { s with flash := { s.flash with retired := [storeBase 0] } }.touchesRetired moved64.src 64 = true) ∧
    ((prefetching.setBkt 0 { pfBusy := true, pf := moved64 }).setBkt 1 { wbBusy := true, wb := moved64 }).behindWriteBack 0 = true ∧
    (let s := prefetching.setBkt 0 { wbBusy := true, wb := moved64 }
     (s.bkt 0).wbBusy = true ∧ (s.bkt 0).wb = moved64 ∧ s.asleep (s.pfGates moved64) = []) ∧
    (∀ port ∈ [0, 1], let s := { on with tiers := [(24 + port, { state := 0 })] }
      s.up = true ∧ (s.tiers.get {} (24 + port) : Tier).state = 0) ∧
    (∀ port ∈ [0, 1], let s := { on with tiers := [(24 + port, { state := 0, recovering := true })] }
      (s.tiers.get {} (24 + port) : Tier).recovering = true) := by decide +kernel

/-! ### Witnesses: Gauze -/

/-- Port 0 of the imaged state, up at width 16, with all its lanes. -/
def upPort (x : Port := {}) : Port := ({ x with st := pUP, width := 16 } : Port).allLanes

/-- Port `p` up, or as given. -/
def linked (p : Nat) (x : Port := upPort) : State := imaged.setPort p x

/-- A rotation of logical lane 15 from lane 15 to lane 16. -/
def turning (phase : Nat) : Port := { upPort with rotation := some { logical := 15, old := 15, new := 16, phase := phase } }

theorem wit_LanesRotate :
    (∀ p ∈ [0, 7], ((linked p).port p).alive = true ∧ ((linked p).port p).rotation = none ∧ ((linked p).port p).carrier 15 = some 15) ∧
    portOk 7 = true ∧ laneOk 15 = true ∧ physOk 17 = true ∧
    (∀ ph ∈ [2, 3, 4], ((linked 0 (turning ph)).port 0).alive = true ∧
      ((linked 0 (turning ph)).port 0).rotation = some { logical := 15, old := 15, new := 16, phase := ph }) ∧
    (linked 0 { upPort with rotateNext := [3] }).rotationDue 0 = true ∧
    (∀ w ∈ [4, 8, 16], w = 4 ∨ w = 8 ∨ w = 16) ∧
    (let x : Port := { upPort with widening := some 16 }.setWidth 8
     ((linked 7 x).port 7).alive = true ∧ ((linked 7 x).port 7).rotation = none ∧ ((linked 7 x).port 7).widening = some 16) ∧
    (linked 0).widthNow upPort = 16 := by decide +kernel

theorem wit_LanesFailAndDrift :
    (((linked 7).port 7).lane 17).st ≠ 3 ∧ ((linked 7).port 7).rotation = none ∧ ((linked 0 (turning 2)).port 0).rotation ≠ none ∧
    (((linked 0 (turning 2)).port 0).lane 0).st ≠ 3 ∧ (linked 7).portOn 7 = true ∧
    ((linked 7).windowEnded 7 = true ∧ ∀ i, i < 18 → driftsAt ((linked 7).port 7) (List.replicate 18 1023) (List.replicate 18 32) i = false) ∧
    (let x : Port := { upPort with telNow := { win := 40 }, telLast := { win := 39, tx := 5 } }
     (x.counts imaged.tick).tx = 5 ∧ (x.counts imaged.tick).rx ≠ 1 ∧ ((linked 7 x).port 7).telNow.win = windowOf imaged.tick ∧ ((linked 7 x).port 7).telLast.win + 1 = windowOf imaged.tick ∧
     (linked 7 x).windowEnded 7 = true) ∧
    (windowOf imaged.tick ≤ ({ upPort with telNext := 40 } : Port).telNext ∧ (linked 7 { upPort with telNext := 40 }).windowEnded 7 = false) := by
  decide +kernel

/-- No counts and no measured margins raise no alarm at any lane. -/
theorem wit_LanesFailAndDrift_all : ∀ j, driftsAt ((linked 7).port 7) [] [] j = false := by
  intro j; simp [driftsAt]

/-- A flit of KIND `kind` and SEQ `n` of which the last 3 bytes are its CRC-24. -/
def flit (n : Nat) (kind : Nat := 0) : Bytes :=
  let b := leBytes 3 (kind + n * 2 ^ 7) ++ List.replicate 58 0
  let c := crc24 b
  b ++ [BitVec.ofNat 8 (c / 65536), BitVec.ofNat 8 (c / 256), BitVec.ofNat 8 c]

theorem wit_FlitsArriveAndLeave :
    (∀ n ∈ [0, 65535], let s := linked 7 { upPort with rxSeq := n }
      (flit n).length = 64 ∧ (s.port 7).st = pUP ∧ (s.port 7).alive = true ∧ flKind (flit n) = 0 ∧ flitCrcOk (flit n) = true ∧ flSeq (flit n) = (s.port 7).rxSeq ∧
      flTail (flit n) = false) ∧
    (flSeq (flit 1) ≠ ((linked 7).port 7).rxSeq ∧ ((linked 7).port 7).nakAt = none ∧ ((linked 7).port 7).badAt = []) ∧
    (let x : Port := { upPort with badAt := [(17, 0, 999976), (17, 1, 999990), (17, 2, 1000000)] }
     let bad : Option (Nat × Nat) := some (17, 3)
     ((linked 7 x).port 7).alive = true ∧ (bad.all fun e => physOk e.1) = true ∧ (((linked 7 x).port 7).lane 17).st ≠ 3 ∧
     (∀ e ∈ ((linked 7 x).port 7).badAt, (linked 7 x).tick < e.2.2 + 25 → ¬(e.1 = 17 ∧ e.2.1 = 3)) ∧
     3 ≤ (((linked 7 x).port 7).badAt.filter fun e => e.1 == 17 && decide ((linked 7 x).tick < e.2.2 + 25)).length) ∧
    (∀ k ∈ [1, 2], flKind (flit 0 k) = k ∧ flitCrcOk (flit 0 k) = true ∧ (flit 0 k).length = 64) ∧ flitCrcOk ((flit 0 2).set 60 1) = false ∧
    (flitCrcOk ((flit 0).set 60 1) = false ∧ ((flit 0).set 60 1).length = 64) ∧
    (linked 7).controlDue 7 = true ∧ ((linked 7).port 7).resend = [] := by decide +kernel

/-- A control flit with every field at its highest value. -/
def highest : CtlFlit :=
  { action := 255, arg0 := 255, arg1 := 255, actionId := 255, ackSeq := 65535, nak := some 65535, timeLocked := true, lanesOk := 255, node := 65535
    podId := 2 ^ 32 - 1, credit := List.replicate 7 65535, txTime := 2 ^ 64 - 1, echoTime := 2 ^ 64 - 1, echoRx := 2 ^ 64 - 1, port := 255 }

theorem wit_FlitsCarryPacketsWhole :
    ({ seq := 65535, vc := 3, cls := 1, head := true, tail := true, payload := List.replicate 58 255 } : Flit).wf = true ∧ highest.wf = true ∧
    onWire { dst := 65535, src := 65535, kind := kWRITE, rflags := 255, epoch := 2 ^ 32 - 1, txn := 2 ^ 32 - 1, cls := 0
             hdr := opHeader 0 5 0 0 0 0, data := [1, 2, 3, 4, 5] } = true ∧
    onWire { dst := 1, src := 0, kind := kREAD_REQ, epoch := 5, txn := 3, hdr := opHeader 0 64 0 0 0 0, data := [] } = true ∧
    onWire { dst := 1, src := 0, kind := kCOLL, epoch := 5, txn := 3, hdr := List.replicate 16 0, data := List.replicate 84 7 } = true := by decide +kernel

theorem wit_LinksAreLost :
    (∀ p ∈ [0, 7], ((linked p).port p).alive = true ∧ ((linked p).port p).lastValid + 200 < (linked p).tick ∧ (linked p).silent p = true) ∧
    (let s := linked 0 { upPort with lastValid := 999800 }
     s.silent 0 = true ∧ { s with pending := [.dataFlitReceive 0 (flit 0) none] }.silent 0 = false) ∧
    (linked 0 { upPort with lastValid := 999801 }).silent 0 = false ∧
    (((linked 0).port 0).width < 2 * 9 ∧ ((linked 0).port 0).width < 2 * 18) ∧
    (let k : Txn := { txn := 9, use := .desc 7, kind := kREAD_REQ, sub := 0, dst := 1, sent := 750000, addr := 0, len := 64, off := 0, queued := false }
     let s := { imaged with txns := [k] }
     s.txns.find? (·.txn == k.txn) = some k ∧ s.runOut (k.sent + 250000) = true ∧
     { imaged with txns := [{ k with queued := true }] }.txns.find? (·.txn == k.txn) = some { k with queued := true }) ∧
    ([0, 17].all physOk = true ∧ ((linked 0 { st := pTRAINING }).port 0).st = pTRAINING) := by decide +kernel

theorem wit_PortsTakeWrites :
    ((w8 8).sets 3 = true ∧ (w8 8).sets 14 = false ∧ ((linked 0 { upPort with st := pHELD, lost := true }).port 0).lost = true) ∧
    (linked 0).barTakes = true ∧ (linked 0).portOn 0 = true ∧
    ((w8 1).sets 0 = true ∧ (w8 1).sets 5 = false ∧ (w8 1).sets 6 = false) ∧ ((w8 32).sets 0 = false ∧ (w8 32).sets 5 = true ∧ (w8 32).sets 6 = false) ∧
    ((w8 64).sets 0 = false ∧ (w8 64).sets 5 = false ∧ (w8 64).sets 6 = true) ∧
    (∀ st ∈ [pDOWN, pMISMATCH], (linked 0 { st := st }).portUsed 0 = true ∧ ((linked 0 { st := st }).port 0).st = st) ∧
    ((linked 0).port 0).st = pUP ∧ (linked 7).portUsed 7 = false := by decide +kernel

/-! ### Witnesses: packets, buckets, stages -/

/-- A packet of `kind` from module 1 to module 0. -/
def packet (kind : Nat) (hdr : Bytes) (data : Bytes := []) (epoch : Nat := 5) : Packet :=
  { dst := 0, src := 1, kind := kind, epoch := epoch, txn := 3, hdr := hdr, data := data }

/-- That packet, whole at the module. -/
def arrived (s : State) (k : Packet) : State := { s with arrived := [k] }

theorem wit_PacketsAndBeaconsMoveOn :
    (let k := { packet kWRITE (opHeader 0 64 0 0 0 0) (List.replicate 64 1) with dst := 1, src := 0 }
     let s := { linked 0 { upPort with lastCtlSent := 1000000 } with egress := [k] }
     s.egress[0]? = some k ∧ (s.exit? k).map (·.1) = some 0 ∧ s.chosen 0 0 = true) ∧
    (let k := { packet kWRITE (opHeader 0 64 0 0 0 0) (List.replicate 64 1) with dst := 1, src := 0 }
     let s := { linked 0 { upPort with creditTx := [0, 0, 0, 0, 0, 0, 0] } with egress := [k] }
     (s.exit? k).map (·.1) = some 0 ∧ s.chosen 0 0 = false) ∧
    (let k := packet kACK (opHeader 0 0 0 0 0 0)
     let s := { imaged with egress := [k] }
     s.egress[0]? = some k ∧ s.exit? k = none ∧ s.nextHop k = .deliver) ∧
    (let k := { packet kWRITE (opHeader 0 64 0 0 0 0) (List.replicate 64 1) with dst := 1, src := 0 }
     let x : Port := { st := pDOWN, lost := true }
     let s := { (imaged.setPort 0 x).setPort 1 x with egress := [k] }
     s.exit? k = none ∧ s.nextHop k = .lost) ∧
    (let k := packet kBEACON (List.replicate 16 0) (List.replicate 64 0)
     (arrived imaged k).holds k = true ∧ k.kind = kBEACON) ∧
    imaged.knowsLoss (0, 0) 1000000 = false ∧ { imaged with lostLinks := [((0, 0), 1000000)] }.knowsLoss (0, 0) 1000000 = true := by decide +kernel

/-- The 16 bytes of a COLL packet of subkind `sub`. -/
def collHdr (sub : Nat) : Bytes := leBytes 1 sub ++ List.replicate 15 0

theorem wit_PacketsAreServed :
    (∀ kind ∈ [kREAD_REQ, kREAD_RESP, kWRITE, kRACC, kSIGNAL, kDELTA, kBUCKET, kACK],
      let k := packet kind (List.replicate 16 0)
      (arrived imaged k).holds k = true ∧ (arrived imaged k).firstOfItsVc k = true ∧ (packetRows k).any (fun e => e.1) = true ∧
      { imaged with arrived := [{ k with txn := 4 }, k] }.holds k = true ∧ { imaged with arrived := [{ k with txn := 4 }, k] }.firstOfItsVc k = false) ∧
    (∀ sub ∈ [skGATE_UP, skGATE_DOWN, skRING_MAX, skRING_SCALE, skRING_DATA, skMIRROR_FWD, skFPRINT, skBCAST_DATA, skPARAM_READ, skPARAM_DATA,
        skROOT_HOLD, skROOT_DROP, skSTAGE_DATA, skSTAGE_CREDIT, skPERMUTE_DATA, skRESHARD_UP, skRESHARD_DOWN], ∀ e ∈ [4, 5, 6],
      let k := packet kCOLL (collHdr sub) [] e
      (arrived imaged k).holds k = true ∧ (packetRows k).any (fun e => e.1) = true) ∧
    (let s := { imaged with shard := { imaged.shard with begun := true }, dmk := { imaged.dmk with pendingImage := some { image with epoch := 6 } } }
     s.epochNow = 5 ∧ s.shard.begun = true ∧ s.epochPending = 6 ∧ s.switchHeld = false ∧
     (only s (permuteDesc 0xFFFFFFFF 1 (.held 0 0))).switchHeld = true) ∧
    (∀ m ∈ [0, 1], imaged.stageTurn (packet kCOLL (leBytes 1 skSTAGE_DATA ++ [0, 1] ++ leBytes 1 m ++ List.replicate 12 0)) = (m == 0)) := by decide +kernel

theorem wit_MemoryPacketsAct :
    (∀ a ∈ [0, storeBase 511 + storeSize - 64],
      let k := packet kWRITE (opHeader a 64 0 0 0 0) (List.replicate 64 9)
      let s := arrived imaged k
      s.holds k = true ∧ s.firstOfItsVc k = true ∧ s.descs = [] ∧ s.txns = [] ∧ k.addr = a ∧ s.rangeStatus k.addr k.data.length false = stOK ∧ s.asleep (s.rangeDomains k.addr k.data.length) = []) ∧
    (let k := packet kWRITE (opHeader (storeBase 511 + storeSize - 63) 64 0 0 0 0) (List.replicate 64 9)
     (arrived imaged k).holds k = true ∧ (arrived imaged k).rangeStatus k.addr k.data.length false ≠ stOK) ∧
    (∀ a ∈ [0, storeBase 511 + storeSize - 64],
      let k := packet kREAD_REQ (opHeader a 64 0 0 0 0)
      let s := arrived imaged k
      s.holds k = true ∧ s.populated k.addr k.bytes = true ∧ s.touchesRetired k.addr k.bytes = false ∧ 0 < k.bytes ∧
      s.asleep (s.rangeDomains k.addr k.bytes) = []) ∧
    (∀ a ∈ [0, 511 * 64 + 63],
      let k := packet kSIGNAL (opHeader a 0 0 0 0 0) (leBytes 4 7)
      let s := arrived imaged k
      s.holds k = true ∧ s.clusterPresent (k.addr / 64) = true ∧ s.domOn (k.addr / 64 / 16) = true) ∧
    (let t : Txn := { txn := 9, use := .mirror 1 4, kind := kCOLL, sub := skMIRROR_FWD, dst := 1, sent := 0, addr := 0, len := 0, off := 0 }
     let s := { imaged with txns := [t] }
     let b := s.setBkt 1 { fwdSent := true, fwdId := 4 }
     b.txns = [t] ∧ (b.bkt 1).fwdFailed = false ∧ (b.bkt 1).fwdSent = true ∧ (b.bkt 1).fwdId = 4 ∧ (s.bkt 1).fwdSent = false ∧ { imaged with txns := [{ t with use := .plain }] }.txns = [{ t with use := .plain }] ∧
     ∀ x ∈ imaged.txns, x.txn ≠ 9) := by decide +kernel

theorem wit_BucketsCount :
    (imaged.bucketRec 0).isSome = true ∧ imaged.role 0 = some false ∧ (imaged.bkt 0).countN = 0xFFFFFFFF - (imaged.bkt 0).count ∧ (imaged.bkt 0).step ≠ 1 ∧
    (imaged.bkt 0).eff = .opened ∧ (∀ r ∈ imaged.bucketRec 0, 0 + 4 = r.expected ∧ r.expected < 0 + 5) ∧
    imaged.role 2 = none ∧ imaged.role 1 = some true := by decide +kernel

/-- A segment of `len` bytes into the forward queue of stage 1. -/
def segment (len : Nat) : StageSeg :=
  { stage := 1, dir := 0, credit := 0x1000, group := 0, microBatch := 0, off := 0, len := len, last := false, src := 0, step := 0 }

theorem wit_StagesSend :
    (∀ len ∈ [64, 2048], (segment len).wf = true ∧ imaged.up = true ∧ imaged.shard.sends = [] ∧ imaged.feeds (segment len) = true ∧
      imaged.follows (segment len) = true ∧ imaged.lacksCredit (segment len) = false ∧ imaged.touchesRetired 0 len = false ∧ imaged.stageNode 1 ≠ imaged.node ∧
      imaged.asleep (imaged.rangeDomains 0 len) = []) ∧
    imaged.follows (segment 65) = false ∧ (segment 65).wf = true ∧ imaged.feeds { segment 64 with stage := 0 } = false ∧
    imaged.feeds { segment 64 with group := 1 } = false ∧
    (let s := { imaged with shard := { imaged.shard with tx := [(stageKey 1 0, { sent := 0x1000, carried := 0x1000 })] } }
     s.feeds (segment 64) = true ∧ s.follows (segment 64) = true ∧ s.lacksCredit (segment 64) = true ∧
     { s with shard := { s.shard with sends := [segment 64] } }.lacksCredit (segment 64) = true) := by decide +kernel

/-! ### Witnesses: memory and the whole state -/

theorem wit_WrittenBytesRead : isSram (storeBase 511) = true ∧ SMap.find? on.mem (storeBase 511) = none := by decide +kernel

theorem wit_StepsKeepMemoryForm : State.reset.MemForm ∧ ∃ t, step State.reset = .next t := ⟨by decide, State.reset, rfl⟩

theorem wit_TimeNeverGoesBack : ∃ t, exec (.flannelTick tickSample) on = .next t := ⟨_, rfl⟩

theorem wit_CommandsLeaveTheQueue : ∃ t, exec (.flannelTick tickSample) on = .next t := ⟨_, rfl⟩

/-! ### Well-formedness: each check refuses an ill-formed command, and takes its boundary -/

/-- Ill-formed commands: units beyond the last, byte runs of a wrong size, fields out of range. -/
def illFormed : List Instr :=
  [.matmulStart 512, .wait 8192, .issue 8192 {}, .solveStart 4, .calRotation 8, .farLinkRecoveryStart 2, .domainWakeComplete 58 [], .fetchErrClear 64,
   .scrubOverdue 550, .recalSlotStart 26, .deltaPacketFold 4096 [], .prefetchEnd 16384 [], .moved 0 16, .moved 8 0, .laneFailureDetect 0 18, .move 0 15 18,
   .registerWrite 0x4000000 (w8 0), .registerReadClear 0x4000000 .both, .bar2Read 0 0 [], .bar2Read 0xFFFFFFFFF 2 [], .bar2Write 0 [] 0 [], .configRequest 0x1000 none,
   .configRequest 2 none, .entdaa 0, .setdasa 128, .i3cRead (2 ^ 32), .i3cWrite (2 ^ 32) [], .firmwareReload 6 0, .wakeFail 0 0, .wakeFail 0 4, .wakeFail 58 1,
   .width 0 5, .dataFlitReceive 0 [] none, .pcieLinkUp 0 16 false, .pcieLinkUp 4 3 false, .lossOfSignal 0 19, .gblCounterWrite 0 64 (w8 0),
   .gblCounterWrite 512 0 (w8 0), .trainingEnd 0 0 0 8 [] 16, .trainingEnd 0 0 0 0 [18] 16, .trainingEnd 0 0 0 0 [] 4, .idleFlitReceive 0, .controlFlitReceive 0 (List.replicate 64 0) (some (18, 0)), .driftAlarm 0 18 0]

theorem test_illFormed : ∀ i ∈ illFormed, i.wf = false := by decide +kernel

theorem test_illFormed_offers :
    (Instr.copy { iss := .core 5, bytes := [] }).wf = false ∧ (Instr.copy { copyOffer with ctr := some 64 }).wf = false ∧
    (Instr.copy { copyOffer with iss := .core 8192 }).wf = false ∧ (Instr.copy { copyOffer with iss := .host 64, ctr := none }).wf = false ∧
    (Instr.copy { copyOffer with iss := .host 0 }).wf = false ∧ (Instr.scheduledRootRefresh 4096 copyOffer).wf = false ∧ (Instr.copy copyOffer).wf = true := by
  decide +kernel

theorem test_illFormed_packets :
    (Instr.write (packet kWRITE []) {}).wf = false ∧ (Instr.write { packet kWRITE (collHdr 0) with dst := 65536 } {}).wf = false ∧
    (Instr.write { packet kWRITE (collHdr 0) with src := 65536 } {}).wf = false ∧ (Instr.write { packet kWRITE (collHdr 0) with kind := 256 } {}).wf = false ∧
    (Instr.write { packet kWRITE (collHdr 0) with txn := 2 ^ 32 } {}).wf = false ∧ (Instr.write (packet kWRITE (collHdr 0) (List.replicate 2289 0)) {}).wf = false ∧
    (Instr.write (packet kWRITE (collHdr 0) (List.replicate 2288 0)) {}).wf = true := by decide +kernel

theorem test_illFormed_rest :
    (Instr.sqEntryFetch (.entry []) {}).wf = false ∧ (Instr.moduleStart { boardMt := 4 }).wf = false ∧
    (Instr.moduleStart { stackFails := List.replicate 9 [] }).wf = false ∧ (Instr.moduleStart { channels := List.replicate 17 none }).wf = false ∧
    (Instr.moduleStart { far := [none, none, none] }).wf = false ∧ (Instr.stageSend { segment 64 with stage := 255 }).wf = false ∧
    (Instr.stageSend { segment 64 with dir := 2 }).wf = false ∧ (Instr.stageSend { segment 64 with group := 64 }).wf = false ∧
    (Instr.stageSend (segment 0)).wf = false := by decide +kernel

/-- A unit that does not exist stops the machine by name. -/
theorem test_noSuchUnit : exec (.matmulStart 512) on = .fault .noSuchUnit ∧ exec (.wait 8192) on = .fault .noSuchUnit := ⟨rfl, rfl⟩

/-! ### Worked values -/

/-- The state after a command, `s` itself when it stops. -/
def after (i : Instr) (s : State) : State := match exec i s with
  | .next t => t
  | _ => s

/-- Table 8.7: ADD wraps, SRA keeps the sign, a shift count is taken modulo 64, s0 takes no value, BLT is signed. -/
theorem test_core :
    ((after (.add 5) (at_ 0 (word opADD 3 1 2) (BitVec.ofNat 64 (2 ^ 64 - 1)) 2)).core 5).reg 3 = 1 ∧
    ((after (.sra 5) (at_ 0 (word opSRA 3 1 2) (BitVec.ofNat 64 (2 ^ 63)) 65)).core 5).reg 3 = BitVec.ofNat 64 (3 * 2 ^ 62) ∧
    ((after (.add 5) (at_ 0 (word opADD 0 1 2) 1 2)).core 5).reg 0 = 0 ∧
    ((after (.blt 5) (at_ 0 (word opBLT 0 1 2 0 0 9) (-1) 0)).core 5).pc = 9 ∧
    ((after (.bltu 5) (at_ 0 (word opBLTU 0 1 2 0 0 9) (-1) 0)).core 5).pc = 1 := by decide +kernel

/-- R175: a counter past its wrap has reached a target before it. -/
theorem test_reached : reached 3 0xFFFFFFFE = true ∧ reached 0xFFFFFFFE 3 = false := by decide +kernel

/-- A STORE of the value in s2 is read back by a LOAD of the same offset, lowest byte first. -/
theorem test_store :
    let s := after (.coreStore 5 false) (at_ 0 (word opSTORE 0 1 2 0 0 0) 8 0x0807060504030201)
    s.readStore 0 8 8 = [1, 2, 3, 4, 5, 6, 7, 8] := by decide +kernel

/-- R86: addition in FP32: 1 + 2 = 3; the product of R84: 1.5 times 1.5 is 2.25; BF16 1.0 widens to FP32 1.0. -/
theorem test_float :
    (add32 0x3F800000 0x40000000).1 = 0x40400000 ∧ (mul64 0x3FF8000000000000 0x3FF8000000000000).1 = 0x4002000000000000 ∧
    (convert .bf16 .fp32 0x3F80).1 = 0x3F800000 := by decide +kernel

/-- A COPY of core 5 moves its bytes; a SIGNAL of 9 adds 9. -/
theorem test_copy :
    let s := after (.copy copyOffer) (on.writeBytes (storeBase 0) [7, 8, 9])
    s.readStore 0 0x1000 3 = [7, 8, 9] ∧ ((after (.signal signalOffer) on).counter 511 63) = 9 := by decide +kernel

/-- R186: HEAD outside the ring is refused. -/
theorem test_ring : ((after (.cqHeadWrite 63 (w8 16)) (q63 {} { enable := true })).cq 63).headErr = true := by decide +kernel

/-- The reset sequence of a hot reset ends 500 ticks later (R392). -/
theorem test_hotReset : (after (.hotReset 0) on).resetEnds = 1000500 ∧ (after (.hotReset 0) on).log.lastReset = 1 := by decide +kernel

/-- Table 13.1's CRC-24 is checked: a flit with one bit changed is refused. -/
theorem test_flit :
    ((after (.dataFlitReceive 7 (flit 0) none) (linked 7)).port 7).rxSeq = 1 ∧
    ((after (.dataFlitReceive 7 ((flit 0).set 5 1) none) (linked 7)).port 7).rxSeq = 0 := by decide +kernel

/-- R280: a SIGNAL packet adds VALUE and is acknowledged. -/
theorem test_signalPacket :
    let k := packet kSIGNAL (opHeader (3 * 64 + 2) 0 0 0 0 0) (leBytes 4 7)
    (after (.signalPacket k) (arrived imaged k)).counter 3 2 = 7 := by decide +kernel

/-- R263: stack 1's slot begins at tick 3,125 of each 25,000. -/
theorem test_slot : slotTick 1 28125 = true ∧ slotTick 1 25000 = false ∧ slotLength 8 0 = 25 ∧ slotLength 8 2500 = 5 := by decide +kernel

/-- R250, R360: a correctable error of store 5 counts there and names its bank. -/
theorem test_correctable :
    let t := imaged.corrected (storeBase 5 + 0x48) 0x300
    (t.cluster 5).ceCount = 1 ∧ (t.cluster 5).ceLastBank = 1 ∧ t.log.lastSeq = 1 := by decide +kernel

end Sys2Proof.Tests
end

section
/-! SUPPORT. Rules of sequencer cores that their statements share: the word at the PC, what a core address names, what a move to another
index leaves. -/

namespace Sys2Proof.Machine

/-! ### The word at the PC -/

theorem coreAt_word {s : State} {k op w : Nat} (h : s.coreAt k op w = true) : (s.core k).word (s.core k).pc = w := by
  simp only [State.coreAt, Bool.and_eq_true, beq_iff_eq] at h
  exact h.1.1.1.2

theorem coreMay_hold {s : State} {k : Nat} (h : s.coreMay k = true) : (s.core k).hold = .none := by
  simp only [State.coreMay, Bool.and_eq_true, beq_iff_eq] at h
  exact h.2

@[simp] theorem setReg_pc (c : Core) (i : Nat) (v : Word) : (c.setReg i v).pc = c.pc := by
  unfold Core.setReg
  split <;> rfl

/-- The address s[RA] + IMM that the word `w` of core `k` names. -/
def State.coreEa (s : State) (k w : Nat) : Nat := ((s.core k).reg (iRa w) + immW w).toNat

/-! ### Core addresses (Table 8.8) -/

/-- An address that Table 8.8 gives as LOAD only. -/
def loadOnlyAddr (a : Nat) : Prop := a % 8 = 0 ∧ (0x1000000 ≤ a ∧ a < 0x1010000 ∨ 0x2000000 ≤ a ∧ a ≤ 0x2000020)

/-- An address that Table 8.8 names. -/
def namedAddr (a : Nat) : Prop := loadOnlyAddr a ∨ a % 8 = 0 ∧ (a < 0x600000 ∨ 0x2000100 ≤ a ∧ a < 0x2000300)

theorem coreAddr_eq_none_iff (a : Nat) : coreAddr a = none ↔ ¬namedAddr a := by
  unfold coreAddr namedAddr loadOnlyAddr storeSize
  split_ifs <;> simp only [false_iff, true_iff, not_not] <;> omega

theorem coreAddr_store {a : Nat} (h8 : a % 8 = 0) (h : a < 0x600000) : coreAddr a = some (.store a) := by
  simp [coreAddr, storeSize, h8, h]

theorem coreAddr_prog {a : Nat} (h8 : a % 8 = 0) (h : 0x1000000 ≤ a) (h' : a < 0x1010000) :
    coreAddr a = some (.prog ((a - 0x1000000) / 8)) := by
  have hs : ¬a < 0x600000 := by omega
  simp [coreAddr, storeSize, h8, h, h', hs]

theorem coreAddr_counter {a : Nat} (h8 : a % 8 = 0) (h : 0x2000100 ≤ a) (h' : a < 0x2000300) :
    coreAddr a = some (.counter ((a - 0x2000100) / 8)) := by
  unfold coreAddr storeSize
  rw [if_neg (not_not.2 h8), if_neg (by omega), if_neg (by omega), if_neg (by omega), if_neg (by omega), if_neg (by omega), if_neg (by omega),
    if_neg (by omega), if_pos ⟨h, h'⟩]

theorem coreAddr_of_named {a : Nat} (h : namedAddr a) : ∃ x, coreAddr a = some x :=
  Option.ne_none_iff_exists'.1 (mt (coreAddr_eq_none_iff a).1 (not_not.2 h))

/-- What is LOAD only is neither the store nor a counter. -/
theorem coreAddr_of_loadOnly {a : Nat} (h : loadOnlyAddr a) :
    ∃ x, coreAddr a = some x ∧ (∀ off, x ≠ .store off) ∧ ∀ c, x ≠ .counter c := by
  obtain ⟨h8, ⟨hlo, hhi⟩ | h⟩ := h
  · exact ⟨_, coreAddr_prog h8 hlo hhi, nofun, nofun⟩
  · have hreg : a = 0x2000000 ∨ a = 0x2000008 ∨ a = 0x2000010 ∨ a = 0x2000018 ∨ a = 0x2000020 := by omega
    rcases hreg with rfl | rfl | rfl | rfl | rfl
    · exact ⟨.arrStatus, rfl, nofun, nofun⟩
    · exact ⟨.arrUtil, rfl, nofun, nofun⟩
    · exact ⟨.tick, rfl, nofun, nofun⟩
    · exact ⟨.id, rfl, nofun, nofun⟩
    · exact ⟨.status, rfl, nofun, nofun⟩

/-! ### What differs after an operation -/

theorem sameButCore.other {s t : State} {k j : Nat} (h : sameButCore s t k) (hj : j ≠ k) : t.core j = s.core j := by
  obtain ⟨-, hclusters, -, hcores⟩ := h
  unfold State.core
  by_cases hn : j / 16 = k / 16
  · rw [hn]
    exact hcores _ (by omega)
  · rw [hclusters _ hn]

theorem sameButCore.trans {s t u : State} {k : Nat} (h : sameButCore s t k) (g : sameButCore t u k) : sameButCore s u k := by
  obtain ⟨hs, hclusters, hcluster, hcores⟩ := h
  obtain ⟨gs, gclusters, gcluster, gcores⟩ := g
  refine ⟨?_, fun n hn => (gclusters n hn).trans (hclusters n hn), ?_, fun i hi => (gcores i hi).trans (hcores i hi)⟩
  · rw [gs, hs]
  · rw [gcluster, hcluster]

/-- A core that goes on to another index and writes no register. -/
theorem coreWent_goto (s : State) (k pc : Nat) : coreWent s (s.setCore k ((s.core k).goto pc)) k pc :=
  ⟨sameButCore_setCore .., by rw [core_setCore_same]; rfl, fun i => by rw [core_setCore_same]; rfl⟩

/-! ### Counters -/

theorem counter_setCounter (s : State) (n c m j : Nat) (v : Word32) :
    (s.setCounter n c v).counter m j = if m = n ∧ j = c then v else s.counter m j := by
  unfold State.setCounter State.counter
  rw [cluster_setCluster]
  by_cases hm : m = n
  · subst m
    simp [SMap.get_set]
  · simp [hm]

theorem counter_setCore (s : State) (k m j : Nat) (c : Core) : (s.setCore k c).counter m j = s.counter m j := by
  unfold State.setCore State.counter
  rw [cluster_setCluster]
  split
  · subst m
    rfl
  · rfl

/-- A core of the counter's cluster may be released; the others stay. -/
theorem core_setCounter (s : State) (n c k : Nat) (v : Word32) : (s.setCounter n c v).core k =
    if k / 16 = n then releaseWait s.overdue ((s.cluster n).counters.set 0 c v) (s.core k) else s.core k := by
  unfold State.setCounter State.core
  rw [cluster_setCluster]
  split
  · subst n
    exact SMap.get_map _ _ _ _ rfl
  · rfl

theorem releaseWait_of_reached {late : Nat → Bool} {cs : SMap Word32} {c : Core} (hh : c.hold = .wait)
    (hr : reached (cs.get 0 (iC (c.word c.pc))) ((c.reg (iRa (c.word c.pc))).truncate 32) = true) :
    releaseWait late cs c = c.leaveWait (if c.waitOver late then 1 else 0) := by
  simp only [releaseWait, hh, hr, decide_true, Bool.and_true, if_true]

theorem releaseWait_of_short {late : Nat → Bool} {cs : SMap Word32} {c : Core}
    (hr : reached (cs.get 0 (iC (c.word c.pc))) ((c.reg (iRa (c.word c.pc))).truncate 32) = false) : releaseWait late cs c = c := by
  simp only [releaseWait, hr, Bool.and_false, Bool.false_eq_true, if_false]

theorem releaseWait_of_free {late : Nat → Bool} {cs : SMap Word32} {c : Core} (hh : c.hold = .none) : releaseWait late cs c = c := by
  simp only [releaseWait, hh, reduceCtorEq, decide_false, Bool.false_and, Bool.false_eq_true, if_false]

end Sys2Proof.Machine
end

section
/-! SUPPORT. What a fault of a core changes, and how the command of each of the 24 operations comes to one (R172). -/

namespace Sys2Proof.Machine

/-! ### Settling the domains leaves everything else -/

/-- Nothing but the power domains differs. -/
def sameButDomains (s t : State) : Prop := t = { s with domains := t.domains }

theorem sameButDomains_refl (s : State) : sameButDomains s s := rfl

theorem sameButDomains.trans {s t u : State} (h : sameButDomains s t) (g : sameButDomains t u) : sameButDomains s u := by
  unfold sameButDomains at *
  rw [g, h]

theorem sameButDomains_foldl {α : Type} {f : State → α → State} (hf : ∀ s x, sameButDomains s (f s x)) (l : List α) (s : State) :
    sameButDomains s (l.foldl f s) := by
  induction l generalizing s with
  | nil => exact sameButDomains_refl s
  | cons x r ih => exact (hf s x).trans (ih (f s x))

theorem sameButDomains_setDom (s : State) (d : Nat) (x : Domain) : sameButDomains s (s.setDom d x) := rfl

theorem sameButDomains_touch (s : State) (ds : List Nat) : sameButDomains s (s.touch ds) :=
  sameButDomains_foldl (fun _ _ => sameButDomains_setDom ..) _ s

theorem sameButDomains_sleep (s : State) (d : Nat) (off : Bool) : sameButDomains s (s.sleep d off) := sameButDomains_setDom ..

theorem sameButDomains_settleForce (s : State) (d : Nat) : sameButDomains s (s.settleForce d) := by
  unfold State.settleForce
  dsimp only
  split_ifs
  · exact sameButDomains_sleep ..
  · exact sameButDomains_sleep ..
  · exact sameButDomains_sleep ..
  · exact sameButDomains_setDom ..
  · exact sameButDomains_setDom ..
  · exact sameButDomains_refl s

theorem sameButDomains_turnOff (s : State) (d : Nat) : sameButDomains s (s.turnOff d) := by
  unfold State.turnOff
  split
  · exact sameButDomains_sleep ..
  · exact sameButDomains_refl s

theorem sameButDomains_settleForces (s : State) : sameButDomains s s.settleForces :=
  (sameButDomains_foldl (fun s (e : Nat × Domain) => sameButDomains_settleForce s e.1) _ s).trans
    (sameButDomains_foldl (fun s (e : Nat) => sameButDomains_turnOff s (40 + e)) _ _)

theorem sameButDomains.core {s t : State} (h : sameButDomains s t) (k : Nat) : t.core k = s.core k := by
  rw [h]
  rfl

theorem sameButDomains.descs {s t : State} (h : sameButDomains s t) : t.descs = s.descs := by rw [h]

theorem sameButDomains.sameBytes {s t : State} (h : sameButDomains s t) : sameBytes s t := by
  rw [h]
  exact fun _ => rfl

/-! ### A fault -/

/-- Core `k` is in FAULT with `cause`, its other fields as they were; the other cores, the descriptors and the bytes of memory stay. -/
def coreFaulted (s t : State) (k cause : Nat) : Prop :=
  t.core k = { s.core k with st := .fault, cause := cause } ∧ (∀ j, j ≠ k → t.core j = s.core j) ∧ t.descs = s.descs ∧ sameBytes s t

theorem coreFault_faulted {s : State} {k : Nat} (h : (s.core k).hold = .none) (cause : Nat) : coreFaulted s (s.coreFault k cause) k cause := by
  have hd : sameButDomains (s.setCore k { s.core k with st := .fault, cause := cause, hold := .none }) (s.coreFault k cause) :=
    (sameButDomains_touch ..).trans (sameButDomains_settleForces _)
  refine ⟨?_, fun j hj => ?_, hd.descs, hd.sameBytes⟩
  · rw [hd.core k, core_setCore_same, ← h]
  · exact (hd.core j).trans ((core_setCore ..).trans (if_neg hj))

/-- The command `i` puts core `k` in FAULT with `cause` and has no other effect (R172). -/
def faultsCore (s : State) (k : Nat) (i : Instr) (cause : Nat) : Prop := ∃ t, exec i s = .next t ∧ coreFaulted s t k cause

/-- A well-formed operation whose effect is a fault. -/
theorem faultsCore_of_coreAt {s : State} {k op w cause : Nat} {i : Instr} {f : Nat → Core → State} (h : s.coreAt k op w = true)
    (he : exec i s = s.coreOp k op f) (hf : f w (s.core k) = s.coreFault k cause) : faultsCore s k i cause :=
  ⟨_, he.trans (coreOp_of_coreAt h), hf ▸ coreFault_faulted (coreAt_running h).2 cause⟩

/-! ### CAUSE 1: the word itself -/

/-- The command of each row of Table 8.7 runs `coreOp` for its code. -/
theorem exec_coreRow {k : Nat} {e : Nat × Instr} (h : e ∈ coreRows k) (s : State) : ∃ f, exec e.2 s = s.coreOp k e.1 f := by
  revert e
  simp only [coreRows, List.forall_mem_cons]
  exact ⟨⟨_, exec_issue k {} s⟩, ⟨_, exec_wait k s⟩, ⟨_, exec_loop k s⟩, ⟨_, exec_beq k s⟩, ⟨_, exec_bne k s⟩, ⟨_, exec_blt k s⟩,
    ⟨_, exec_bge k s⟩, ⟨_, exec_bltu k s⟩, ⟨_, exec_bgeu k s⟩, ⟨_, exec_jump k s⟩, ⟨_, exec_add k s⟩, ⟨_, exec_sub k s⟩,
    ⟨_, exec_addi k s⟩, ⟨_, exec_shl k s⟩, ⟨_, exec_shr k s⟩, ⟨_, exec_sra k s⟩, ⟨_, exec_and k s⟩, ⟨_, exec_or k s⟩,
    ⟨_, exec_xor k s⟩, ⟨_, exec_coreLoad k none s⟩, ⟨_, exec_coreStore k false s⟩, ⟨_, exec_coreFence k s⟩, ⟨_, exec_coreSignal k s⟩,
    ⟨_, exec_halt k s⟩, List.forall_mem_nil _⟩

theorem coreOp_of_unknown {s : State} {k : Nat} (op : Nat) (f : Nat → Core → State) (hk : coreOk k = true) (hm : s.coreMay k = true)
    (hu : iUnused ((s.core k).word (s.core k).pc) = none) : s.coreOp k op f = .next (s.coreFault k 1) := by
  simp [State.coreOp, guarded, hk, hm, hu]

theorem coreOp_of_badField {s : State} {k op : Nat} (f : Nat → Core → State) (hk : coreOk k = true) (hm : s.coreMay k = true)
    (ho : iOp ((s.core k).word (s.core k).pc) = op)
    (hb : iUnused ((s.core k).word (s.core k).pc) ≠ some 0 ∨ iReserved ((s.core k).word (s.core k).pc) ≠ 0) :
    s.coreOp k op f = .next (s.coreFault k 1) := by
  cases hu : iUnused ((s.core k).word (s.core k).pc) with
  | none => exact coreOp_of_unknown op f hk hm hu
  | some u =>
    have hbad : u ≠ 0 ∨ iReserved ((s.core k).word (s.core k).pc) ≠ 0 := by simpa [hu] using hb
    simp only [State.coreOp, guarded, hk, hm, hu, ho, hbad, Bool.not_true, Bool.false_eq_true, ne_eq, not_true_eq_false, if_true, if_false]

/-! ### CAUSE 3: a next index beyond program memory -/

theorem coreGo_beyond (s : State) (k : Nat) (c : Core) {pc : Nat} (h : 8191 < pc) : s.coreGo k c pc = s.coreFault k 3 :=
  if_neg (Nat.not_le.2 h)

theorem coreAlu_beyond (s : State) (k w : Nat) (c : Core) (v : Word) (h : 8191 ≤ c.pc) : s.coreAlu k w c v = s.coreFault k 3 :=
  coreGo_beyond s k _ (Nat.lt_succ_of_le h)

/-- The rows of the operations that always go on. -/
theorem coreRows_goingOn (k : Nat) : ((coreRows k).filter fun e => e.1 ∈ opsGoingOn) =
    [(opWAIT, .wait k), (opADD, .add k), (opSUB, .sub k), (opADDI, .addi k), (opSHL, .shl k), (opSHR, .shr k), (opSRA, .sra k),
     (opAND, .and k), (opOR, .or k), (opXOR, .xor k), (opFENCE, .coreFence k), (opSIGNAL, .coreSignal k)] := rfl

/-- Each of them has a fault for its effect at the last index. -/
theorem exec_goingOn_last {k : Nat} {e : Nat × Instr} (h : e ∈ coreRows k) (ho : e.1 ∈ opsGoingOn) (s : State) :
    ∃ f, exec e.2 s = s.coreOp k e.1 f ∧ ∀ w c, 8191 ≤ c.pc → f w c = s.coreFault k 3 := by
  have hr : e ∈ (coreRows k).filter fun e => e.1 ∈ opsGoingOn := List.mem_filter.2 ⟨h, decide_eq_true ho⟩
  rw [coreRows_goingOn] at hr
  clear h ho
  revert e
  simp only [List.forall_mem_cons]
  have alu {g : Nat → Core → Word} : ∀ w c, 8191 ≤ c.pc → s.coreAlu k w c (g w c) = s.coreFault k 3 := fun w c => coreAlu_beyond s k w c _
  exact ⟨⟨_, exec_wait k s, fun _ _ hp => if_pos hp⟩, ⟨_, exec_add k s, alu⟩, ⟨_, exec_sub k s, alu⟩, ⟨_, exec_addi k s, alu⟩,
    ⟨_, exec_shl k s, alu⟩, ⟨_, exec_shr k s, alu⟩, ⟨_, exec_sra k s, alu⟩, ⟨_, exec_and k s, alu⟩, ⟨_, exec_or k s, alu⟩,
    ⟨_, exec_xor k s, alu⟩, ⟨_, exec_coreFence k s, fun _ _ hp => if_pos hp⟩, ⟨_, exec_coreSignal k s, fun _ _ hp => if_pos hp⟩,
    List.forall_mem_nil _⟩

theorem not_slt_eq_decide (x y : Word) : (!x.slt y) = decide (y.toInt ≤ x.toInt) := by
  rw [BitVec.slt_eq_decide, ← decide_not, decide_eq_decide, Int.not_lt]

theorem not_ult_eq_decide (x y : Word) : (!x.ult y) = decide (y.toNat ≤ x.toNat) := by
  rw [BitVec.ult_eq_decide, ← decide_not, decide_eq_decide, Nat.not_lt]

theorem coreBranch_beyond (s : State) (k w : Nat) (c : Core) {taken : Bool} (h : 8191 < if taken then (immW w).toNat else c.pc + 1) :
    s.coreBranch k w c taken = s.coreFault k 3 := coreGo_beyond s k c h

/-! ### The commands that fault -/

section
variable {s : State} {k w : Nat}

theorem unknown_faults {e : Nat × Instr} (he : e ∈ coreRows k) (hk : coreOk k = true) (hm : s.coreMay k = true)
    (hu : iUnused ((s.core k).word (s.core k).pc) = none) : faultsCore s k e.2 1 := by
  obtain ⟨f, hf⟩ := exec_coreRow he s
  exact ⟨_, hf.trans (coreOp_of_unknown _ f hk hm hu), coreFault_faulted (coreMay_hold hm) 1⟩

theorem badField_faults {e : Nat × Instr} (he : e ∈ coreRows k) (hk : coreOk k = true) (hm : s.coreMay k = true)
    (ho : iOp ((s.core k).word (s.core k).pc) = e.1)
    (hb : iUnused ((s.core k).word (s.core k).pc) ≠ some 0 ∨ iReserved ((s.core k).word (s.core k).pc) ≠ 0) : faultsCore s k e.2 1 := by
  obtain ⟨f, hf⟩ := exec_coreRow he s
  exact ⟨_, hf.trans (coreOp_of_badField f hk hm ho hb), coreFault_faulted (coreMay_hold hm) 1⟩

theorem goingOn_last_faults {e : Nat × Instr} (he : e ∈ coreRows k) (ho : e.1 ∈ opsGoingOn) (h : s.coreAt k e.1 w = true)
    (hp : (s.core k).pc = 8191) : faultsCore s k e.2 3 := by
  obtain ⟨f, hf, hlast⟩ := exec_goingOn_last he ho s
  exact faultsCore_of_coreAt h hf (hlast w _ hp.ge)

theorem coreLoad_unnamed (h : s.coreAt k opLOAD w = true) (hn : ¬namedAddr (s.coreEa k w)) (ce : Option Nat) :
    faultsCore s k (.coreLoad k ce) 2 := by
  have ha : coreAddr ((s.core k).reg (iRa w) + immW w).toNat = none := (coreAddr_eq_none_iff _).2 hn
  exact faultsCore_of_coreAt h (exec_coreLoad ..) (by simp only [ha])

theorem coreLoad_last (h : s.coreAt k opLOAD w = true) (hp : (s.core k).pc = 8191) (hn : namedAddr (s.coreEa k w)) (ce : Option Nat) :
    faultsCore s k (.coreLoad k ce) 3 := by
  obtain ⟨x, ha⟩ : ∃ x, coreAddr ((s.core k).reg (iRa w) + immW w).toNat = some x := coreAddr_of_named hn
  exact faultsCore_of_coreAt h (exec_coreLoad ..) (by simp only [ha, hp, le_refl, if_true])

theorem coreStore_unnamed (h : s.coreAt k opSTORE w = true) (hn : ¬namedAddr (s.coreEa k w)) (lost : Bool) :
    faultsCore s k (.coreStore k lost) 2 := by
  have ha : coreAddr ((s.core k).reg (iRa w) + immW w).toNat = none := (coreAddr_eq_none_iff _).2 hn
  exact faultsCore_of_coreAt h (exec_coreStore ..) (by simp only [ha])

theorem coreStore_last (h : s.coreAt k opSTORE w = true) (hp : (s.core k).pc = 8191) (hn : namedAddr (s.coreEa k w)) (lost : Bool) :
    faultsCore s k (.coreStore k lost) 3 := by
  obtain ⟨x, ha⟩ : ∃ x, coreAddr ((s.core k).reg (iRa w) + immW w).toNat = some x := coreAddr_of_named hn
  exact faultsCore_of_coreAt h (exec_coreStore ..) (by simp only [ha, hp, le_refl, if_true])

theorem coreStore_loadOnly (h : s.coreAt k opSTORE w = true) (hp : (s.core k).pc < 8191) (hl : loadOnlyAddr (s.coreEa k w)) (lost : Bool) :
    faultsCore s k (.coreStore k lost) 4 := by
  obtain ⟨x, hx, hs, hc⟩ := coreAddr_of_loadOnly hl
  have ha : coreAddr ((s.core k).reg (iRa w) + immW w).toNat = some x := hx
  refine faultsCore_of_coreAt h (exec_coreStore ..) ?_
  cases x with
  | store off => exact absurd rfl (hs off)
  | counter c => exact absurd rfl (hc c)
  | _ => simp only [ha, if_neg (Nat.not_le.2 hp)]

theorem issue_unfit (h : s.coreAt k opISSUE w = true) (hf : ¬(s.coreEa k w % 64 = 0 ∧ s.coreEa k w + 64 ≤ 0x600000)) (m : OfferMeets) :
    faultsCore s k (.issue k m) 2 := by
  have ha : s.coreEa k w % 64 ≠ 0 ∨ storeSize < s.coreEa k w + 64 := by rw [storeSize]; omega
  obtain rfl := coreAt_word h
  exact faultsCore_of_coreAt h (exec_issue ..) (if_pos ha)

theorem issue_last (h : s.coreAt k opISSUE w = true) (hp : (s.core k).pc = 8191)
    (hf : s.coreEa k w % 64 = 0 ∧ s.coreEa k w + 64 ≤ 0x600000) (m : OfferMeets) : faultsCore s k (.issue k m) 3 := by
  have ha : ¬(s.coreEa k w % 64 ≠ 0 ∨ storeSize < s.coreEa k w + 64) := by rw [storeSize]; omega
  obtain rfl := coreAt_word h
  exact faultsCore_of_coreAt h (exec_issue ..) ((if_neg ha).trans (if_pos hp.ge))

theorem jump_beyond (h : s.coreAt k opJUMP w = true) (ha : 8191 < s.coreEa k w) : faultsCore s k (.jump k) 3 :=
  faultsCore_of_coreAt h (exec_jump ..) (coreGo_beyond s k _ ha)

/-- A branch, by the comparison that its meaning makes. -/
theorem branch_beyond {op : Nat} {i : Instr} {taken : Bool} {p : Core → Nat → Bool} {g : Core → Nat → Core} (h : s.coreAt k op w = true)
    (he : exec i s = s.coreOp k op fun w c => s.coreBranch k w (g c w) (p c w)) (hg : (g (s.core k) w).pc = (s.core k).pc)
    (ht : p (s.core k) w = taken) (hn : 8191 < if taken then (immW w).toNat else (s.core k).pc + 1) : faultsCore s k i 3 :=
  faultsCore_of_coreAt h he (coreBranch_beyond s k w _ (by rw [hg, ht]; exact hn))

end

/-- Settles O8: each clause is one way into `coreFault`, which leaves the other cores, the descriptors and memory alone. -/
theorem coreFaults : Obligations.CoreFaults := by
  unfold Obligations.CoreFaults
  intro s k w lost m ce c x y i a nxt loadOnly named fits faults
  refine ⟨?_, ?_, fun h hn => coreLoad_unnamed h hn ce, fun h hn => coreStore_unnamed h hn lost, fun h hf => issue_unfit h hf m,
    fun hp e he h ho => goingOn_last_faults he ho h hp, fun hp hn => ⟨fun h => coreLoad_last h hp hn ce, fun h => coreStore_last h hp hn lost⟩,
    fun hp hf h => issue_last h hp hf m, ?_, fun h ha => jump_beyond h ha, fun h hp hl => coreStore_loadOnly h hp hl lost⟩
  · rintro hk hm rfl hu e he
    exact unknown_faults he hk hm hu
  · rintro hk hm rfl e he ho hb
    exact badField_faults he hk hm ho hb
  · simp only [List.forall_mem_cons]
    exact ⟨fun h hn => branch_beyond h (exec_beq ..) rfl rfl hn, fun h hn => branch_beyond h (exec_bne ..) rfl rfl hn,
      fun h hn => branch_beyond h (exec_blt ..) rfl BitVec.slt_eq_decide hn,
      fun h hn => branch_beyond h (exec_bge ..) rfl (not_slt_eq_decide ..) hn,
      fun h hn => branch_beyond h (exec_bltu ..) rfl BitVec.ult_eq_decide hn,
      fun h hn => branch_beyond h (exec_bgeu ..) rfl (not_ult_eq_decide ..) hn,
      fun h hn => branch_beyond h (exec_loop ..) (setReg_pc ..) rfl hn, List.forall_mem_nil _⟩

end Sys2Proof.Machine
end

section
/-! SUPPORT. WAIT and FENCE of a core (R170, R175). -/

namespace Sys2Proof.Machine

theorem reached_iff (c t : Word32) : reached c t = true ↔ 0 ≤ (c - t).toInt := decide_eq_true_iff

theorem reached_eq_false_iff (c t : Word32) : reached c t = false ↔ (c - t).toInt < 0 := decide_eq_false_iff_not.trans Int.not_le

/-- The deadline `dl`, not 0, falls in a tick that has passed (R175, R289). -/
abbrev State.waitLate (s : State) (dl : Nat) : Prop :=
  0 < dl ∧ (if s.stepped.1 ≤ dl ∧ dl < s.stepped.2 then s.stepped.2 else dl) < s.tick

theorem waitOver_iff (s : State) (c : Core) : c.waitOver s.overdue = true ↔ s.waitLate (c.reg (iRb (c.word c.pc))).toNat :=
  Bool.and_eq_true_iff.trans (and_congr (bne_iff_ne.trans Nat.pos_iff_ne_zero.symm) decide_eq_true_iff)

theorem goneTo_leaveWait (c : Core) (v : Word) : goneTo c (c.leaveWait v) (c.pc + 1) := goneTo_setReg ..

theorem wroteReg_leaveWait (c : Core) (v : Word) : wroteReg c (c.leaveWait v) (iRd (c.word c.pc)) v := wroteReg_setReg ..

section
variable {s : State} {k w : Nat}

theorem wait_releases (h : s.coreAt k opWAIT w = true) (hp : (s.core k).pc < 8191)
    (hr : reached (s.counter (k / 16) (iC w)) (((s.core k).reg (iRa w)).truncate 32) = true) :
    ∃ t, exec (.wait k) s = .next t ∧ coreWrote s t k (iRd w) 0 := by
  refine ⟨_, (exec_wait k s).trans (coreOp_of_coreAt h), ?_⟩
  rw [if_neg (Nat.not_le.2 hp), if_pos hr]
  exact coreAlu_wrote s k w 0 hp

theorem wait_holds (h : s.coreAt k opWAIT w = true) (hp : (s.core k).pc < 8191)
    (hr : reached (s.counter (k / 16) (iC w)) (((s.core k).reg (iRa w)).truncate 32) = false) :
    ∃ t, exec (.wait k) s = .next t ∧ sameButCore s t k ∧ t.core k = { s.core k with st := .wait, hold := .wait } := by
  refine ⟨_, (exec_wait k s).trans (coreOp_of_coreAt h), ?_⟩
  rw [if_neg (Nat.not_le.2 hp), if_neg (Bool.not_eq_true _ ▸ hr)]
  exact ⟨sameButCore_setCore .., core_setCore_same ..⟩

/-- What the value of its counter, as it is set, does to a core held in a WAIT. -/
theorem core_setCounter_of_held (s : State) (k : Nat) (v : Word32) (hh : (s.core k).hold = .wait) :
    let c := s.core k
    let t := s.setCounter (k / 16) (iC (c.word c.pc)) v
    (reached v ((c.reg (iRa (c.word c.pc))).truncate 32) = true → t.core k = c.leaveWait (if c.waitOver s.overdue then 1 else 0)) ∧
    (reached v ((c.reg (iRa (c.word c.pc))).truncate 32) = false → t.core k = c) := by
  intro c t
  have ht : t.core k = releaseWait s.overdue ((s.cluster (k / 16)).counters.set 0 (iC (c.word c.pc)) v) c :=
    (core_setCounter ..).trans (if_pos rfl)
  have hv : ((s.cluster (k / 16)).counters.set 0 (iC (c.word c.pc)) v).get 0 (iC (c.word c.pc)) = v := SMap.get_set_same ..
  rw [ht]
  exact ⟨fun hr => releaseWait_of_reached hh (by rw [hv]; exact hr), fun hr => releaseWait_of_short (by rw [hv]; exact hr)⟩

theorem waitTimeout_late (hk : coreOk k = true) (hh : (s.core k).hold = .wait) (ho : (s.core k).waitOver s.overdue = true) :
    ∃ t, exec (.waitTimeout k) s = .next t ∧ coreWrote s t k (iRd ((s.core k).word (s.core k).pc)) 1 := by
  refine ⟨s.setCore k ((s.core k).leaveWait 1), ?_, sameButCore_setCore .., ?_, ?_⟩
  · simp only [exec_waitTimeout, execWaitTimeout, guarded, hk, hh, ho, and_self, if_true]
  · rw [core_setCore_same]
    exact goneTo_leaveWait ..
  · rw [core_setCore_same]
    exact wroteReg_leaveWait ..

theorem waitTimeout_early (hk : coreOk k = true) (ho : (s.core k).waitOver s.overdue = false) : exec (.waitTimeout k) s = .next s := by
  simp only [exec_waitTimeout, execWaitTimeout, guarded, hk, ho, Bool.false_eq_true, and_false, if_true, if_false]

theorem coreFence_goesOn (h : s.coreAt k opFENCE w = true) (hp : (s.core k).pc < 8191) (hd : ∀ d ∈ s.descs, d.iss ≠ .core k) :
    ∃ t, exec (.coreFence k) s = .next t ∧ coreWent s t k ((s.core k).pc + 1) := by
  refine ⟨_, (exec_coreFence k s).trans (coreOp_of_coreAt h), ?_⟩
  have hnone : ¬(s.descs.any fun d => d.iss == .core k) = true := by simpa [List.any_eq_true] using hd
  rw [if_neg (Nat.not_le.2 hp), if_neg hnone]
  exact coreWent_goto ..

theorem coreFence_holds (h : s.coreAt k opFENCE w = true) (hp : (s.core k).pc < 8191) (hd : ∃ d ∈ s.descs, d.iss = .core k) :
    ∃ t, exec (.coreFence k) s = .next t ∧ sameButCore s t k ∧ t.core k = { s.core k with st := .wait, hold := .fence } := by
  refine ⟨_, (exec_coreFence k s).trans (coreOp_of_coreAt h), ?_⟩
  have hsome : (s.descs.any fun d => d.iss == .core k) = true := by simpa [List.any_eq_true] using hd
  rw [if_neg (Nat.not_le.2 hp), if_pos hsome]
  exact ⟨sameButCore_setCore .., core_setCore_same ..⟩

end

/-- Settles O4: a WAIT and a FENCE as they are executed, a held WAIT as its counter is set and as time passes. -/
theorem coreWaits : Obligations.CoreWaits := by
  unfold Obligations.CoreWaits
  intro s k w c ahead held dl late
  refine ⟨fun h hp hr => wait_releases h hp ((reached_iff ..).2 hr), fun h hp hr => wait_holds h hp ((reached_eq_false_iff ..).2 hr),
    ?_, ?_, ?_, coreFence_goesOn, coreFence_holds⟩
  · rintro v ⟨-, hh, rfl⟩ t
    obtain ⟨hreached, hshort⟩ := core_setCounter_of_held s k v hh
    refine ⟨(counter_setCounter ..).trans (if_pos ⟨rfl, rfl⟩), fun hv => ?_, fun hv => hshort ((reached_eq_false_iff ..).2 hv)⟩
    rw [hreached ((reached_iff ..).2 hv)]
    refine ⟨goneTo_leaveWait .., ?_⟩
    rw [← if_congr (waitOver_iff s c) rfl rfl]
    exact wroteReg_leaveWait ..
  · rintro ⟨hk, hh, rfl⟩ hl
    exact waitTimeout_late hk hh ((waitOver_iff s c).2 hl)
  · rintro ⟨hk, -, rfl⟩ hl
    exact waitTimeout_early hk (Bool.eq_false_iff.2 (mt (waitOver_iff s c).1 hl))

end Sys2Proof.Machine
end

section
/-! SUPPORT. Bytes after a write, and LOAD and STORE of a core (R171, Table 8.8). -/

namespace Sys2Proof.Machine

/-! ### Bytes after a write -/

theorem read8_write8_same (s : State) (a : Nat) (b : Byte) : (s.write8 a b).read8 a = b := by
  unfold State.read8 State.write8 memPut
  dsimp only
  split
  · rename_i h
    rw [SMap.find_erase_same, Option.getD_none, if_pos h.1, h.2]
  · rw [SMap.find_put_same, Option.getD_some]

theorem read8_write8_other (s : State) {a x : Nat} (b : Byte) (h : x ≠ a) : (s.write8 a b).read8 x = s.read8 x := by
  unfold State.read8 State.write8
  rw [find_memPut_other _ _ _ _ _ h]

theorem sameBytesBut_writeBytes (s : State) (a : Nat) (bs : Bytes) : sameBytesBut s (s.writeBytes a bs) a bs.length := by
  induction bs generalizing s a with
  | nil => exact fun _ _ => rfl
  | cons b r ih =>
    intro x hx
    rw [List.length_cons] at hx
    rw [State.writeBytes_cons, ih _ _ x (by omega), read8_write8_other _ _ (by omega)]

theorem read8_writeBytes (s : State) (a : Nat) (bs : Bytes) (i : Nat) (h : i < bs.length) : (s.writeBytes a bs).read8 (a + i) = bs[i] := by
  induction bs generalizing s a i with
  | nil => exact absurd h (Nat.not_lt_zero i)
  | cons b r ih =>
    cases i with
    | zero => exact (sameBytesBut_writeBytes (s.write8 a b) (a + 1) r a (.inl a.lt_succ_self)).trans (read8_write8_same s a b)
    | succ i =>
      have hi : a + (i + 1) = a + 1 + i := by omega
      rw [hi]
      exact ih (s.write8 a b) (a + 1) i (Nat.lt_of_succ_lt_succ h)

theorem readBytes_writeBytes (s : State) (a : Nat) (bs : Bytes) : (s.writeBytes a bs).readBytes a bs.length = bs := by
  refine List.ext_getElem (by simp [State.readBytes]) fun i _ hi => ?_
  simp only [State.readBytes, List.getElem_map, List.getElem_range]
  exact read8_writeBytes s a bs i hi

theorem writeBytes_eq (s : State) (a : Nat) (bs : Bytes) : s.writeBytes a bs = { s with mem := (s.writeBytes a bs).mem } := by
  induction bs generalizing s a with
  | nil => rfl
  | cons b r ih =>
    rw [State.writeBytes_cons, ih]
    rfl

theorem core_writeBytes (s : State) (a : Nat) (bs : Bytes) (k : Nat) : (s.writeBytes a bs).core k = s.core k := by
  rw [writeBytes_eq]
  rfl

theorem leBytes_length (n v : Nat) : (leBytes n v).length = n := by
  induction n generalizing v with
  | zero => rfl
  | succ n ih => rw [leBytes, List.length_cons, ih]

/-! ### LOAD -/

section
variable {s : State} {k w : Nat}

theorem core_clearArrUtil (s : State) (n k : Nat) : (s.clearArrUtil n).core k = s.core k := by
  unfold State.clearArrUtil State.core
  rw [cluster_setCluster]
  split
  · subst n
    rfl
  · rfl

/-- What a read clears leaves the core where it stands. -/
theorem coreRead_pc (s : State) (k : Nat) (x : CoreAddr) : ((s.coreRead k x).2.core k).pc = (s.core k).pc := by
  cases x with
  | arrUtil => exact congrArg Core.pc (core_clearArrUtil s (k / 16) k)
  | status => exact (congrArg Core.pc (core_setCore_same s k (s.core k).clearStatus) :)
  | _ => rfl

/-- A LOAD writes RD and goes on, in the state that its read leaves. -/
theorem coreLoad_reads {x : CoreAddr} {v : Nat} {u : State} (h : s.coreAt k opLOAD w = true) (hp : (s.core k).pc < 8191)
    (hx : coreAddr (s.coreEa k w) = some x) (hr : s.coreRead k x = (v, u)) :
    ∃ t, exec (.coreLoad k none) s = .next t ∧ coreWrote u t k (iRd w) (BitVec.ofNat 64 v) := by
  have ha : coreAddr ((s.core k).reg (iRa w) + immW w).toNat = some x := hx
  have he : s.loadError k x none = s := by cases x <;> rfl
  have hpc : (u.core k).pc = (s.core k).pc := by
    have hread := coreRead_pc s k x
    rwa [hr] at hread
  refine ⟨u.coreAlu k w (u.core k) (BitVec.ofNat 64 v), (exec_coreLoad ..).trans ((coreOp_of_coreAt h).trans ?_), ?_⟩
  · simp only [ha, if_neg (Nat.not_le.2 hp), he, hr]
  · exact coreAlu_wrote u k w _ (hpc ▸ hp)

theorem arrUtil_eq_zero {t : State} {n : Nat} (hp : (t.cluster n).productCycles = 0) (hb : (t.cluster n).busyCycles = 0) : t.arrUtil n = 0 := by
  rw [State.arrUtil, hp, hb, Nat.zero_mul]

theorem regValue_arrUtil (t : State) (n : Nat) : t.regValue (.arrUtil n) = t.arrUtil n := rfl

/-- A cleared GBL_ARR_UTIL reads 0 also where the host sees its reset value (R394). -/
theorem hostSee_arrUtil_eq_zero {t : State} {n : Nat} (h : t.arrUtil n = 0) : t.hostSee (.arrUtil n) = 0 := by
  unfold State.hostSee State.regSee
  simp only [regValue_arrUtil]
  split_ifs
  · exact arrUtil_eq_zero rfl rfl
  · exact arrUtil_eq_zero rfl rfl
  · exact h

theorem coreLoad_arrUtil (h : s.coreAt k opLOAD w = true) (hp : (s.core k).pc < 8191) (hx : coreAddr (s.coreEa k w) = some .arrUtil) :
    ∃ t, exec (.coreLoad k none) s = .next t ∧ goneTo (s.core k) (t.core k) ((s.core k).pc + 1) ∧
      wroteReg (s.core k) (t.core k) (iRd w) (BitVec.ofNat 64 (s.arrUtil (k / 16))) ∧
      (∀ j, j ≠ k → t.core j = s.core j) ∧ t = { s with clusters := t.clusters } ∧ (∀ m, m ≠ k / 16 → t.cluster m = s.cluster m) ∧
      t.cluster (k / 16) = { s.cluster (k / 16) with cores := (t.cluster (k / 16)).cores, productCycles := 0, busyCycles := 0 } ∧
      t.hostSee (.arrUtil (k / 16)) = 0 := by
  let u := s.clearArrUtil (k / 16)
  have hcore : ∀ j, u.core j = s.core j := core_clearArrUtil s (k / 16)
  have hcluster : u.cluster (k / 16) = { s.cluster (k / 16) with productCycles := 0, busyCycles := 0 } :=
    (cluster_setCluster ..).trans (if_pos rfl)
  obtain ⟨t, ht, hbut, hgone, hreg⟩ := coreLoad_reads (u := u) h hp hx rfl
  have hother := fun j hj => hbut.other (j := j) hj
  obtain ⟨hclusters, hm, hn, -⟩ := hbut
  rw [hcluster] at hn
  rw [hcore] at hgone hreg
  exact ⟨t, ht, hgone, hreg, fun j hj => (hother j hj).trans (hcore j), hclusters,
    fun m hmn => (hm m hmn).trans ((cluster_setCluster ..).trans (if_neg hmn)), hn,
    hostSee_arrUtil_eq_zero (arrUtil_eq_zero (by rw [hn]) (by rw [hn]))⟩

theorem coreLoad_status (h : s.coreAt k opLOAD w = true) (hp : (s.core k).pc < 8191) (hx : coreAddr (s.coreEa k w) = some .status) :
    ∃ t, exec (.coreLoad k none) s = .next t ∧ sameButCore s t k ∧
      wroteReg (s.core k) (t.core k) (iRd w) (BitVec.ofNat 64 (s.core k).status) ∧
      t.core k = { s.core k with
        regs := (t.core k).regs, pc := (s.core k).pc + 1, st := .run, hold := .none, flags := 0, firstStatus := 0, firstTag := 0, notOk := 0 } := by
  let u := s.setCore k (s.core k).clearStatus
  have hcore : u.core k = (s.core k).clearStatus := core_setCore_same ..
  obtain ⟨t, ht, hbut, hgone, hreg⟩ := coreLoad_reads (u := u) h hp hx rfl
  rw [hcore] at hgone hreg
  exact ⟨t, ht, (sameButCore_setCore ..).trans hbut, hreg, hgone⟩

/-! ### STORE -/

/-- Core `k` has written the bytes `bs` at `a` and no other byte, and goes on to the next index. -/
def storeLanded (s t : State) (k a : Nat) (bs : Bytes) : Prop :=
  t.readBytes a bs.length = bs ∧ sameBytesBut s t a bs.length ∧ coreWent { s with mem := t.mem } t k ((s.core k).pc + 1)

theorem storeLanded_writeBytes (s : State) (k a : Nat) (bs : Bytes) :
    storeLanded s ((s.writeBytes a bs).setCore k ((s.core k).goto ((s.core k).pc + 1))) k a bs := by
  refine ⟨readBytes_writeBytes s a bs, sameBytesBut_writeBytes s a bs, ?_⟩
  have hmem : { s with mem := (s.writeBytes a bs).mem } = s.writeBytes a bs := (writeBytes_eq s a bs).symm
  rw [State.setCore_mem, hmem, ← core_writeBytes s a bs k]
  exact coreWent_goto ..

theorem storeTry_landed (s : State) (k off : Nat) (v : Word) :
    storeLanded s (s.storeTry k off v false) k (storeBase (k / 16) + off) (leBytes 8 v.toNat) := storeLanded_writeBytes ..

theorem sameBytes_countLoss (s : State) (a : Nat) (dropped : Bool) : sameBytes s (s.countLoss a dropped) := by
  unfold State.countLoss
  split
  · exact fun _ => rfl
  · exact fun _ => rfl

theorem sameBytes_setCore (s : State) (k : Nat) (c : Core) : sameBytes s (s.setCore k c) := fun _ => rfl

theorem storeTry_true (s : State) (k off : Nat) (v : Word) : s.storeTry k off v true =
    (s.countLoss (storeBase (k / 16) + off) false).setCore k { s.core k with hold := .store } := rfl

theorem storeTry_lost (s : State) (k off : Nat) (v : Word) :
    sameBytes s (s.storeTry k off v true) ∧ (s.storeTry k off v true).core k = { s.core k with hold := .store } := by
  rw [storeTry_true]
  exact ⟨fun x => (sameBytes_setCore _ k _ x).trans (sameBytes_countLoss s _ false x), core_setCore_same ..⟩

theorem coreStore_tries (h : s.coreAt k opSTORE w = true) (hp : (s.core k).pc < 8191) (h8 : s.coreEa k w % 8 = 0)
    (ha : s.coreEa k w < 0x600000) (lost : Bool) :
    exec (.coreStore k lost) s = .next (s.storeTry k (s.coreEa k w) ((s.core k).reg (iRb w)) lost) := by
  have hx : coreAddr ((s.core k).reg (iRa w) + immW w).toNat = some (.store (s.coreEa k w)) := coreAddr_store h8 ha
  refine (exec_coreStore ..).trans ((coreOp_of_coreAt h).trans ?_)
  simp only [hx, if_neg (Nat.not_le.2 hp)]

theorem storeRetry_tries (hk : coreOk k = true) (hd : s.domOn (k / 256) = true) (hh : (s.core k).hold = .store) (lost : Bool) :
    exec (.storeRetry k lost) s = .next (s.storeTry k (s.coreEa k ((s.core k).word (s.core k).pc))
      ((s.core k).reg (iRb ((s.core k).word (s.core k).pc))) lost) := by
  simp only [exec_storeRetry, execStoreRetry, guarded, hk, hd, hh, and_self, if_true, State.coreEa]

theorem coreStore_counter (h : s.coreAt k opSTORE w = true) (hp : (s.core k).pc < 8191) (h8 : s.coreEa k w % 8 = 0)
    (hlo : 0x2000100 ≤ s.coreEa k w) (hhi : s.coreEa k w < 0x2000300) (lost : Bool) :
    ∃ t, exec (.coreStore k lost) s = .next t ∧ sameBytes s t ∧ t.core k = { s.core k with pc := (s.core k).pc + 1 } ∧
      ∀ m j, t.counter m j =
        if m = k / 16 ∧ j = (s.coreEa k w - 0x2000100) / 8 then ((s.core k).reg (iRb w)).truncate 32 else s.counter m j := by
  have hx : coreAddr ((s.core k).reg (iRa w) + immW w).toNat = some (.counter ((s.coreEa k w - 0x2000100) / 8)) := coreAddr_counter h8 hlo hhi
  obtain ⟨hst, hhold⟩ := coreAt_running h
  let u := s.setCounter (k / 16) ((s.coreEa k w - 0x2000100) / 8) (((s.core k).reg (iRb w)).truncate 32)
  have hcore : u.core k = s.core k := (core_setCounter ..).trans ((if_pos rfl).trans (releaseWait_of_free hhold))
  refine ⟨u.setCore k ((u.core k).goto ((s.core k).pc + 1)), ?_, fun _ => rfl, ?_, fun m j => ?_⟩
  · refine (exec_coreStore ..).trans ((coreOp_of_coreAt h).trans ?_)
    simp only [hx, if_neg (Nat.not_le.2 hp)]
    rfl
  · rw [core_setCore_same, hcore, Core.goto, ← hst, ← hhold]
  · exact (counter_setCore ..).trans (counter_setCounter ..)

end

/-- Settles O6: LOAD by the place that its address names, STORE and its repeat by the attempt that both make. -/
theorem coreLoadsAndStores : Obligations.CoreLoadsAndStores := by
  unfold Obligations.CoreLoadsAndStores
  intro s k w c n a v
  refine ⟨fun h hp => ?_, fun h hp h8 ha => ?_, ?_, fun h hp h8 hlo hhi lost => coreStore_counter h hp h8 hlo hhi lost⟩
  · intro loads
    have reads {x : CoreAddr} {u : Nat} (hx : coreAddr a = some x) (hr : s.coreRead k x = (u, s)) : loads (BitVec.ofNat 64 u) :=
      coreLoad_reads h hp hx hr
    have register {b : Nat} {x : CoreAddr} (hx : coreAddr b = some x) (hb : a = b) : coreAddr a = some x := (congrArg coreAddr hb).trans hx
    exact ⟨fun h8 ha => reads (coreAddr_store h8 ha) rfl, fun h8 hlo hhi => reads (coreAddr_prog h8 hlo hhi) rfl,
      fun ha => reads (register (x := .arrStatus) rfl ha) rfl, fun ha => coreLoad_arrUtil h hp (register rfl ha),
      fun ha => reads (register (x := .tick) rfl ha) rfl, fun ha => reads (register (x := .id) rfl ha) rfl,
      fun ha => coreLoad_status h hp (register rfl ha), fun h8 hlo hhi => reads (coreAddr_counter h8 hlo hhi) rfl⟩
  · exact ⟨⟨_, coreStore_tries h hp h8 ha false, storeTry_landed ..⟩, ⟨_, coreStore_tries h hp h8 ha true, storeTry_lost ..⟩⟩
  · rintro hk hd hh rfl -
    exact ⟨⟨_, storeRetry_tries hk hd hh false, storeTry_landed ..⟩, ⟨_, storeRetry_tries hk hd hh true, storeTry_lost ..⟩⟩

end Sys2Proof.Machine
end

section
/-! SUPPORT. What a write through BAR0 does, what the host reads of the fault log's registers, and the two selections of FLT_PLOG_SEL
(R412, R422, R423). -/

namespace Sys2Proof.Machine

/-! ### What the host reads -/

/-- Reset values hide no register that keeps its contents across a start (R394). -/
theorem hostSee_of_early {r : Reg} (s : State) (h : r.early = true) : s.hostSee r = s.regSee r := by
  rw [State.hostSee, h, Bool.not_true, Bool.and_false, if_neg Bool.false_ne_true]

/-- A register outside the switched domains shows what it holds. -/
theorem regSee_of_unswitched {r : Reg} (s : State) (h : r.domain = none) : s.regSee r = s.regValue r := by
  simp only [State.regSee, State.regOff, h, Bool.false_eq_true, if_false]

@[simp] theorem hostSee_plogSel (s : State) : s.hostSee .plogSel = s.plogSelValue s.log.sel :=
  (hostSee_of_early s rfl).trans (regSee_of_unswitched s rfl)

@[simp] theorem hostSee_plogData (s : State) (i : Nat) : s.hostSee (.plogData i) = s.plogDataValue s.log.sel i :=
  (hostSee_of_early s rfl).trans (regSee_of_unswitched s rfl)

/-! ### Writes -/

/-- A write at an aligned offset of BAR0 writes the register that stands there. -/
theorem exec_registerWrite_aligned {s : State} {off : Nat} (w : Wr) (hs : s.barTakes = true) (hoff : regOffOk off = true) (h8 : off % 8 = 0) :
    exec (.registerWrite off w) s = .next (s.regWrite (regAt off) w) := by
  obtain ⟨hon, hd3⟩ : s.hifOn = true ∧ s.hif.d3hot = false := by simpa [State.barTakes] using hs
  simp [execRegisterWrite, guarded, hoff, State.bar0, hon, hd3, State.barOn, barAccess, h8, Wr.placed]

theorem upd_of_get? {w : Wr} {lo len v : Nat} (old : Nat) (h : w.get? lo len = some v) : w.upd lo len old = v := by
  rw [Wr.upd, h, Option.getD_some]

/-- The host's selection becomes `v`. -/
def State.hostSelects (s : State) (v : Nat) : State := { s with log := { s.log with sel := v } }

/-- The I3C port acknowledges, and its own selection becomes `v`. -/
def State.i3cSelects (s : State) (v : Nat) : State :=
  { s with hif := { s.hif with i3c := .ackd }, log := { s.log with i3cSel := v } }

theorem exec_registerWrite_plogSel {s : State} (w : Wr) (hs : s.barTakes = true) :
    exec (.registerWrite 0x220008 w) s = .next (s.hostSelects (w.upd 0 18 s.log.sel)) :=
  exec_registerWrite_aligned w hs rfl rfl

theorem exec_i3cWrite_plogSel {s : State} {b : Bytes} (hs : s.flannelOn = true) (hb : b.length = 8) :
    exec (.i3cWrite 0x220008 b) s = .next (s.i3cSelects (field b 0 8 % 2 ^ 18)) := by
  simp [execI3cWrite, guarded, State.i3cTo, hb, hs, State.i3cAnswer, State.i3cSelects]

/-! ### Each selection leaves what the other interface reads -/

section
variable (s : State) (v : Nat)

theorem hostSee_plogSel_hostSelects : (s.hostSelects v).hostSee .plogSel = s.plogSelValue v := hostSee_plogSel _

theorem i3cSee_plogSel_i3cSelects : (s.i3cSelects v).i3cSee 0x220008 = s.plogSelValue v := by
  have hearly : i3cEarly 0x220008 = true := rfl
  have hreg : regAt 0x220008 = .plogSel := rfl
  simp only [State.i3cSee, hearly, hreg, Bool.not_true, Bool.and_false, Bool.false_eq_true, if_false]
  rfl

theorem hostSee_plogSel_i3cSelects : (s.i3cSelects v).hostSee .plogSel = s.hostSee .plogSel := by
  rw [hostSee_plogSel, hostSee_plogSel]
  rfl

theorem hostSee_plogData_i3cSelects (i : Nat) : (s.i3cSelects v).hostSee (.plogData i) = s.hostSee (.plogData i) := by
  rw [hostSee_plogData, hostSee_plogData]
  rfl

theorem i3cSee_hostSelects {o : Nat} (h : regAt o = .plogSel ∨ ∃ i, regAt o = .plogData i) : (s.hostSelects v).i3cSee o = s.i3cSee o := by
  unfold State.i3cSee
  obtain h | ⟨i, h⟩ := h
  · rw [h]
    rfl
  · rw [h]
    rfl

end

/-- Settles O7: each interface writes its own selection, and neither reads the other's. -/
theorem plogSelectionsStandApart : Obligations.PlogSelectionsStandApart := by
  unfold Obligations.PlogSelectionsStandApart
  intro s b w
  refine ⟨fun hs hb => ?_, fun hs => ?_⟩
  · exact ⟨_, exec_i3cWrite_plogSel hs hb, i3cSee_plogSel_i3cSelects .., hostSee_plogSel_i3cSelects .., hostSee_plogData_i3cSelects s _⟩
  · refine ⟨_, exec_registerWrite_plogSel w hs, fun _ v hv => ?_, fun o ho => ?_⟩
    · rw [upd_of_get? _ hv]
      exact hostSee_plogSel_hostSelects s v
    · exact i3cSee_hostSelects s _ (ho.imp_left (congrArg regAt))

end Sys2Proof.Machine
end

section
/-! SUPPORT. Every command keeps the queue, the form of memory and time (see Sys2Proof/Laws/Keeps.lean), but for the two that move the
flannel domain's supply, which start time again; from this, the three statements about every step. -/

namespace Sys2Proof.Machine

/-! ### Conditional effects -/

theorem Keeps.ite {s t u : State} {c : Prop} [Decidable c] (ht : Keeps s t) (hu : Keeps s u) : Keeps s (if c then t else u) := by
  split
  · exact ht
  · exact hu

theorem OutKeeps.ite {s : State} {o p : Out} {c : Prop} [Decidable c] (ho : OutKeeps s o) (hp : OutKeeps s p) :
    OutKeeps s (if c then o else p) := by
  split
  · exact ho
  · exact hp

/-! ### Cores -/

section
variable {s0 s : State}

theorem execWait_keeps (k : Nat) (h : Keeps s0 s) : OutKeeps s0 (execWait k s) := by
  refine State.coreOp_keeps _ _ _ h fun w c => ?_
  exact .ite (State.coreFault_keeps _ _ h) (.ite (State.coreAlu_keeps _ _ _ _ h) (State.setCore_keeps _ _ h))

theorem execCoreFence_keeps (k : Nat) (h : Keeps s0 s) : OutKeeps s0 (execCoreFence k s) := by
  refine State.coreOp_keeps _ _ _ h fun w c => ?_
  exact .ite (State.coreFault_keeps _ _ h) (.ite (State.setCore_keeps _ _ h) (State.setCore_keeps _ _ h))

theorem execCoreSignal_keeps (k : Nat) (h : Keeps s0 s) : OutKeeps s0 (execCoreSignal k s) := by
  refine State.coreOp_keeps _ _ _ h fun w c => ?_
  exact .ite (State.coreFault_keeps _ _ h) (State.setCore_keeps _ _ (State.addCounter_keeps _ _ _ h))

theorem execHalt_keeps (k : Nat) (h : Keeps s0 s) : OutKeeps s0 (execHalt k s) := by
  refine State.coreOp_keeps _ _ _ h fun w c => ?_
  exact State.settleForces_keeps (State.touch_keeps _ (State.setCore_keeps _ _ h))

theorem execCoreLoad_keeps (k : Nat) (ce : Option Nat) (h : Keeps s0 s) : OutKeeps s0 (execCoreLoad k ce s) := by
  refine State.coreOp_keeps _ _ _ h fun w c => ?_
  split
  · exact State.coreFault_keeps _ _ h
  · exact .ite (State.coreFault_keeps _ _ h) (State.coreAlu_keeps _ _ _ _ (State.coreRead_keeps _ _ (State.loadError_keeps _ _ _ h)))

theorem execCoreStore_keeps (k : Nat) (lost : Bool) (h : Keeps s0 s) : OutKeeps s0 (execCoreStore k lost s) := by
  refine State.coreOp_keeps _ _ _ h fun w c => ?_
  split
  · exact State.coreFault_keeps _ _ h
  · refine .ite (State.coreFault_keeps _ _ h) ?_
    split
    · exact State.storeTry_keeps _ _ _ _ h
    · exact State.setCore_keeps _ _ (State.setCounter_keeps _ _ _ h)
    · exact State.coreFault_keeps _ _ h

/-! ### Arrays and data movers -/

theorem execMatmulStart_keeps (n : Nat) (h : Keeps s0 s) : OutKeeps s0 (execMatmulStart n s) := by
  refine guarded_keeps _ ?_
  split
  · exact State.sendAllTiles_keeps (State.setWork_keeps _ _ (State.meetErrors_keeps _ h))
  · exact State.sendAllTiles_keeps (State.updOffload_keeps _ _ _ h)
  · exact h

theorem execMatmulIntervalEnd_keeps (n busy : Nat) (h : Keeps s0 s) : OutKeeps s0 (execMatmulIntervalEnd n busy s) := by
  refine guarded_keeps _ ?_
  split
  · exact .ite h (State.intervalEnd_keeps _ _ _ h)
  · exact .ite h (State.offIntervalEnd_keeps _ _ _ h)
  · exact h

theorem execMatmulWritebackEnd_keeps (n busy : Nat) (h : Keeps s0 s) : OutKeeps s0 (execMatmulWritebackEnd n busy s) := by
  refine guarded_keeps _ ?_
  split
  · exact State.advance_keeps (State.sendAllTiles_keeps (State.writebackEnd_keeps _ _ _ h))
  · exact State.settleForces_keeps (State.advance_keeps (State.sendAllTiles_keeps (State.touch_keeps _ (State.offWritebackEnd_keeps _ _ _ h))))
  · exact h

theorem execDataMoverRetry_keeps (n : Nat) (lost : Bool) (h : Keeps s0 s) : OutKeeps s0 (execDataMoverRetry n lost s) := by
  refine guarded_keeps _ ?_
  split
  · exact State.wordsDone_keeps _ (State.retryWord_keeps _ _ h)
  · exact h

theorem execDeltaSegmentRetry_keeps (id : Nat) (h : Keeps s0 s) : OutKeeps s0 (execDeltaSegmentRetry id s) := by
  unfold execDeltaSegmentRetry
  split
  · split
    · exact event_keeps _ h (State.failNew_keeps (State.setWork_keeps _ _ (State.sendSegment_keeps _ _ _ h)))
    · exact .next h
  · exact .next h

theorem execGatherRetry_keeps (id : Nat) (h : Keeps s0 s) : OutKeeps s0 (execGatherRetry id s) := by
  unfold execGatherRetry
  split
  · split
    · exact .next (State.failNew_keeps (State.gatherAgain_keeps _ _ _ h))
    · exact .next h
  · exact .next h

theorem execGatherDeadline_keeps (id : Nat) (h : Keeps s0 s) : OutKeeps s0 (execGatherDeadline id s) := by
  unfold execGatherDeadline
  split
  · exact event_keeps _ h (State.setWork_keeps _ _ (State.forgetTxns_keeps _ h))
  · exact .next h

theorem execDescriptorCompletion_keeps (id : Nat) (h : Keeps s0 s) : OutKeeps s0 (execDescriptorCompletion id s) := by
  unfold execDescriptorCompletion
  split
  · split
    · exact event_keeps _ h (State.finish_keeps _ _ _ _ h)
    · exact .next h
  · exact .next h

theorem execTransactionTimeout_keeps (txn : Nat) (h : Keeps s0 s) : OutKeeps s0 (execTransactionTimeout txn s) := by
  unfold execTransactionTimeout
  split
  · exact event_keeps _ h (State.advance_keeps (State.respond_keeps _ _ _ _ _ h))
  · exact .next h

/-! ### The switch and the step gate -/

theorem execPermuteDrainTimeout_keeps (id : Nat) (h : Keeps s0 s) : OutKeeps s0 (execPermuteDrainTimeout id s) := by
  unfold execPermuteDrainTimeout
  split
  · exact event_keeps _ h (State.setWork_keeps _ _ h)
  · exact .next h

/-- A vote that begins the switch. -/
theorem State.voted_keeps (vote : Nat) (h : Keeps s0 s) : Keeps s0 ((s.beginSwitch vote).holdLost.advance) :=
  State.advance_keeps (State.holdLost_keeps (State.beginSwitch_keeps _ h))

theorem execPermuteFinal_keeps (h : Keeps s0 s) : OutKeeps s0 (execPermuteFinal s) := by
  unfold execPermuteFinal
  split
  · exact event_keeps _ h (State.voted_keeps _ h)
  · exact .next h

theorem execFinalDrainTimeout_keeps (h : Keeps s0 s) : OutKeeps s0 (execFinalDrainTimeout s) := by
  unfold execFinalDrainTimeout
  split
  · split
    · exact event_keeps _ h (State.voted_keeps _ (State.setWork_keeps _ _ h))
    · exact event_keeps _ h (State.voted_keeps _ (State.setWork_keeps _ _ h))
    · exact event_keeps _ h (State.voted_keeps _ h)
    · exact .next h
  · exact .next h

theorem execGateRecordForm_keeps (ces : List (Nat × Nat)) (h : Keeps s0 s) : OutKeeps s0 (execGateRecordForm s ces) := by
  unfold execGateRecordForm
  split
  · refine event_keeps _ h (.ite (State.wakeAll_keeps _ h) (State.advance_keeps (State.forwardErrors_keeps _ _ ?_ h)))
    apply State.tryCombine_keeps
    exact State.recordErrors_keeps ces h
  · exact .next h

theorem State.writeGateCtrl_ces_keeps (w : Wr) (ces : List (Nat × Nat)) (h : Keeps s0 s) : Keeps s0 (s.writeGateCtrl w ces) := by
  have cancelled : Keeps s0 (if w.sets 0 then s.cancelGate else s) := .ite (State.cancelGate_keeps h) h
  have cleared := Keeps.ite (c := w.sets 1) (State.clearBuckets_keeps cancelled) cancelled
  exact State.advance_keeps (.ite (State.unholdBuckets_keeps ces cleared) cleared)

/-! ### Engines -/

theorem execSolveStart_keeps (e : Nat) (h : Keeps s0 s) : OutKeeps s0 (execSolveStart e s) := by
  refine guarded_keeps _ (.ite (State.dropSolves_keeps _ h) ?_)
  split
  · exact State.advance_keeps (State.retryLocal_keeps (State.beginSolve_keeps _ _ h))
  · exact h

theorem execSolveDeadline_keeps (id : Nat) (ces : List (Nat × Nat)) (h : Keeps s0 s) : OutKeeps s0 (execSolveDeadline id s ces) := by
  unfold execSolveDeadline
  split
  · split
    · exact event_keeps _ h (State.setWork_keeps _ _ h)
    · split
      · exact .next (.ite (State.stopSolve_keeps _ _ (State.engineErrors_keeps _ _ _ h)) h)
      · exact .next h
    · exact .next h
  · exact .next h

theorem execSolvePublish_keeps (e : Nat) (ces : List (Nat × Nat)) (h : Keeps s0 s) : OutKeeps s0 (execSolvePublish e s ces) := by
  refine guarded_keeps _ ?_
  split
  · exact .ite (State.publishSolve_keeps _ _ (State.engineErrors_keeps _ _ _ h)) h
  · exact h

theorem execDeltaReservationTimeout_keeps (f txn : Nat) (h : Keeps s0 s) : OutKeeps s0 (execDeltaReservationTimeout f txn s) := by
  refine guarded_keeps _ ?_
  split
  · exact State.advance_keeps (State.retryLocal_keeps (State.dropReserve_keeps _ _ h))
  · exact h

/-! ### The host, the tracker and the domains -/

theorem State.grantFirst_keeps (n : Nat) (h : Keeps s0 s) : Keeps s0 (((s.grantOrder n).findSome? (s.tryGrant n)).getD s) := by
  refine Keeps.getD (fun t ht => ?_) h
  obtain ⟨r, -, hr⟩ := List.exists_of_findSome?_eq_some ht
  exact State.tryGrant_keeps n r h hr

theorem execSqEntryFetch_keeps (x : HostData) (m : OfferMeets) (h : Keeps s0 s) : OutKeeps s0 (execSqEntryFetch x m s) := by
  refine guarded_keeps _ (.ite h ?_)
  split
  · exact State.fetchFrom_keeps _ _ _ h
  · exact h

theorem execConfigRequest_keeps (off : Nat) (write : Option Nat) (h : Keeps s0 s) : OutKeeps s0 (execConfigRequest off write s) := by
  refine guarded_keeps _ (.ite h ?_)
  split
  · exact State.configWrite_keeps _ _ h
  · exact h

theorem execDomainSleepComplete_keeps (d : Nat) (h : Keeps s0 s) : OutKeeps s0 (execDomainSleepComplete d s) := by
  refine guarded_keeps _ ?_
  split
  · exact State.asleepNow_keeps _ _ h
  · exact State.asleepNow_keeps _ _ h
  · exact h

theorem execStageSend_keeps (g : StageSeg) (h : Keeps s0 s) : OutKeeps s0 (execStageSend g s) := by
  unfold execStageSend
  refine guarded_keeps _ (.ite h ?_)
  exact State.trySends_keeps _ h

/-- A tick counts one on, and nothing else of it goes back. -/
theorem execFlannelTick_keeps (x : Sample) (h : Keeps s0 s) : OutKeeps s0 (execFlannelTick s x) := by
  refine flannelEvent_keeps _ h (State.sample_keeps _ (State.samplePins_keeps _ (State.linkErrors_keeps _ (State.startUnits_keeps ?_))))
  have k := State.leaveTick_keeps (State.slotTicks_keeps (State.stageTick_keeps (State.portsTick_keeps h)))
  exact ⟨k.pending, k.mem, Nat.le_succ_of_le h.tick⟩

/-- What the owner of the flash bus writes there. -/
theorem Keeps.xspiWritten (writes : List (Nat × Bytes)) (h : Keeps s0 s) : Keeps s0 (if s.flashHeld then writes.foldl State.program s else s) :=
  .ite (Keeps.foldl (fun _ _ => State.program_keeps _) h) h

end

/-! ### Every command -/

/-- Every command but the two that move the flannel domain's supply. -/
theorem exec_keeps {c : Instr} (s : State) (hup : c ≠ .flannelPowerUp) (hloss : c ≠ .flannelPowerLoss) : OutKeeps s (exec c s) := by
  have h := Keeps.refl s
  cases c with
  | matmul | curvgather | vecop | compress | expand | stashPut | stashGet | stashTake | stashFree | copy | racc | gather |
    gatherRoot | drop | dropRoot | bcast | permute | gate | solve | fence | signal =>
    exact offerExec_keeps _ _ h
  | matmulStart => exact execMatmulStart_keeps _ h
  | matmulIntervalEnd => exact execMatmulIntervalEnd_keeps _ _ h
  | matmulWritebackEnd => exact execMatmulWritebackEnd_keeps _ _ h
  | deltaSegmentRetry => exact execDeltaSegmentRetry_keeps _ h
  | vectorDescriptorStart => exact guarded_keeps _ (State.startVector_keeps _ _ _ h)
  | gatherRetry => exact execGatherRetry_keeps _ h
  | gatherDeadline => exact execGatherDeadline_keeps _ h
  | permuteDrainTimeout => exact execPermuteDrainTimeout_keeps _ h
  | permuteFinal => exact execPermuteFinal_keeps h
  | finalDrainTimeout => exact execFinalDrainTimeout_keeps h
  | gateRecordForm => exact execGateRecordForm_keeps _ h
  | solveStart => exact execSolveStart_keeps _ h
  | solveIterationEnd | solveFactorisationEnd | startResidualEnd => exact guarded_keeps _ (State.workEnds_keeps _ _ _ _ _ h)
  | solveDeadline => exact execSolveDeadline_keeps _ _ h
  | solvePublish => exact execSolvePublish_keeps _ _ h
  | descriptorCompletion => exact execDescriptorCompletion_keeps _ h
  | trackerEntryGrant => exact guarded_keeps _ (State.grantFirst_keeps _ h)
  | issue =>
    rw [exec_issue]
    refine State.coreOp_keeps _ _ _ h fun w c => ?_
    exact State.issueFrom_keeps _ _ h
  | wait => exact execWait_keeps _ h
  | waitTimeout => exact guarded_keeps _ (.ite (State.setCore_keeps _ _ h) h)
  | loop | beq | bne | blt | bge | bltu | bgeu =>
    simp only [exec_loop, exec_beq, exec_bne, exec_blt, exec_bge, exec_bltu, exec_bgeu]
    refine State.coreOp_keeps _ _ _ h fun w c => ?_
    exact State.coreBranch_keeps _ _ _ _ h
  | jump =>
    rw [exec_jump]
    refine State.coreOp_keeps _ _ _ h fun w c => ?_
    exact State.coreGo_keeps _ _ _ h
  | add | sub | addi | shl | shr | sra | and | or | xor =>
    simp only [exec_add, exec_sub, exec_addi, exec_shl, exec_shr, exec_sra, exec_and, exec_or, exec_xor]
    refine State.coreOp_keeps _ _ _ h fun w c => ?_
    exact State.coreAlu_keeps _ _ _ _ h
  | coreLoad => exact execCoreLoad_keeps _ _ h
  | coreStore => exact execCoreStore_keeps _ _ h
  | storeRetry => exact guarded_keeps _ (.ite (State.storeTry_keeps _ _ _ _ h) h)
  | coreFence => exact execCoreFence_keeps _ h
  | coreSignal => exact execCoreSignal_keeps _ h
  | halt => exact execHalt_keeps _ h
  | sqDoorbell => exact guarded_keeps _ (State.bar0_keeps _ h (.ite (State.writeSqPtr_keeps _ _ h) h))
  | sqEntryFetch => exact execSqEntryFetch_keeps _ _ h
  | fetchErrClear => exact guarded_keeps _ (State.bar0_keeps _ h (State.writeSqPtr_keeps _ _ h))
  | sqEnable | sqDisable | sqAbort => exact guarded_keeps _ (State.bar0_keeps _ h (.ite (State.writeSqCfg_keeps _ _ h) h))
  | cqEnable | cqDisable => exact guarded_keeps _ (State.bar0_keeps _ h (.ite (State.writeCqCfg_keeps _ _ h) h))
  | cqHeadWrite => exact guarded_keeps _ (State.bar0_keeps _ h (.ite (State.writeCqPtr_keeps _ _ h) h))
  | dmkLoad | dmkStore | dmkErase | dmkSetBoot => exact .next (State.bar0_keeps _ h (.ite (State.writeDmkCtrl_keeps _ _ h) h))
  | damaskClearDone => exact event_keeps _ h (State.advance_keeps (State.clearDone_keeps h))
  | bootDamaskLoad => exact event_keeps _ h (State.advance_keeps (State.bootLoad_keeps h))
  | seqLoad | seqStart | seqStop => exact .next (State.bar0_keeps _ h (.ite (State.writeSeqCtrl_keeps _ _ h) h))
  | retire | release => exact .next (State.bar0_keeps _ h (.ite (State.writeRetireCtrl_keeps _ _ h) h))
  | stage | activate | unstage | revert => exact .next (State.bar0_keeps _ h (.ite (State.writeFwCtrl_keeps _ _ h) h))
  | mpBoot => exact .ite (.next (State.warmBoot_keeps _ h)) (event_keeps _ h (State.coldBoot_keeps h))
  | firmwareReload => exact event_keeps _ h (State.reloadPause_keeps _ _ (State.reloaded_keeps _ _ h))
  | calNow | releaseHeld | retrain => exact guarded_keeps _ (State.bar0_keeps _ h (.ite (State.writeLnkCtrl_keeps _ _ h) h))
  | lostClear => exact guarded_keeps _ (State.bar0_keeps _ h (.ite (State.writeLnkStatus_keeps _ _ h) h))
  | cancel | clearBuckets => exact .next (State.bar0_keeps _ h (.ite (State.writeGateCtrl_keeps _ h) h))
  | unhold => exact .next (State.bar0_keeps _ h (.ite (State.writeGateCtrl_ces_keeps _ _ h) h))
  | gblStepWrite => exact .next (State.bar0_keeps _ h (State.writeStep_keeps _ h))
  | gblBar2BaseWrite => exact .next (State.bar0_keeps _ h (State.regWrite_keeps _ _ h))
  | gblCounterWrite => exact guarded_keeps _ (State.bar0_keeps _ h (State.writeCounter_keeps _ _ _ h))
  | forcePolicy | forceOn | forceRetain | forceOff =>
    exact guarded_keeps _ (State.bar0_keeps _ h (.ite (State.writeDomCtrl_keeps _ _ h) h))
  | attnClear => exact .next (State.bar0_keeps _ h (State.writeAttn_keeps _ h))
  | registerWrite => exact guarded_keeps _ (State.bar0_keeps _ h (State.barOn_keeps _ _ _ h fun _ _ => State.regWrite_keeps _ _ h))
  | registerReadClear => exact guarded_keeps _ (State.bar0_keeps _ h (State.barOn_keeps _ _ _ h fun _ _ => State.hostRead_keeps _ _ h))
  | bar0BadAccess => exact event_keeps _ h (State.bar0_keeps _ h (State.refuse_keeps _ _ h))
  | bar2Read => exact guarded_keeps _ (State.bar2_keeps _ _ _ h (State.bar2ReadNow_keeps _ _ _ h))
  | bar2Write => exact guarded_keeps _ (State.bar2_keeps _ _ _ h (State.bar2WriteNow_keeps _ _ _ _ h))
  | configRequest => exact execConfigRequest_keeps _ _ h
  | d3hotEntry | calicoRepublish | rstdaa => exact event_keeps _ h h
  | d0Return => exact event_keeps _ h (State.payOwed_keeps h)
  | hotReset | perstNAssert | modResetNAssert | vinPgDeassert => exact .next (State.moduleReset_keeps _ _ _ h)
  | moduleStart => exact .ite (.fault _) (event_keeps _ h (State.beginStart_keeps _ h))
  | calicoPublishEnd => exact event_keeps _ h (State.published_keeps h)
  | flannelPowerUp => exact absurd rfl hup
  | flannelPowerLoss => exact absurd rfl hloss
  | nvThresholdFall => exact flannelEvent_keeps _ h (State.sagged_keeps (State.noteSupply_keeps _ h h))
  | nvThresholdRise => exact flannelEvent_keeps _ h (State.followEnv_keeps (State.nvReleased_keeps (State.noteSupply_keeps _ h h)))
  | lowThresholdFall => exact flannelEvent_keeps _ h (State.followEnv_keeps (State.sagged_keeps (State.noteSupply_keeps _ h h)))
  | lowThresholdRise | thermalForceLow | thermalForceRelease =>
    exact flannelEvent_keeps _ h (State.followEnv_keeps (State.noteSupply_keeps _ h h))
  | supplyShutdown => exact flannelEvent_keeps _ h (State.moduleReset_keeps _ _ _ h)
  | throttleCurrent | throttlePower => exact flannelEvent_keeps _ h (State.throttle_keeps h)
  | throttleEnd => exact flannelEvent_keeps _ h (State.noteSupply_keeps _ h h)
  | refclkLost | refclkRestore | thermAlertAssert | thermAlertRelease => exact flannelEvent_keeps _ h h
  | xspiOwnChange => exact .next (h.xspiWritten _)
  | bypass => exact guarded_keeps _ (.ite h (State.loadIr_keeps _ _ h))
  | idcode | testLogicReset => exact .next (State.loadIr_keeps _ _ h)
  | samplePreload => exact event_keeps _ h (State.loadIr_keeps irSAMPLE (.data (sampledBytes s.draws)) h)
  | extest | clamp | highz => exact .next (State.loadDriving_keeps _ h)
  | i3cRead off _ =>
    exact guarded_keeps _ (State.i3cTo_keeps _ _ h (.ite (State.i3cAnswer_keeps (.value (BitVec.ofNat 64 (s.i3cSee off))) h)
      (State.i3cAnswer_keeps _ h)))
  | i3cWrite => exact guarded_keeps _ (State.i3cTo_keeps _ _ h (.ite (.ite (State.i3cAnswer_keeps .ackd h) h) (State.i3cAnswer_keeps _ h)))
  | entdaa => exact guarded_keeps _ (State.assignDynamic_keeps _ h)
  | setdasa => exact guarded_keeps _ (.ite (State.assignDynamic_keeps _ h) h)
  | getpid | getbcr | getdcr | getstatus | getmxds => exact .next (State.i3cTo_keeps _ _ h (State.i3cAnswer_keeps _ h))
  | uncorrectableError =>
    exact .ite (.next h) (.ite (.next (State.fatalReset_keeps _ (State.logErrors_keeps _ _ h))) (event_keeps _ h (State.becomesFatal_keeps _ h)))
  | farLinkDown =>
    exact guarded_keeps _ (.ite (State.fatalReset_keeps _ (State.logFatal_keeps _ h)) (.ite (State.becomesFatal_keeps _ h) h))
  | faultWindowClose => exact event_keeps _ h (State.actOnRecords_keeps _ h)
  | faultLogPersist => exact event_keeps _ h (.ite (State.deferPersist_keeps h) (State.persistSome_keeps _ h))
  | scrubAccess => exact guarded_keeps _ (.ite (State.scrubGroup_keeps _ _ h) h)
  | scrubOverdue => exact guarded_keeps _ (.ite (State.setScrub_keeps _ _ h) h)
  | domainRetainTimeout | domainOffTimeout => exact guarded_keeps _ (.ite (State.sleep_keeps _ _ h) h)
  | domainSleepComplete => exact execDomainSleepComplete_keeps _ h
  | domainWakeComplete => exact guarded_keeps _ (.ite (State.awake_keeps _ _ h) h)
  | wakeFail => exact guarded_keeps _ (.ite (State.failWake_keeps _ _ h) h)
  | envelopeFallsEnd => exact event_keeps _ h (State.resume_keeps (State.endFalls_keeps h))
  | envelopeRisesEnd => exact event_keeps _ h (State.endRises_keeps h)
  | sergeSwap =>
    exact guarded_keeps _ (.ite h (.ite (State.replaceEngine_keeps _ h) (State.dropSolves_keeps _ (State.replaceEngine_keeps _ h))))
  | deltaPacketFold => exact guarded_keeps _ (State.foldHead_keeps _ _ h)
  | scheduledRootRefresh => exact .ite (.fault _) (offerExec_keeps _ _ h)
  | recalSlotStart => exact guarded_keeps _ (.ite h h)
  | recalSlotEnd => exact guarded_keeps _ (.ite (State.endSlot_keeps _ _ h) h)
  | prefetchEnd =>
    exact guarded_keeps _ (.ite h (.ite (State.endPrefetch_keeps _ (State.copyErrors_keeps _ _ h)) (State.wakeAll_keeps _ h)))
  | dataMoverRetry => exact execDataMoverRetry_keeps _ _ h
  | dataFlitReceive => exact .ite (.fault _) (event_keeps _ h (State.failsOnCodewords_keeps _ _ (State.receiveData_keeps _ _ _ h)))
  | controlFlitReceive =>
    exact .ite (.fault _) (event_keeps _ h (State.failsOnCodewords_keeps _ _ (State.controlOrFail_keeps _ _ (State.noteCodeword_keeps _ _ h))))
  | controlFlitSend => exact guarded_keeps _ (.ite (State.sendControl_keeps _ h) h)
  | move => exact guarded_keeps _ (.ite (State.doMove_keeps _ _ _ h) h)
  | moved => exact guarded_keeps _ (.ite (State.doMoved_keeps _ _ h) h)
  | failed | laneFailureDetect => exact guarded_keeps _ (.ite (State.noteFailure_keeps _ _ h) h)
  | width => exact guarded_keeps _ (.ite (State.takeWidth_keeps _ _ h) h)
  | drift => exact guarded_keeps _ (.ite (State.doDrift_keeps _ _ h) h)
  | calRotation => exact guarded_keeps _ (.ite (State.rotate_keeps _ h) h)
  | laneAdaptEnd => exact guarded_keeps _ (.ite (State.adaptEnds_keeps _ h) h)
  | linkSilence | lossOfSignal => exact guarded_keeps _ (.ite (State.declareLost_keeps _ _ h) h)
  | transactionTimeout => exact execTransactionTimeout_keeps _ h
  | trainingEnd => exact guarded_keeps _ (.ite (State.advance_keeps (State.endTraining_keeps _ _ _ _ _ _ h)) h)
  | telemetryWindowEnd => exact guarded_keeps _ (.ite (State.loadTelemetry_keeps _ _ _ h) h)
  | packetForward => exact .next (State.forwardPacket_keeps _ h)
  | readReq | readResp | write | raccPacket | signalPacket | delta | bucket | ack | gateUp | gateDown | ringMax | ringScale |
    ringData | mirrorFwd | fprint | bcastData | paramRead | paramData | rootHold | rootDrop | stageData | stageCredit |
    permuteData | reshardUp | reshardDown =>
    exact deliver_keeps _ _ _ h
  | deltaReservationTimeout => exact execDeltaReservationTimeout_keeps _ _ h
  | beacon =>
    exact .ite (.fault _) (event_keeps _ h (State.returnSlots_keeps (State.advance_keeps (State.learnLoss_keeps _ _
      (State.forwardBeacon_keeps _ _ (State.seeFault_keeps _ _ (State.settlePrimary_keeps _ (State.take_keeps _ h))))))))
  | beaconSeenExpiry => exact .next h
  | bucketRelease => exact .next (State.releaseNext_keeps _ h)
  | stageSend => exact execStageSend_keeps _ h
  | flannelTick => exact execFlannelTick_keeps _ h
  | idleFlitReceive =>
    exact .ite (.fault _) (event_keeps _ h (State.failsOnCodewords_keeps _ _ (State.receiveIdle_keeps _ _ (State.noteCodeword_keeps _ _ h))))
  | stateWriteBackEnd =>
    exact guarded_keeps _ (.ite h (.ite (State.endWriteBack_keeps _ (State.copyErrors_keeps _ _ h)) (State.wakeAll_keeps _ h)))
  | farLinkRecoveryStart => exact guarded_keeps _ (.ite (State.setRecovering_keeps _ _ h) h)
  | farLinkRecoveryEnd => exact guarded_keeps _ (.ite (State.resume_keeps (State.setRecovering_keeps _ _ h)) h)
  | pcieLinkUp => exact .ite (.fault _) (event_keeps _ h h)
  | driftAlarm => exact guarded_keeps _ (.ite (State.driftAlarm_keeps _ _ (State.setPort_keeps _ _ h)) h)

/-! ### The flannel domain's supply -/

theorem State.unpowered_memForm (s : State) : s.unpowered.MemForm := ⟨List.Pairwise.nil, fun _ hc => absurd hc List.not_mem_nil⟩

/-- Both commands leave the queue; memory is empty afterwards, or nothing has changed. -/
theorem exec_flannelPower_keeps {c : Instr} {s t : State} (hc : c = .flannelPowerUp ∨ c = .flannelPowerLoss) (h : exec c s = .next t) :
    t.pending = s.pending ∧ (s.MemForm → t.MemForm) := by
  rcases hc with rfl | rfl
  · rw [exec_flannelPowerUp, execFlannelPowerUp, event] at h
    cases h
    split
    · exact ⟨rfl, fun _ => s.unpowered_memForm⟩
    · exact ⟨rfl, id⟩
  · cases h
    exact ⟨rfl, fun _ => s.unpowered_memForm⟩

theorem exec_pending_memForm {c : Instr} {s t : State} (h : exec c s = .next t) : t.pending = s.pending ∧ (s.MemForm → t.MemForm) := by
  by_cases hc : c = .flannelPowerUp ∨ c = .flannelPowerLoss
  · exact exec_flannelPower_keeps hc h
  · obtain ⟨hup, hloss⟩ := not_or.1 hc
    have k := exec_keeps s hup hloss t h
    exact ⟨k.pending, k.mem⟩

/-- Settles O57: a step is a command on a state that differs in its queue alone. -/
theorem stepsKeepMemoryForm : Obligations.StepsKeepMemoryForm := by
  unfold Obligations.StepsKeepMemoryForm
  intro s t hs h
  unfold step at h
  split at h
  · cases h
    exact hs
  · exact (exec_pending_memForm h).2 hs

/-- Settles O58. -/
theorem timeNeverGoesBack : Obligations.TimeNeverGoesBack := by
  unfold Obligations.TimeNeverGoesBack
  intro s t c hup hloss h
  exact (exec_keeps s hup hloss t h).tick

/-- Settles O59. -/
theorem commandsLeaveTheQueue : Obligations.CommandsLeaveTheQueue := by
  unfold Obligations.CommandsLeaveTheQueue
  intro s t c h
  exact (exec_pending_memForm h).1

/-- Settles O56: no byte is listed at reset. -/
theorem memoryFormAtReset : Obligations.MemoryFormAtReset := by
  unfold Obligations.MemoryFormAtReset
  exact ⟨List.Pairwise.nil, fun _ hc => absurd hc List.not_mem_nil⟩

end Sys2Proof.Machine
end

section
/-! SUPPORT. The step, and the operations of a core that neither wait nor reach memory: arithmetic, branches, SIGNAL, HALT and ISSUE (Table 8.7). -/

namespace Sys2Proof.Machine

/-! ### The step -/

theorem step_cons (s : State) (c : Instr) (rest : List Instr) : step { s with pending := c :: rest } = exec c { s with pending := rest } := rfl

/-- Settles O1. -/
theorem stepRunsFrontCommand : Obligations.StepRunsFrontCommand := by
  unfold Obligations.StepRunsFrontCommand
  refine ⟨step_cons, fun s h => ?_⟩
  unfold step
  rw [h]

/-! ### Arithmetic -/

/-- An operation that writes a value to RD, at an index that leaves a next one. -/
theorem exec_coreAlu {s : State} {k op w : Nat} {i : Instr} {v : Nat → Core → Word} (he : exec i s = s.coreOp k op fun w c => s.coreAlu k w c (v w c))
    (hpc : (s.core k).pc < 8191) (h : s.coreAt k op w = true) : ∃ t, exec i s = .next t ∧ coreWrote s t k (iRd w) (v w (s.core k)) :=
  ⟨_, he.trans (coreOp_of_coreAt h), coreAlu_wrote s k w _ hpc⟩

/-- Settles O2: each of these operations writes its value to RD and goes on. -/
theorem coreArithmetic : Obligations.CoreArithmetic := by
  unfold Obligations.CoreArithmetic
  intro s k w c a b i d hpc
  exact ⟨exec_coreAlu (exec_add k s) hpc, exec_coreAlu (exec_sub k s) hpc, exec_coreAlu (exec_addi k s) hpc, exec_coreAlu (exec_shl k s) hpc,
    exec_coreAlu (exec_shr k s) hpc, exec_coreAlu (exec_sra k s) hpc, exec_coreAlu (exec_and k s) hpc, exec_coreAlu (exec_or k s) hpc,
    exec_coreAlu (exec_xor k s) hpc⟩

/-! ### Branches -/

/-- A branch that finds program memory at its next index goes there and writes no register. -/
theorem exec_coreBranch {s : State} {k op w : Nat} {i : Instr} {taken : Nat → Core → Bool} {b : Bool}
    (he : exec i s = s.coreOp k op fun w c => s.coreBranch k w c (taken w c)) (hb : taken w (s.core k) = b) (h : s.coreAt k op w = true)
    (hn : (if b then (BitVec.ofInt 64 (iImm w)).toNat else (s.core k).pc + 1) ≤ 8191) :
    ∃ t, exec i s = .next t ∧ coreWent s t k (if b then (BitVec.ofInt 64 (iImm w)).toNat else (s.core k).pc + 1) := by
  subst hb
  exact ⟨_, he.trans (coreOp_of_coreAt h), coreGo_went s k _ hn⟩

/-- A core that writes a register and goes to an index of program memory. -/
theorem coreGo_setReg (s : State) (k i : Nat) (v : Word) {pc : Nat} (hpc : pc ≤ 8191) :
    let t := s.coreGo k ((s.core k).setReg i v) pc
    sameButCore s t k ∧ goneTo (s.core k) (t.core k) pc ∧ wroteReg (s.core k) (t.core k) i v := by
  rw [State.coreGo, if_pos hpc]
  refine ⟨sameButCore_setCore .., ?_, ?_⟩
  · rw [core_setCore_same]
    exact goneTo_setReg ..
  · rw [core_setCore_same]
    exact wroteReg_setReg ..

theorem exec_loop_of_coreAt {s : State} {k w : Nat} (h : s.coreAt k opLOOP w = true) :
    exec (.loop k) s = .next (s.coreGo k ((s.core k).setReg (iRa w) ((s.core k).reg (iRa w) - 1))
      (if (s.core k).reg (iRa w) - 1 != 0 then (immW w).toNat else (s.core k).pc + 1)) := by
  refine ((exec_loop k s).trans (coreOp_of_coreAt h)).trans ?_
  rw [State.coreBranch, setReg_pc]

/-- Settles O3: each branch goes where its comparison says; LOOP and JUMP write one register besides. -/
theorem coreBranches : Obligations.CoreBranches := by
  unfold Obligations.CoreBranches
  intro s k w c a b i nxt
  refine ⟨exec_coreBranch (exec_beq k s) rfl, exec_coreBranch (exec_bne k s) rfl, exec_coreBranch (exec_blt k s) BitVec.slt_eq_decide,
    exec_coreBranch (exec_bge k s) (not_slt_eq_decide ..), exec_coreBranch (exec_bltu k s) BitVec.ult_eq_decide,
    exec_coreBranch (exec_bgeu k s) (not_ult_eq_decide ..), fun h hn => ?_, fun h hn => ?_⟩
  · exact ⟨_, exec_loop_of_coreAt h, coreGo_setReg s k _ _ hn⟩
  · exact ⟨_, (exec_jump k s).trans (coreOp_of_coreAt h), coreGo_setReg s k _ _ hn⟩

/-! ### SIGNAL and HALT -/

theorem counter_addCounter (s : State) (n c m j : Nat) (v : Word32) :
    (s.addCounter n c v).counter m j = if m = n ∧ j = c then s.counter m j + v else s.counter m j := by
  rw [State.addCounter, counter_setCounter]
  split
  · rename_i h
    rw [h.1, h.2]
  · rfl

/-- A core that no WAIT holds does not notice a counter. -/
theorem core_addCounter_of_free {s : State} {k : Nat} (n c : Nat) (v : Word32) (h : (s.core k).hold = .none) :
    (s.addCounter n c v).core k = s.core k := by
  rw [State.addCounter, core_setCounter]
  split
  · exact releaseWait_of_free h
  · rfl

theorem exec_coreSignal_of_coreAt {s : State} {k w : Nat} (h : s.coreAt k opSIGNAL w = true) (hpc : (s.core k).pc < 8191) :
    exec (.coreSignal k) s =
      let t := s.addCounter (k / 16) (iC w) (((s.core k).reg (iRa w) + immW w).truncate 32)
      .next (t.setCore k ((t.core k).goto ((s.core k).pc + 1))) := by
  refine ((exec_coreSignal k s).trans (coreOp_of_coreAt h)).trans ?_
  rw [if_neg (Nat.not_le.2 hpc)]

theorem exec_halt_of_coreAt {s : State} {k w : Nat} (h : s.coreAt k opHALT w = true) :
    exec (.halt k) s = .next ((s.setCore k { s.core k with st := .halted, hold := .none }).touch [k / 256]).settleForces :=
  (exec_halt k s).trans (coreOp_of_coreAt h)

/-- Settles O5: SIGNAL of a core moves it on by one index, HALT stops it where it stands. -/
theorem coreSignalAndHalt : Obligations.CoreSignalAndHalt := by
  unfold Obligations.CoreSignalAndHalt
  intro s k w c v
  refine ⟨fun h hpc => ?_, fun h => ?_⟩
  · obtain ⟨hrun, hfree⟩ := coreAt_running h
    refine ⟨_, exec_coreSignal_of_coreAt h hpc, rfl, fun n j => ?_, ?_⟩
    · rw [counter_setCore, counter_addCounter]
      rfl
    · rw [core_setCore_same, core_addCounter_of_free _ _ _ hfree, Core.goto, ← hrun, ← hfree]
  · obtain ⟨-, hfree⟩ := coreAt_running h
    have settled : sameButDomains (s.setCore k { c with st := .halted, hold := .none }) _ :=
      (sameButDomains_touch _ [k / 256]).trans (sameButDomains_settleForces _)
    refine ⟨_, exec_halt_of_coreAt h, ?_, fun j hj => ?_, settled.sameBytes⟩
    · rw [settled.core, core_setCore_same, ← hfree]
    · rw [settled.core, core_setCore, if_neg hj]

/-! ### ISSUE -/

theorem corrections_nil (s : State) (a n : Nat) : s.corrections [] a n = s := rfl

/-- What an ISSUE of core `k` at store offset `a` offers: the 64 bytes there, under its counter, with what they have met. -/
def State.issueOffer (s : State) (k a : Nat) (m : OfferMeets) : Offer :=
  let w := (s.core k).word (s.core k).pc
  let x := storeBase (k / 16) + a
  { iss := .core k, ctr := if iNc w then none else some (iC w), bytes := s.readBytes x 64, lost := m.lost
    ces := m.ces.filter fun e => !(decide (x ≤ e.1) && decide (e.1 < x + 64)) }

theorem issue_fits {a : Nat} (h64 : a % 64 = 0) (hst : a + 64 ≤ 0x600000) : ¬(a % 64 ≠ 0 ∨ storeSize < a + 64) := by
  unfold storeSize
  omega

section
variable {s : State} {k a : Nat} {m : OfferMeets} (ha : s.coreEa k ((s.core k).word (s.core k).pc) = a) (hpc : (s.core k).pc < 8191)
  (h64 : a % 64 = 0) (hst : a + 64 ≤ 0x600000)
include ha hpc h64 hst

theorem issueFrom_taken {u : State} (hu : (s.corrections m.ces (storeBase (k / 16) + a) 64).offer (s.issueOffer k a m) = some u) :
    s.issueFrom k m = u.setCore k ((u.core k).goto ((s.core k).pc + 1)) := by
  have hfits := issue_fits h64 hst
  unfold State.coreEa at ha
  unfold State.issueOffer at hu
  simp only [State.issueFrom, ha, hfits, Nat.not_le.2 hpc, if_false, State.readStore, hu]

theorem issueFrom_stalled (hn : (s.corrections m.ces (storeBase (k / 16) + a) 64).offer (s.issueOffer k a m) = none) :
    s.issueFrom k m = (s.corrections m.ces (storeBase (k / 16) + a) 64).setCore k
      { s.core k with hold := .issue { m with ces := (s.issueOffer k a m).ces } } := by
  have hfits := issue_fits h64 hst
  unfold State.coreEa at ha
  unfold State.issueOffer at *
  simp only [State.issueFrom, ha, hfits, Nat.not_le.2 hpc, if_false, State.readStore, hn]

end

/-- A descriptor that passes its checks is not taken behind an open FENCE, without room, or while the room is due to others. -/
theorem offer_eq_none {s : State} {o : Offer} (n : Nat) (hst : s.issuerCheck o.iss o.bytes = stOK)
    (hw : s.fenced o.iss = true ∨ s.hasRoomAt (s.placeOf o.iss o.bytes) = false ∨ s.entriesTaken o = true) : s.offer o n = none := by
  have hwait : (s.fenced o.iss || !s.hasRoomAt (s.placeOf o.iss o.bytes) || s.entriesTaken o) = true := by
    rcases hw with h | h | h
    · simp [h]
    · simp [h]
    · simp [h]
  simp only [State.offer, hst, ne_eq, not_true_eq_false, if_false, hwait, if_true]

/-- Settles O9: what the offer answers decides whether the core goes on. -/
theorem coreIssues : Obligations.CoreIssues := by
  unfold Obligations.CoreIssues
  intro s k w m c a x v rest o h hpc h64 hst
  have hw := coreAt_word h
  have ha : s.coreEa k ((s.core k).word (s.core k).pc) = a := by rw [hw]; rfl
  have ho : s.issueOffer k a m = o := by rw [State.issueOffer, hw]
  have hrun : exec (.issue k m) s = .next (s.issueFrom k m) := (exec_issue k m s).trans (coreOp_of_coreAt h)
  refine ⟨fun u hu => ?_, fun hn => ?_, fun hm => ?_, offer_eq_none 0⟩
  · rw [hrun, issueFrom_taken ha hpc h64 hst (ho ▸ hu)]
  · rw [hrun, issueFrom_stalled ha hpc h64 hst (ho ▸ hn), ho]
  · have hv : v = s := by
      simp only [v, hm]
      exact corrections_nil ..
    have hrest : ({ m with ces := o.ces } : OfferMeets) = m := by
      simp [o, rest, hm]
      rw [← hm]
    refine ⟨hv, fun hn => ?_⟩
    have hn' : v.offer o = none := hv ▸ hn
    refine ⟨_, hrun.trans (congrArg _ (issueFrom_stalled ha hpc h64 hst (ho ▸ hn'))), ?_, ?_⟩
    · rw [show s.corrections m.ces (storeBase (k / 16) + a) 64 = s from hv]
      exact sameButCore_setCore ..
    · rw [core_setCore_same, ho, hrest]

end Sys2Proof.Machine
end

section
/-! SUPPORT. Bytes after a zeroing (R59, R249, R261), and what the machine holds right after reset. -/

namespace Sys2Proof.Machine

/-- A range zeroed as a whole reads 0, and every other byte as before. -/
theorem read8_zeroRange (s : State) (a n x : Nat) : (s.zeroRange a n).read8 x = if a ≤ x ∧ x < a + n then 0 else s.read8 x := by
  unfold State.zeroRange
  split
  · rename_i hn
    rw [if_neg (by omega)]
  · simp only [State.read8, find_memDrop]
    by_cases hx : a ≤ x ∧ x < a + n
    · have hz := (zeroAt_addRange s.zeroed a (a + n) x (a.le_add_right n)).2 (.inr hx)
      simp [hx, hz]
    · have hz : zeroAt (addRange s.zeroed a (a + n)) x = zeroAt s.zeroed x := by
        rw [Bool.eq_iff_iff, zeroAt_addRange s.zeroed a (a + n) x (a.le_add_right n)]
        exact or_iff_left hx
      simp [hx, hz]

/-- SRAM that nothing has written reads 0. -/
theorem read8_unlisted_sram {s : State} {x : Nat} (hx : isSram x = true) (hn : SMap.find? s.mem x = none) : s.read8 x = 0 := by
  simp [State.read8, hn, zeroAt, hx]

/-- Settles O55. -/
theorem writtenBytesRead : Obligations.WrittenBytesRead := by
  unfold Obligations.WrittenBytesRead
  refine ⟨read8_zeroRange, fun s a x b => ⟨?_, fun bs => ⟨readBytes_writeBytes s a bs, sameBytesBut_writeBytes s a bs x⟩, read8_unlisted_sram⟩⟩
  split
  · rename_i h
    rw [h, read8_write8_same]
  · rename_i h
    exact read8_write8_other s b h

/-- A domain right after reset. -/
theorem reset_dom (d : Nat) : State.reset.dom d = domainDefault d := rfl

/-- Settles O60: every map is empty at reset, so each unit holds its default. -/
theorem resetValues : Obligations.ResetValues := by
  unfold Obligations.ResetValues
  refine ⟨rfl, rfl, rfl, rfl, rfl, rfl, rfl, rfl, rfl, fun q => ⟨rfl, rfl, rfl⟩, rfl, rfl, fun d => ?_, fun d h => ?_, fun d h h' => ?_,
    fun d h h' => ?_, fun d h h' => ?_, fun d h h' => ?_, fun k => ⟨rfl, rfl, fun i => ?_⟩, fun n c => rfl, rfl, rfl, rfl⟩
  · rw [reset_dom, domainDefault]
    split_ifs
    all_goals exact ⟨rfl, rfl⟩
  · rw [reset_dom, domainDefault, if_pos h]
    exact ⟨rfl, rfl⟩
  · rw [reset_dom, domainDefault, if_neg (by omega), if_pos h']
    exact ⟨rfl, rfl⟩
  · rw [reset_dom, domainDefault, if_neg (by omega), if_neg (by omega), if_pos h']
    exact ⟨rfl, rfl⟩
  · rw [reset_dom, domainDefault, if_neg (by omega), if_neg (by omega), if_neg (by omega), if_pos h']
    exact ⟨rfl, rfl⟩
  · rw [reset_dom, domainDefault, if_neg (by omega), if_neg (by omega), if_neg (by omega), if_neg (by omega)]
    exact ⟨rfl, rfl⟩
  · show (State.reset.core k).reg i = 0
    unfold Core.reg
    split
    · rfl
    · rfl

end Sys2Proof.Machine
end

section
/-! SUPPORT. How a descriptor is offered, accepted, refused and completed (R161, R162, R174, R183). -/

namespace Sys2Proof.Machine

/-! ### The rows that offer a descriptor -/

/-- Each row that is the offer's own runs the one rule of all of them. -/
theorem exec_ownRow {s : State} {o : Offer} {f : Nat} {e : Bool × Instr} (he : e ∈ offerRows s o f) (hrow : e.1 = true) :
    exec e.2 s = offerExec o true s := by
  have plain {i : Instr} {b : Bool} (hi : exec i s = offerExec o b s) (hb : b = true) : exec i s = offerExec o true s := hb ▸ hi
  revert e
  simp only [offerRows, List.forall_mem_cons]
  refine ⟨plain (exec_matmul o s), plain (exec_curvgather o s), plain (exec_vecop o s), plain (exec_compress o s), plain (exec_expand o s),
    plain (exec_stashPut o s), plain (exec_stashGet o s), plain (exec_stashTake o s), plain (exec_stashFree o s), plain (exec_copy o s),
    plain (exec_racc o s), plain (exec_gather o s), plain (exec_gatherRoot o s), plain (exec_drop o s), plain (exec_dropRoot o s),
    plain (exec_bcast o s), plain (exec_permute o s), plain (exec_gate o s), plain (exec_solve o s), plain (exec_fence o s),
    plain (exec_signal o s), fun h => ?_, List.forall_mem_nil _⟩
  simp only [Bool.and_eq_true] at h
  obtain ⟨⟨⟨⟨⟨⟨hf, ht⟩, hfac⟩, hsched⟩, heng⟩, hfrom⟩, howed⟩ := h
  simp only [exec_scheduledRootRefresh, execScheduledRootRefresh, hf, ht, hfac, hsched, heng, hfrom, howed, Bool.not_true, Bool.false_eq_true,
    if_false, Bool.and_true]

/-- The own row of an offer that may be made answers what the offer answers. -/
theorem exec_ownRow_of_offers {s : State} {o : Offer} {f : Nat} {e : Bool × Instr} (ho : s.offers o = true) (he : e ∈ offerRows s o f)
    (hrow : e.1 = true) : exec e.2 s = .next ((s.offer o (s.headOf o.iss)).getD s) := by
  obtain ⟨hwf, hlive⟩ : o.wf = true ∧ s.issuerLive o.iss = true := by simpa [State.offers] using ho
  rw [exec_ownRow he hrow]
  simp only [offerExec, guarded, hwf, State.offerRow, hlive, Bool.and_true, if_true]
  rfl

/-! ### What a wake leaves -/

/-- Nothing differs but what a wake can change: power domains, the clusters and engines that spares replace, the map and work memory. -/
def sameButWakes (s t : State) : Prop :=
  t = { s with domains := t.domains, swapped := t.swapped, absent := t.absent, spareCores := t.spareCores, calico := t.calico
               remaps := t.remaps, engineMap := t.engineMap, engines := t.engines, mem := t.mem }

theorem sameButWakes.refl (s : State) : sameButWakes s s := rfl

theorem sameButWakes.trans {s t u : State} (h : sameButWakes s t) (g : sameButWakes t u) : sameButWakes s u := by
  unfold sameButWakes at *
  rw [g, h]

theorem sameButWakes.foldl {α : Type} {f : State → α → State} (hf : ∀ s x, sameButWakes s (f s x)) (l : List α) (s : State) :
    sameButWakes s (l.foldl f s) := by
  induction l generalizing s with
  | nil => exact .refl s
  | cons x r ih => exact (hf s x).trans (ih (f s x))

theorem sameButWakes_setDom (s : State) (d : Nat) (x : Domain) : sameButWakes s (s.setDom d x) := rfl

theorem sameButWakes_swapCluster (s : State) (n : Nat) : sameButWakes s (s.swapCluster n) := by
  unfold State.swapCluster
  dsimp only
  split_ifs
  all_goals rfl

theorem sameButWakes_swapCores (s : State) (n : Nat) : sameButWakes s (s.swapCores n) := by
  unfold State.swapCores
  split
  · exact .refl s
  · split
    · exact .refl s
    · split
      · exact .refl s
      · rfl

theorem sameButWakes_loadRemaps (s : State) (h : Nat) : sameButWakes s (s.loadRemaps h) := rfl

theorem sameButWakes_rampHalf (s : State) (h : Nat) : sameButWakes s (s.rampHalf h) := by
  have spared : sameButWakes s
      ((((List.range 16).map (16 * h + ·)).foldl State.swapCores (((List.range 16).map (16 * h + ·)).foldl State.swapCluster s)).loadRemaps h) :=
    ((sameButWakes.foldl sameButWakes_swapCluster _ s).trans (.foldl sameButWakes_swapCores _ _)).trans (sameButWakes_loadRemaps ..)
  unfold State.rampHalf
  dsimp only
  split_ifs
  · exact .refl s
  · exact spared.trans (sameButWakes_setDom ..)
  · exact spared

theorem sameButWakes_replaceEngine (s : State) (e : Nat) : sameButWakes s (s.replaceEngine e) := by
  unfold State.replaceEngine
  dsimp only
  split_ifs
  all_goals rfl

theorem sameButWakes_wake (s : State) (d : Nat) : sameButWakes s (s.wake d) := by
  unfold State.wake
  dsimp only
  split
  · exact .refl s
  · split
    · split_ifs
      · exact (sameButWakes_setDom ..).trans (sameButWakes_rampHalf ..)
      · exact (sameButWakes_setDom ..).trans (sameButWakes_replaceEngine ..)
      · exact sameButWakes_setDom ..
    · split_ifs
      · exact sameButWakes_replaceEngine ..
      · exact sameButWakes_setDom ..
    · exact sameButWakes_setDom ..
    · exact sameButWakes_setDom ..
    · exact .refl s
    · exact .refl s
    · exact .refl s

theorem sameButWakes_wakeAll (s : State) (ds : List Nat) : sameButWakes s (s.wakeAll ds) := .foldl sameButWakes_wake ds s

theorem sameButWakes.descs {s t : State} (h : sameButWakes s t) : t.descs = s.descs := by rw [h]

/-! ### Acceptance -/

theorem noteGrant_descs (s : State) (iss : Issuer) (p : Place) : (s.noteGrant iss p).descs = s.descs := by
  unfold State.noteGrant
  split
  · rfl
  · rfl

/-- An accepted descriptor joins those accepted before it, with what holds at that instant. -/
theorem accept_descs (s : State) (o : Offer) (head : Nat) :
    ∃ d : Desc, (s.accept o head).descs = s.descs ++ [d] ∧ d.id = s.nextId ∧ d.iss = o.iss ∧ d.ctr = o.ctr ∧
      d.bytes = resolveTarget o.iss o.bytes ∧ d.place = s.placeOf o.iss o.bytes ∧ d.num = s.numerics ∧ d.epoch = s.epochNow ∧
      d.accepted = s.tick ∧ d.work = .queued := by
  unfold State.accept
  dsimp only
  rw [(sameButWakes_wakeAll ..).descs, noteGrant_descs]
  exact ⟨_, rfl, rfl, rfl, rfl, rfl, rfl, rfl, rfl, rfl, rfl⟩

theorem offer_of_takes {s : State} {o : Offer} (n : Nat) (h : s.takes o = true) : s.offer o n = some (s.accept o n).advance := by
  simp only [State.takes, Bool.and_eq_true, beq_iff_eq, Bool.not_eq_true'] at h
  obtain ⟨⟨⟨⟨-, hst⟩, hfence⟩, hroom⟩, hdue⟩ := h
  simp [State.offer, hst, hfence, hroom, hdue]

theorem offers_of_takes {s : State} {o : Offer} (h : s.takes o = true) : s.offers o = true := by
  simp only [State.takes, Bool.and_eq_true] at h
  exact h.1.1.1.1

/-- Settles O10: an offer is taken or left as its checks, its order and the room say. -/
theorem descriptorsAreAccepted : Obligations.DescriptorsAreAccepted := by
  unfold Obligations.DescriptorsAreAccepted
  intro s o f
  refine ⟨fun h => ⟨fun e he hrow => ?_, accept_descs s o _⟩, fun ho hst hw e he => ?_⟩
  · rw [exec_ownRow_of_offers (offers_of_takes h) he hrow, offer_of_takes _ h, Option.getD_some]
  · cases hrow : e.1 with
    | false => exact .inr rfl
    | true =>
      left
      rw [exec_ownRow_of_offers ho he hrow, offer_eq_none _ hst hw, Option.getD_none]

/-! ### What a completion leaves -/

/-- Nothing differs but what the completion of a descriptor can change: cores and counters, queues, rings and what is posted, the queue's
descriptors, what a GATE, a BCAST, a PERMUTE or a SOLVE notes of its end, and the domains. -/
def sameButReports (s t : State) : Prop :=
  t = { s with clusters := t.clusters, engines := t.engines, domains := t.domains, hif := t.hif, sqs := t.sqs, cqs := t.cqs, descs := t.descs
               grad := t.grad, shard := t.shard }

theorem sameButReports.trans {s t u : State} (h : sameButReports s t) (g : sameButReports t u) : sameButReports s u := by
  unfold sameButReports at *
  rw [g, h]

theorem sameButReports_postRecord (s : State) (q : Nat) (r : Record) : sameButReports s (s.postRecord q r) := by
  unfold State.postRecord
  dsimp only
  split
  · rfl
  · rfl

theorem sameButReports_complete (s : State) (iss : Issuer) (ctr : Option Nat) (b : Bytes) (st fl : Nat) (r : Word) (woke : Bool) (n : Nat) :
    sameButReports s (s.complete iss ctr b st fl r woke n) := by
  unfold State.complete
  split
  · dsimp only
    split
    · rfl
    · rfl
  · dsimp only
    split
    · rfl
    · exact sameButReports_postRecord ..

theorem complete_descs (s : State) (iss : Issuer) (ctr : Option Nat) (b : Bytes) (st fl : Nat) (r : Word) (woke : Bool) (n : Nat) :
    (s.complete iss ctr b st fl r woke n).descs = s.descs := by
  unfold State.complete State.postRecord
  split
  · dsimp only
    split
    · rfl
    · rfl
  · dsimp only
    split_ifs
    all_goals rfl

theorem sameButReports.sameBytes {s t : State} (h : sameButReports s t) : sameBytes s t := by
  rw [h]
  exact fun _ => rfl

theorem sameButReports.txns {s t : State} (h : sameButReports s t) : t.txns = s.txns := by rw [h]

theorem sameButReports.egress {s t : State} (h : sameButReports s t) : t.egress = s.egress := by rw [h]

/-! ### The completion at a core -/

theorem firstStatus_setReg (c : Core) (i : Nat) (v : Word) : (c.setReg i v).firstStatus = c.firstStatus := by
  unfold Core.setReg
  split
  · rfl
  · rfl

theorem firstStatus_releaseWait (late : Nat → Bool) (cs : SMap Word32) (c : Core) : (releaseWait late cs c).firstStatus = c.firstStatus := by
  unfold releaseWait
  dsimp only
  split
  · exact firstStatus_setReg ..
  · rfl

theorem firstStatus_setCounter (s : State) (n c k : Nat) (v : Word32) : ((s.setCounter n c v).core k).firstStatus = (s.core k).firstStatus := by
  rw [core_setCounter]
  split
  · exact firstStatus_releaseWait ..
  · rfl

/-- At a core the first status that is not OK stays, and its counter, where it has one, rises by 1. -/
theorem complete_core (s : State) (k : Nat) (ctr : Option Nat) (b : Bytes) (st fl : Nat) (r : Word) (woke : Bool) (n : Nat) :
    let t := s.complete (.core k) ctr b st fl r woke n
    (t.core k).firstStatus = (if (s.core k).firstStatus = 0 then st else (s.core k).firstStatus) ∧
      ∀ m c, t.counter m c = if m = k / 16 ∧ ctr = some c then s.counter m c + 1 else s.counter m c := by
  unfold State.complete
  cases ctr with
  | none =>
    refine ⟨?_, fun m c => ?_⟩
    · rw [core_setCore_same]
      rfl
    · simp only [counter_setCore, reduceCtorEq, and_false, if_false]
  | some c0 =>
    refine ⟨?_, fun m c => ?_⟩
    · simp only [State.addCounter, firstStatus_setCounter, core_setCore_same]
      rfl
    · simp only [counter_addCounter, counter_setCore, Option.some.injEq, eq_comm (a := c)]

/-! ### The completion at a ring -/

/-- The two posted writes of a record at completion ring `c`: its first four bytes go last. -/
def Record.writes (r : Record) (c : Cq) : List Posted :=
  [⟨c.base + c.tail * 32 + 4, (r.encode c.phase).drop 4⟩, ⟨c.base + c.tail * 32, (r.encode c.phase).take 4⟩]

theorem postRecord_posted (s : State) (q : Nat) (r : Record) :
    (s.postRecord q r).hif.posted = if (s.cqs.get {} q).enable then s.hif.posted ++ r.writes (s.cqs.get {} q) else s.hif.posted := by
  unfold State.postRecord
  dsimp only
  cases (s.cqs.get {} q).enable with
  | false => rfl
  | true => rfl

/-- At a ring that is enabled the record is posted, unless the function is in D3hot. -/
theorem complete_host (s : State) (q : Nat) (ctr : Option Nat) (b : Bytes) (st fl : Nat) (res : Word) (woke : Bool) (n : Nat)
    (hd3 : s.hif.d3hot = false) :
    ∃ r : Record, r.status = st ∧ r.flags = fl ∧ r.result = res ∧ r.sq = q ∧ r.woke = woke ∧ r.tag = dTag b ∧ r.timestamp = s.tick ∧
      (s.complete (.host q) ctr b st fl res woke n).hif.posted =
        let c := s.cqs.get {} (s.sqs.get {} q).cq
        if c.enable then s.hif.posted ++ r.writes c else s.hif.posted := by
  simp only [State.complete, hd3, Bool.false_eq_true, if_false, postRecord_posted]
  exact ⟨_, rfl, rfl, rfl, rfl, rfl, rfl, rfl, rfl⟩

theorem cq_enable_of_live {s : State} {q : Nat} (h : s.issuerLive (.host q) = true) : (s.cqs.get {} (s.sqs.get {} q).cq).enable = true := by
  simp only [State.issuerLive, State.cqFree, Bool.and_eq_true] at h
  exact h.2.1

theorem offer_of_failed {s : State} {o : Offer} (n : Nat) (h : s.issuerCheck o.iss o.bytes ≠ stOK) :
    s.offer o n = some ((s.complete o.iss o.ctr o.bytes (s.issuerCheck o.iss o.bytes) 0 (emptyResult o.bytes) false n).notePermute o.bytes
      (s.issuerCheck o.iss o.bytes)) := if_pos h

theorem notePermute_eq (s : State) (b : Bytes) (st : Nat) : s.notePermute b st = { s with shard := (s.notePermute b st).shard } := by
  unfold State.notePermute
  split
  · rfl
  · rfl

/-- Settles O11. -/
theorem descriptorsFailingACheck : Obligations.DescriptorsFailingACheck := by
  unfold Obligations.DescriptorsFailingACheck
  intro s o f st ho hst e he hrow
  have hlive : s.issuerLive o.iss = true := by simpa [State.offers] using And.right (by simpa [State.offers] using ho : o.wf = true ∧ _)
  have hrun := exec_ownRow_of_offers ho he hrow
  rw [offer_of_failed _ hst, Option.getD_some, notePermute_eq] at hrun
  have frame := sameButReports_complete s o.iss o.ctr o.bytes st 0 (emptyResult o.bytes) false (s.headOf o.iss)
  refine ⟨_, hrun, complete_descs .., frame.txns, frame.egress, frame.sameBytes, ?_⟩
  obtain ⟨iss, ctr, b, lost, ces⟩ := o
  cases iss with
  | core k => exact complete_core s k ctr b st 0 _ false _
  | host q =>
    intro hd3
    obtain ⟨r, hstatus, -, -, hsq, -, htag, htime, hposted⟩ := complete_host s q ctr b st 0 (emptyResult b) false (s.headOf (.host q)) hd3
    refine ⟨r, hstatus, hsq, htag, htime, ?_⟩
    rw [if_pos (cq_enable_of_live hlive)] at hposted
    exact hposted

/-! ### What may then run, once no descriptor waits -/

/-- Nothing differs but transactions, what is sent, and what the units of steps and buckets note. -/
def sameButSends (s t : State) : Prop :=
  t = { s with txns := t.txns, nextTxn := t.nextTxn, egress := t.egress, grad := t.grad }

theorem sameButSends.refl (s : State) : sameButSends s s := rfl

theorem sameButSends.trans {s t u : State} (h : sameButSends s t) (g : sameButSends t u) : sameButSends s u := by
  unfold sameButSends at *
  rw [g, h]

theorem sameButSends.descs {s t : State} (h : sameButSends s t) : t.descs = s.descs := by rw [h]

theorem sameButSends_mirrorAnswer (s : State) (b id st : Nat) : sameButSends s (s.mirrorAnswer b id st) := by
  unfold State.mirrorAnswer
  dsimp only
  split_ifs
  · exact .refl s
  · rfl

theorem sameButSends_sendFp (s : State) (b fl : Nat) (run again : Word) : sameButSends s (s.sendFp b fl run again) := by
  unfold State.sendFp
  split
  · rfl
  · exact .refl s

theorem sameButSends_overwriteAnswer (s : State) (b st : Nat) : sameButSends s (s.overwriteAnswer b st) := by
  unfold State.overwriteAnswer
  split
  · exact .refl s
  · exact sameButSends_sendFp ..

theorem sameButSends_endRelay (s : State) (r : Relay) : sameButSends s (s.endRelay r) := by
  unfold State.endRelay
  dsimp only
  split_ifs
  · exact .refl s
  · rfl
  · rfl

theorem sameButSends_relayAnswer (s : State) (src up txn st : Nat) : sameButSends s (s.relayAnswer src up txn st) := by
  unfold State.relayAnswer
  split
  · exact sameButSends.trans (t := s.setRelay _) rfl (sameButSends_endRelay ..)
  · exact .refl s

/-- The transactions of a state without descriptors end at most those of packets of the module's own. -/
theorem sameButSends_respond {s : State} (h : s.descs = []) (txn st fl resp : Nat) (data : Bytes) :
    sameButSends s (s.respond txn st fl resp data) := by
  unfold State.respond
  split
  · exact .refl s
  · rename_i t _
    have ended : sameButSends s { s with txns := s.txns.filter (·.txn != txn) } := rfl
    dsimp only
    split
    · have hd (id : Nat) : State.desc? { s with txns := s.txns.filter (·.txn != txn) } id = none := by simp [State.desc?, h]
      rw [hd]
      exact ended
    · exact ended.trans (sameButSends_mirrorAnswer ..)
    · exact ended.trans (sameButSends_overwriteAnswer ..)
    · exact ended.trans (sameButSends_relayAnswer ..)
    · exact ended

theorem sameButSends_failTxn {s : State} (h : s.descs = []) (t : Txn) : sameButSends s (s.failTxn t) := by
  let u : State := { s with egress := s.egress.filter fun k => !(k.src == s.node && k.txn == t.txn && isRequest k.kind) }
  have dropped : sameButSends s u := rfl
  exact dropped.trans (sameButSends_respond (s := u) h ..)

theorem sameButSends_failTxns {s : State} (h : s.descs = []) (l : List Txn) : sameButSends s (l.foldl State.failTxn s) := by
  induction l generalizing s with
  | nil => exact .refl s
  | cons t r ih =>
    have first := sameButSends_failTxn h t
    exact first.trans (ih (first.descs.trans h))

theorem advance_of_no_descs {s : State} (h : s.descs = []) : s.advance = s.failNew := by
  have hd : s.failNew.descs = [] := (sameButSends_failTxns h _).descs.trans h
  simp only [State.advance, State.advanceBefore, State.advanceGo, hd, List.find?_nil]

theorem sameButSends_advance {s : State} (h : s.descs = []) : sameButSends s s.advance :=
  (advance_of_no_descs h).symm ▸ sameButSends_failTxns h _

/-- Where no new transaction goes to a lost partner, none fails. -/
theorem failNew_of_partners {s : State} (h : ∀ x ∈ s.txns, x.queued = true → s.partnerLost x.dst = false) : s.failNew = s := by
  have hnone : (s.txns.filter fun t => t.queued && s.partnerLost t.dst) = [] := by
    rw [List.filter_eq_nil_iff]
    intro x hx hq
    rw [Bool.and_eq_true] at hq
    exact absurd hq.2 (by simp [h x hx hq.1])
  rw [State.failNew, hnone, List.foldl_nil]

/-! ### The completion that a descriptor is owed -/

/-- What a completion does before its signal or record: nothing of it shows at a core or at a ring. -/
def sameButNotes (s t : State) : Prop :=
  t = { s with engines := t.engines, domains := t.domains, grad := t.grad, shard := t.shard }

theorem sameButNotes.toReports {s t : State} (h : sameButNotes s t) : sameButReports s t := by
  unfold sameButReports
  rw [h]

theorem sameButNotes_notePermute (s : State) (b : Bytes) (st : Nat) : sameButNotes s (s.notePermute b st) := by
  rw [notePermute_eq]
  rfl

theorem sameButNotes_countSolve (s : State) (e st : Nat) (r : Word) : sameButNotes s (s.countSolve e st r) := by
  unfold State.countSolve
  dsimp only
  split
  · rfl
  · rfl

theorem sameButNotes_completionEffects (s : State) (d : Desc) (st : Nat) (r : Word) : sameButNotes s (s.completionEffects d st r) := by
  unfold State.completionEffects
  dsimp only
  split
  · split
    · rfl
    · rfl
  · split
    · rfl
    · split
      · exact sameButNotes_notePermute ..
      · split
        · split
          · exact sameButNotes_countSolve ..
          · rfl
        · rfl

theorem sameButReports_releaseFence (s : State) (iss : Issuer) : sameButReports s (s.releaseFence iss) := by
  unfold State.releaseFence
  split
  · dsimp only
    split
    · rfl
    · rfl
  · rfl

theorem sameButReports_endAbort (s : State) (iss : Issuer) : sameButReports s (s.endAbort iss) := by
  unfold State.endAbort
  split
  · dsimp only
    split
    · rfl
    · rfl
  · rfl

theorem sameButDomains.toReports {s t : State} (h : sameButDomains s t) : sameButReports s t := by
  unfold sameButReports
  rw [h]

/-- The end of a FENCE moves its core on; it keeps its first status, and every counter stays. -/
theorem releaseFence_core (s : State) (k : Nat) :
    (((s.releaseFence (.core k)).core k).firstStatus = (s.core k).firstStatus) ∧ ∀ n c, (s.releaseFence (.core k)).counter n c = s.counter n c := by
  unfold State.releaseFence
  dsimp only
  split
  · refine ⟨?_, fun n c => counter_setCore ..⟩
    rw [core_setCore_same]
    rfl
  · exact ⟨rfl, fun _ _ => rfl⟩

/-- The end of an abort posts nothing. -/
theorem endAbort_hif (s : State) (q : Nat) : (s.endAbort (.host q)).hif = s.hif := by
  unfold State.endAbort
  dsimp only
  split
  · rfl
  · rfl

/-- The state in which a descriptor that ends reports to its issuer: it has left its queue. -/
def State.leaving (s : State) (d : Desc) (st : Nat) (r : Word) : State :=
  ((s.completionEffects d st r).touch (s.needs d)).dropDesc d.id

theorem sameButNotes.trans {s t u : State} (h : sameButNotes s t) (g : sameButNotes t u) : sameButNotes s u := by
  unfold sameButNotes at *
  rw [g, h]

theorem sameButDomains.toNotes {s t : State} (h : sameButDomains s t) : sameButNotes s t := by
  unfold sameButNotes
  rw [h]

/-- Before it leaves, a descriptor that ends notes its end at its unit and starts the idle timers of what it used. -/
theorem sameButNotes_leaving (s : State) (d : Desc) (st : Nat) (r : Word) :
    sameButNotes s ((s.completionEffects d st r).touch (s.needs d)) :=
  (sameButNotes_completionEffects s d st r).trans (sameButDomains_touch ..).toNotes

theorem exec_descriptorCompletion_of_done {s : State} {d : Desc} {st fl : Nat} {r : Word} (hw : d.work = .done st fl r) (hr : d.retry = [])
    (hd : s.desc? d.id = some d) : exec (.descriptorCompletion d.id) s = .next (s.finish d st fl r) := by
  simp [execDescriptorCompletion, hd, hw, hr, event]

/-- The state of a completion before what may then run does. -/
def State.reported (s : State) (d : Desc) (st fl : Nat) (r : Word) : State :=
  ((((s.leaving d st r).complete d.iss d.ctr d.bytes st fl r d.woke d.sqHead).releaseFence d.iss).endAbort d.iss).settleForces

theorem finish_eq (s : State) (d : Desc) (st fl : Nat) (r : Word) :
    s.finish d st fl r = (s.reported d (if st = stOK ∧ d.dropped then stBANK_CONFLICT else st) fl r).advance := rfl

theorem core_of_clusters {s t : State} (h : t.clusters = s.clusters) (k : Nat) : t.core k = s.core k := by
  unfold State.core State.cluster
  rw [h]

theorem counter_of_clusters {s t : State} (h : t.clusters = s.clusters) (n c : Nat) : t.counter n c = s.counter n c := by
  unfold State.counter State.cluster
  rw [h]

theorem sameButDomains.clusters {s t : State} (h : sameButDomains s t) : t.clusters = s.clusters := by rw [h]

section
variable (s : State) (d : Desc) (st fl : Nat) (r : Word)

theorem leaving_clusters : (s.leaving d st r).clusters = s.clusters := by
  unfold State.leaving State.dropDesc
  rw [sameButNotes_leaving]

/-- What the completion of a core's descriptor shows at the core and its counters. -/
theorem reported_core {k : Nat} (hd : d.iss = .core k) :
    ((s.reported d st fl r).core k).firstStatus = (if (s.core k).firstStatus = 0 then st else (s.core k).firstStatus) ∧
      ∀ n c, (s.reported d st fl r).counter n c = if n = k / 16 ∧ d.ctr = some c then s.counter n c + 1 else s.counter n c := by
  obtain ⟨hstatus, hcounter⟩ := complete_core (s.leaving d st r) k d.ctr d.bytes st fl r d.woke d.sqHead
  obtain ⟨fstatus, fcounter⟩ := releaseFence_core ((s.leaving d st r).complete (.core k) d.ctr d.bytes st fl r d.woke d.sqHead) k
  have settled := (sameButDomains_settleForces ((((s.leaving d st r).complete (.core k) d.ctr d.bytes st fl r d.woke d.sqHead).releaseFence
    (.core k)).endAbort (.core k))).clusters
  unfold State.reported
  rw [hd]
  refine ⟨?_, fun n c => ?_⟩
  · rw [core_of_clusters settled, ← core_of_clusters (leaving_clusters s d st r), ← hstatus]
    exact fstatus
  · rw [counter_of_clusters settled, ← counter_of_clusters (leaving_clusters s d st r), ← hcounter]
    exact fcounter n c

/-- What the completion of a queue's descriptor posts at its ring, outside D3hot. -/
theorem reported_host {q : Nat} (hd : d.iss = .host q) (hd3 : s.hif.d3hot = false) :
    ∃ x : Record, x.status = st ∧ x.flags = fl ∧ x.result = r ∧ x.sq = q ∧ x.woke = d.woke ∧ x.tag = dTag d.bytes ∧ x.timestamp = s.tick ∧
      (s.reported d st fl r).hif.posted =
        let c := s.cqs.get {} (s.sqs.get {} q).cq
        if c.enable then s.hif.posted ++ x.writes c else s.hif.posted := by
  have hl : s.leaving d st r = { s with
      engines := (s.leaving d st r).engines, domains := (s.leaving d st r).domains, grad := (s.leaving d st r).grad
      shard := (s.leaving d st r).shard, descs := (s.leaving d st r).descs } := by
    unfold State.leaving State.dropDesc
    rw [sameButNotes_leaving]
  obtain ⟨x, hstatus, hfl, hres, hsq, hwoke, htag, htime, hposted⟩ :=
    complete_host (s.leaving d st r) q d.ctr d.bytes st fl r d.woke d.sqHead (by rw [hl]; exact hd3)
  refine ⟨x, hstatus, hfl, hres, hsq, hwoke, htag, by rw [htime, hl], ?_⟩
  have settled := sameButDomains_settleForces ((((s.leaving d st r).complete (.host q) d.ctr d.bytes st fl r d.woke d.sqHead).releaseFence
    (.host q)).endAbort (.host q))
  unfold State.reported
  rw [hd, settled, endAbort_hif]
  refine hposted.trans ?_
  rw [hl]

theorem sameButReports_reported : sameButReports s (s.reported d st fl r) := by
  have left : sameButReports s (s.leaving d st r) :=
    (sameButNotes_leaving s d st r).toReports.trans (u := s.leaving d st r) rfl
  exact (((left.trans (sameButReports_complete ..)).trans (sameButReports_releaseFence _ d.iss)).trans (sameButReports_endAbort _ d.iss)).trans
    (sameButDomains_settleForces _).toReports

theorem releaseFence_descs (iss : Issuer) : (s.releaseFence iss).descs = s.descs := by
  unfold State.releaseFence
  split
  · dsimp only
    split
    · rfl
    · rfl
  · rfl

theorem endAbort_descs (iss : Issuer) : (s.endAbort iss).descs = s.descs := by
  unfold State.endAbort
  split
  · dsimp only
    split
    · rfl
    · rfl
  · rfl

theorem reported_descs (hd : s.descs = [d]) : (s.reported d st fl r).descs = [] := by
  have hl : ((s.completionEffects d st r).touch (s.needs d)).descs = [d] := by rw [sameButNotes_leaving, hd]
  unfold State.reported
  rw [(sameButDomains_settleForces _).descs, endAbort_descs, releaseFence_descs, complete_descs]
  simp [State.leaving, State.dropDesc, hl]

end

theorem sameButSends.clusters {s t : State} (h : sameButSends s t) : t.clusters = s.clusters := by rw [h]

theorem sameButSends.sameBytes {s t : State} (h : sameButSends s t) : sameBytes s t := by
  rw [h]
  exact fun _ => rfl

theorem sameButReports.partnerLost {s t : State} (h : sameButReports s t) (node : Nat) : t.partnerLost node = s.partnerLost node := by
  rw [h]
  rfl

/-- Settles O14: the completion reports to its issuer, and nothing then runs that reaches the report or memory. -/
theorem descriptorsComplete : Obligations.DescriptorsComplete := by
  unfold Obligations.DescriptorsComplete
  intro s d st fl r code hw hr
  refine ⟨exec_descriptorCompletion_of_done hw hr, fun hd => ?_⟩
  have hfound : s.desc? d.id = some d := by simp [State.desc?, hd]
  have left := reported_descs s d code fl r hd
  have after := sameButSends_advance left
  have reports := sameButReports_reported s d code fl r
  refine ⟨_, exec_descriptorCompletion_of_done hw hr hfound, ?_, fun x => ?_, fun hp => ?_, ?_⟩
  · rw [finish_eq]
    exact after.descs.trans left
  · rw [finish_eq]
    exact (after.sameBytes x).trans (reports.sameBytes x)
  · rw [finish_eq]
    have hnone : ∀ x ∈ (s.reported d code fl r).txns, x.queued = true → (s.reported d code fl r).partnerLost x.dst = false := by
      intro x hx hq
      rw [reports.partnerLost]
      exact hp x (reports.txns ▸ hx) hq
    rw [advance_of_no_descs left, failNew_of_partners hnone]
    exact reports.txns
  · rw [finish_eq]
    cases hi : d.iss with
    | core k =>
      obtain ⟨hstatus, hcounter⟩ := reported_core s d code fl r hi
      exact ⟨(congrArg Core.firstStatus (core_of_clusters after.clusters k)).trans hstatus,
        fun n c => (counter_of_clusters after.clusters n c).trans (hcounter n c)⟩
    | host q =>
      intro hd3
      obtain ⟨x, hstatus, hfl, hres, hsq, hwoke, htag, htime, hposted⟩ := reported_host s d code fl r hi hd3
      refine ⟨x, hstatus, hfl, hres, hsq, hwoke, htag, htime, ?_⟩
      rw [after]
      exact hposted

end Sys2Proof.Machine
end

section
/-! SUPPORT. MATMULs and the vector slices (R112 to R119, R136, R140): what starts, and where an interval of a MATMUL may write. -/

namespace Sys2Proof.Machine

/-! ### The slices -/

/-- What a descriptor that may start needs serves. -/
theorem needs_domOn {s : State} {d : Desc} (h : s.mayStart d = true) {x : Nat} (hx : x ∈ s.needs d) : s.domOn x = true := by
  simp only [State.mayStart, State.asleep, Bool.and_eq_true, List.isEmpty_iff, List.filter_eq_nil_iff] at h
  simpa using h.2 x hx

/-- A descriptor that reaches no stash needs no memory of one. -/
theorem stashDomains_of_not_stash {s : State} {d : Desc} (n : Nat) (w : Walk) (h : vIsStash d.bytes = false) : s.stashDomains d n w = [] := by
  have outside {lo hi : Nat} (hlo : 0x30 ≤ lo) (hhi : hi ≤ 0x33) : vOpIs d.bytes lo hi = false := by
    simp only [vIsStash, vOpIs, Bool.and_eq_false_iff, decide_eq_false_iff_not] at h ⊢
    exact h.imp_right fun h g => h ⟨hlo.trans g.1, g.2.trans hhi⟩
  have hput : vIsPut d.bytes = false := outside le_rfl (by decide)
  have hget : vIsGet d.bytes = false := outside (by decide) (by decide)
  have htake : vIsTake d.bytes = false := outside (by decide) (by decide)
  unfold State.stashDomains
  split
  · rfl
  · simp [hput, hget, htake]

/-- The head of a slice's queue needs the stash memory that it reaches. -/
theorem stashDomains_mem_needs {s : State} {d : Desc} {n : Nat} (hd : s.descs.find? (fun d => d.place == .slice n && d.work == .queued) = some d)
    {x : Nat} (hx : x ∈ s.stashDomains d n (Walk.ofBytes (s.readStore n (Ve.walk d.bytes) 64))) : x ∈ s.needs d := by
  have hplace : d.place = .slice n := by
    have := List.find?_some hd
    simp only [Bool.and_eq_true, beq_iff_eq] at this
    exact this.1
  cases hs : vIsStash d.bytes with
  | false => simp [stashDomains_of_not_stash n _ hs] at hx
  | true =>
    have ht : dType d.bytes = tyVECOP := by
      simp only [vIsStash, vOpIs, Bool.and_eq_true] at hs
      exact beq_iff_eq.1 hs.1
    have hneeds : s.memoryNeeds d = s.stashNeeds d := by
      simp only [State.memoryNeeds, ht]
      rfl
    rw [State.needs, hneeds, State.stashNeeds, hplace]
    simp only [hs, if_true, hd, Option.map_some, BEq.rfl, Bool.not_true, Bool.and_false, Bool.false_eq_true, if_false, List.mem_append]
    exact .inr (.inr hx)

/-! ### Where a contribution writes -/

/-- Byte `x` lies outside the ranges `rs` of the store of cluster `n`. -/
def clearOf (n : Nat) (rs : List (Nat × Nat)) (x : Nat) : Prop := ∀ g ∈ rs, x < storeBase n + g.1 ∨ storeBase n + g.1 + g.2 ≤ x

theorem read8_writeStore_clear {s : State} {n off x : Nat} {b : Bytes} (h : clearOf n [(off, b.length)] x) : (s.writeStore n off b).read8 x = s.read8 x :=
  sameBytesBut_writeBytes s _ b x (h _ (List.mem_singleton_self _))

theorem Acc.bytes_length (a : Acc) : a.bytes.length = 96 := by
  simp only [Acc.bytes, List.length_append, leBytes_length]

theorem putFp32_read8 {s : State} {n off x : Nat} (v : Nat) (add : Bool) (h : clearOf n [(off, 4)] x) : (putFp32 s n off v add).1.read8 x = s.read8 x := by
  unfold putFp32
  dsimp only
  split
  · exact read8_writeStore_clear (by rwa [leBytes_length])
  · exact read8_writeStore_clear (by rwa [leBytes_length])

theorem putCell_read8 {s t : State} {n off x : Nat} {a : Acc} {add : Bool} (h : clearOf n [(off, 96)] x) (ht : putCell s n off a add = some t) :
    t.read8 x = s.read8 x := by
  unfold putCell at ht
  split at ht
  · split at ht
    · cases ht
      exact read8_writeStore_clear (by rwa [Acc.bytes_length])
    · cases ht
  · cases ht
    exact read8_writeStore_clear (by rwa [Acc.bytes_length])

/-- A check that passes has not failed at its first step. -/
theorem check_step {c : Prop} [Decidable c] {bad st ok : Nat} (h : (if c then bad else st) = ok) (hbad : bad ≠ ok) : ¬c ∧ st = ok := by
  split at h
  · exact absurd h hbad
  · exact ⟨‹_›, h⟩

/-- The facts of a checked MATMUL that bound its writes: at most 32 rows and columns, and an output width that its target's format has. -/
theorem matmulCheck_bounds {b : Bytes} {nu : Numerics} (h : matmulCheck b nu = stOK) :
    Mm.m b ≤ 32 ∧ Mm.n b ≤ 32 ∧ (Mm.outFmt b = 1 → (mmCfg b nu).mode = 0) ∧ (Mm.outFmt b = 2 → (mmCfg b nu).mode = 2) := by
  unfold matmulCheck at h
  obtain ⟨hfields, h⟩ := check_step h (by decide)
  obtain ⟨-, h⟩ := check_step h (by decide)
  obtain ⟨-, h⟩ := check_step h (by decide)
  obtain ⟨-, h⟩ := check_step h (by decide)
  obtain ⟨-, h⟩ := check_step h (by decide)
  obtain ⟨hbf, h⟩ := check_step h (by decide)
  obtain ⟨hcell, -⟩ := check_step h (by decide)
  simp only [Bool.not_eq_true, Bool.not_eq_false', Bool.and_eq_true, decide_eq_true_eq] at hfields
  refine ⟨?_, ?_, fun h1 => ?_, fun h2 => ?_⟩
  · omega
  · omega
  · exact (not_not.1 fun hn => hbf ⟨h1, hn⟩).1
  · exact not_not.1 fun hn => hcell ⟨h2, hn⟩

section
variable {b : Bytes} {c : MatCfg} {n x : Nat} (hx : clearOf n (mmC b ++ mmS b c) x)
include hx

/-- An element of C lies in its row. -/
theorem clearOf_element {m col : Nat} (hm : m < Mm.m b) (hcol : col < Mm.n b) :
    clearOf n [(Mm.cOff b + m * Mm.cStride b + col * outWidth (Mm.outFmt b), outWidth (Mm.outFmt b))] x := by
  have hrow := hx (Mm.cOff b + m * Mm.cStride b, Mm.n b * outWidth (Mm.outFmt b))
    (List.mem_append_left _ (List.mem_map.2 ⟨m, List.mem_range.2 hm, rfl⟩))
  have hin : col * outWidth (Mm.outFmt b) + outWidth (Mm.outFmt b) ≤ Mm.n b * outWidth (Mm.outFmt b) := by
    rw [← Nat.succ_mul]
    exact Nat.mul_le_mul_right _ hcol
  intro g hg
  rw [List.mem_singleton] at hg
  subst hg
  dsimp only at *
  omega

/-- A scratch cell lies in the scratch area. -/
theorem clearOf_cell {m col : Nat} (hs : mmScratch b c = true) (hm : m < 32) (hcol : col < 32) : clearOf n [(Mm.scratch b + (32 * m + col) * 96, 96)] x := by
  have harea := hx (Mm.scratch b, 1024 * 96) (List.mem_append_right _ (by simp [mmS, hs]))
  intro g hg
  rw [List.mem_singleton] at hg
  subst hg
  dsimp only at *
  omega

/-- A partial enters its own element of C, or its own scratch cell, and leaves every other byte. -/
theorem mmPut_read8 (s : State) {j m col : Nat} (v : Nat) (hm : m < Mm.m b) (hcol : col < Mm.n b) (hm32 : Mm.m b ≤ 32) (hn32 : Mm.n b ≤ 32)
    (hbf : Mm.outFmt b = 1 → c.mode = 0) (hcell : Mm.outFmt b = 2 → c.mode = 2) : (mmPut b c n j m col v s).1.read8 x = s.read8 x := by
  have helem := clearOf_element hx hm hcol
  have width {w : Nat} (hw : outWidth (Mm.outFmt b) = w) : clearOf n [(Mm.cOff b + m * Mm.cStride b + col * outWidth (Mm.outFmt b), w)] x := by
    subst hw
    exact helem
  have word (hne1 : Mm.outFmt b ≠ 1) (hne2 : Mm.outFmt b ≠ 2) : clearOf n [(Mm.cOff b + m * Mm.cStride b + col * outWidth (Mm.outFmt b), 4)] x := by
    exact width (by simp [outWidth, hne1, hne2])
  unfold mmPut
  dsimp only
  split
  · rename_i hint
    refine read8_writeStore_clear ?_
    rw [leBytes_length]
    exact word (fun h => by simp [hbf h] at hint) (fun h => by simp [hcell h] at hint)
  · split
    · rename_i hexact
      have hne1 : Mm.outFmt b ≠ 1 := fun h => by simp [hbf h] at hexact
      split
      · rename_i h2
        split
        · exact putCell_read8 (width (by simp [h2, outWidth])) ‹_›
        · rfl
      · rename_i hne2
        split
        · rename_i hscratch
          have hspill := clearOf_cell hx hscratch (hm.trans_le hm32) (hcol.trans_le hn32)
          split
          · rfl
          · rename_i t ht
            split
            · exact putCell_read8 hspill ht
            · split
              · exact putCell_read8 hspill ht
              · exact (putFp32_read8 _ _ (word hne1 hne2)).trans (putCell_read8 hspill ht)
        · exact putFp32_read8 _ _ (word hne1 hne2)
    · rename_i hmode
      split
      · rename_i h1
        refine read8_writeStore_clear ?_
        rw [leBytes_length]
        exact width (by simp [h1, outWidth])
      · rename_i hne1
        exact putFp32_read8 _ _ (word hne1 fun h => hmode (hcell h))

end

theorem mmRows_lt {b : Bytes} {c : MatCfg} {q m : Nat} (h : m ∈ mmRows b c q) : m < Mm.m b := by
  unfold mmRows at h
  split at h
  · obtain ⟨r, hr, rfl⟩ := List.mem_map.1 h
    rw [List.mem_range] at hr
    omega
  · exact List.mem_range.1 h

theorem mmElements_lt {b : Bytes} {c : MatCfg} {i : Nat} {e : Nat × Nat} (h : e ∈ mmElements b c i) : e.1 < Mm.m b ∧ e.2 < Mm.n b := by
  obtain ⟨m, hm, he⟩ := List.mem_flatMap.1 h
  obtain ⟨col, hcol, rfl⟩ := List.mem_map.1 he
  exact ⟨mmRows_lt hm, List.mem_range.1 hcol⟩

/-- A contribution writes nothing outside C and the scratch cells. -/
theorem mmContribution_read8 {d : Desc} {n x : Nat} (s : State) (i : Nat) (hcheck : matmulCheck d.bytes d.num = stOK)
    (hx : clearOf n (mmC d.bytes ++ mmS d.bytes (mmCfg d.bytes d.num)) x) :
    (mmContribution d.bytes (mmCfg d.bytes d.num) n i s).1.read8 x = s.read8 x := by
  obtain ⟨hm32, hn32, hbf, hcell⟩ := matmulCheck_bounds hcheck
  unfold mmContribution mmContribute
  refine List.foldlRecOn (motive := fun (a : State × Nat × Bool) => a.1.read8 x = s.read8 x) _ _ rfl fun a ha e he => ?_
  obtain ⟨hm, hcol⟩ := mmElements_lt (List.of_mem_zip he).1
  exact (mmPut_read8 hx _ _ hm hcol hm32 hn32 hbf hcell).trans ha

/-! ### The commands of the arrays -/

theorem execVectorDescriptorStart_eq {s : State} {n : Nat} {d : Desc} (cycle : Nat) (delays : List Nat) (hn : clusterOk n = true)
    (hd : s.descs.find? (fun d => d.place == .slice n && d.work == .queued) = some d) :
    exec (.vectorDescriptorStart n cycle delays) s = .next (
      if s.mayStart d then (s.meetErrors d).underMap d.map fun u => u.runVector d n cycle delays
      else if s.orderOk d && !s.behind d then
        (s.updDesc d.id fun x => { x with woke := x.woke || (s.asleep (s.needs d)).any (· < 58) }).wakeAll (s.asleep (s.needs d))
      else s) := by
  simp only [exec_vectorDescriptorStart, execVectorDescriptorStart, guarded, hn, if_true, State.startVector, hd]

theorem exec_matmulStart_of_startable {s : State} {n : Nat} (hn : clusterOk n = true) :
    (∀ d, s.startable n = some (.inl d) → exec (.matmulStart n) s = .next ((s.meetErrors d).setWork d.id (.mat 0 0 false [])).sendAllTiles) ∧
    ∀ o, s.startable n = some (.inr o) → exec (.matmulStart n) s =
      .next (s.updOffload n Offload.queued fun o => { o with left := some o.intervals }).sendAllTiles := by
  refine ⟨fun d h => ?_, fun o h => ?_⟩
  · simp only [exec_matmulStart, execMatmulStart, guarded, hn, if_true, h]
  · simp only [exec_matmulStart, execMatmulStart, guarded, hn, if_true, h]

theorem exec_matmulIntervalEnd_of_first {s : State} {n : Nat} {d : Desc} (busy : Nat) (hn : clusterOk n = true)
    (hd : s.firstOf n Desc.inProducts Offload.inProducts = some (.inl d)) (hw : s.writingBack n = false) :
    exec (.matmulIntervalEnd n busy) s = .next (s.intervalEnd n d busy) := by
  simp only [exec_matmulIntervalEnd, execMatmulIntervalEnd, guarded, hn, if_true, hd, hw, Bool.false_eq_true, if_false]

theorem countedWork_read8 (s : State) (n prod busy id : Nat) (w : Work) (x : Nat) :
    ((s.countArray n prod busy).setWork id w).read8 x = s.read8 x := rfl

/-- Settles O15: each command does what the head of its queue may do; an interval writes where its MATMUL's ranges say. -/
theorem arraysAndSlicesRun : Obligations.ArraysAndSlicesRun := by
  unfold Obligations.ArraysAndSlicesRun
  refine ⟨fun s n cycle delays d hn hd => ?_, fun s n busy d hn => ?_⟩
  · have hrun := execVectorDescriptorStart_eq cycle delays hn hd
    refine ⟨fun h => ⟨fun x hx => needs_domOn h (stashDomains_mem_needs hd hx), ?_⟩, fun h hno => ?_, fun h ho hb => ?_⟩
    · rw [hrun, if_pos h]
    · have hidle : (s.orderOk d && !s.behind d) = false := by
        rcases hno with h' | h'
        · simp [h']
        · simp [h']
      rw [hrun, h, hidle]
      rfl
    · rw [hrun, h, ho, hb]
      rfl
  · obtain ⟨hdesc, hoff⟩ := exec_matmulStart_of_startable (s := s) hn
    refine ⟨hdesc d, hoff, fun k fl dm ps hd hw hback => ?_, fun hd => ?_, fun o hd => ?_⟩
    · have hrun := exec_matmulIntervalEnd_of_first busy hn hd hback
      simp only [State.intervalEnd, hw] at hrun
      refine ⟨fun hk => ?_, fun hk hcheck => ?_⟩
      · rw [hrun, if_neg (by omega)]
      · rw [if_pos hk] at hrun
        exact ⟨_, hrun, rfl, fun x hx => (countedWork_read8 ..).trans (mmContribution_read8 s k hcheck hx)⟩
    · simp only [exec_matmulWritebackEnd, execMatmulWritebackEnd, guarded, hn, if_true, hd]
    · simp only [exec_matmulWritebackEnd, execMatmulWritebackEnd, guarded, hn, if_true, hd]

end Sys2Proof.Machine
end

section
/-! SUPPORT. Fields of byte strings, and flits and packets that read back from their bytes (R273, R277, R280, Tables 13.1, 13.3, 13.4, 13.6). -/

namespace Sys2Proof.Machine

/-! ### Fields of a byte string -/

theorem leNat_leBytes (n v : Nat) : leNat (leBytes n v) = v % 256 ^ n := by
  induction n generalizing v with
  | zero => simp [leBytes, leNat, Nat.mod_one]
  | succ n ih =>
    have hbyte : (BitVec.ofNat 8 v).toNat = v % 256 := BitVec.toNat_ofNat ..
    rw [leBytes, leNat, ih, hbyte, pow_succ', Nat.mod_mul]

theorem leNat_leBytes_of_lt {n v : Nat} (h : v < 256 ^ n) : leNat (leBytes n v) = v := by
  rw [leNat_leBytes, Nat.mod_eq_of_lt h]

theorem field_all {b : Bytes} {n : Nat} (h : b.length = n) : field b 0 n = leNat b := by
  rw [field, List.drop_zero, List.take_of_length_le h.le]

/-- The first field of a string of fields. -/
theorem field_head {a : Bytes} {n : Nat} (r : Bytes) (h : a.length = n) : field (a ++ r) 0 n = leNat a := by
  rw [field, List.drop_zero, ← h, List.take_left]

/-- A field behind the first one. -/
theorem field_skip {a : Bytes} {n off : Nat} (len : Nat) (r : Bytes) (h : a.length = n) (hoff : n ≤ off) :
    field (a ++ r) off len = field r (off - n) len := by
  rw [field, field, List.drop_append, h, List.drop_eq_nil_of_le (h ▸ hoff), List.nil_append]

/-- A field that lies within the front of a string. -/
theorem field_append_left {a : Bytes} {off len : Nat} (r : Bytes) (h : off + len ≤ a.length) : field (a ++ r) off len = field a off len := by
  rw [field, field, List.drop_append_of_le_length (by omega), List.take_append_of_le_length (by rw [List.length_drop]; omega)]

theorem slice_all {b : Bytes} {n : Nat} (h : b.length = n) : slice b 0 n = b := by
  simp [slice, List.take_of_length_le, h]

theorem slice_length (b : Bytes) (off len : Nat) : (slice b off len).length = len := by
  simp only [slice, List.length_append, List.length_replicate, List.length_take, List.length_drop]
  omega

/-! ### The CRC of a flit -/

theorem crcMsbStep_lt {w poly : Nat} (hp : poly < 2 ^ w) (k : Nat) {c : Nat} (hc : c < 2 ^ w) : crcMsbStep w poly k c < 2 ^ w := by
  induction k generalizing c with
  | zero => exact hc
  | succ k ih =>
    have hshift : 2 * c % 2 ^ w < 2 ^ w := Nat.mod_lt _ (by positivity)
    rw [crcMsbStep]
    split
    · exact ih (Nat.xor_lt_two_pow hshift hp)
    · exact ih hshift

theorem crc24_lt (b : Bytes) : crc24 b < 2 ^ 24 := by
  unfold crc24
  refine List.foldlRecOn (motive := fun c => c < 2 ^ 24) _ _ (by decide) fun c hc x _ => crcMsbStep_lt (by decide) 8 (Nat.xor_lt_two_pow hc ?_)
  have := x.isLt
  omega

/-- The bytes of a flit before its CRC. -/
theorem mkFlit_eq {hdr : Nat} {p : Bytes} (h : p.length = 58) :
    mkFlit hdr p = leBytes 3 hdr ++ (p ++ (leBytes 3 (crc24 (leBytes 3 hdr ++ p))).reverse) := by
  rw [mkFlit, slice_all h, List.append_assoc]

theorem mkFlit_length {hdr : Nat} {p : Bytes} (h : p.length = 58) : (mkFlit hdr p).length = 64 := by
  simp only [mkFlit_eq h, List.length_append, leBytes_length, List.length_reverse, h]

theorem flitCrcOk_mkFlit {hdr : Nat} {p : Bytes} (h : p.length = 58) : flitCrcOk (mkFlit hdr p) = true := by
  have hfront : (leBytes 3 hdr ++ p).length = 61 := by simp only [List.length_append, leBytes_length, h]
  have htake : (mkFlit hdr p).take 61 = leBytes 3 hdr ++ p := by
    rw [mkFlit_eq h, ← List.append_assoc, ← hfront, List.take_left]
  have hlt := crc24_lt (leBytes 3 hdr ++ p)
  have hbytes (i : Nat) (hi : 61 ≤ i) : field (mkFlit hdr p) i 1 = field (leBytes 3 (crc24 (leBytes 3 hdr ++ p))).reverse (i - 61) 1 := by
    rw [mkFlit_eq h, ← List.append_assoc, field_skip 1 _ hfront hi]
  unfold flitCrcOk
  rw [htake, hbytes 61 (by decide), hbytes 62 (by decide), hbytes 63 (by decide)]
  generalize crc24 (leBytes 3 hdr ++ p) = c at hlt
  simp only [leBytes, field, List.reverse_cons, List.reverse_nil, List.nil_append, List.cons_append, List.drop_succ_cons, List.drop_zero,
    List.take_succ_cons, List.take_zero, leNat, beq_iff_eq, BitVec.toNat_ofNat, Nat.reduceSub]
  omega

theorem header_mkFlit {hdr : Nat} {p : Bytes} (h : p.length = 58) (hlt : hdr < 2 ^ 24) : field (mkFlit hdr p) 0 3 = hdr := by
  rw [mkFlit_eq h, field_head _ (leBytes_length 3 hdr), leNat_leBytes_of_lt hlt]

theorem payload_mkFlit {hdr : Nat} {p : Bytes} (h : p.length = 58) : ((mkFlit hdr p).drop 3).take 58 = p := by
  have h3 := leBytes_length 3 hdr
  rw [mkFlit_eq h, List.drop_append, List.drop_eq_nil_of_le h3.le, h3, Nat.sub_self, List.drop_zero, List.nil_append, ← h, List.take_left]

/-! ### Data flits -/

/-- The header of a data flit (Table 13.1). -/
def Flit.header (f : Flit) : Nat := f.vc * 2 ^ 2 + f.cls % 2 * 2 ^ 4 + b2n f.head * 2 ^ 5 + b2n f.tail * 2 ^ 6 + f.seq % 65536 * 2 ^ 7

theorem b2n_le_one (b : Bool) : b2n b ≤ 1 := by cases b <;> decide

theorem decide_b2n (b : Bool) : decide (b2n b = 1) = b := by cases b <;> rfl

/-- A data flit reads back from its bytes. -/
theorem dataFlit_readsBack {f : Flit} (hf : f.wf = true) : f.bytes.length = 64 ∧ flitCrcOk f.bytes = true ∧ flKind f.bytes = 0 ∧
    flVc f.bytes = f.vc ∧ flClass f.bytes = f.cls ∧ flHead f.bytes = f.head ∧ flTail f.bytes = f.tail ∧ flSeq f.bytes = f.seq ∧
    (f.bytes.drop 3).take 58 = f.payload := by
  simp only [Flit.wf, Bool.and_eq_true, decide_eq_true_eq, beq_iff_eq] at hf
  obtain ⟨⟨⟨hvc, hcls⟩, hseq⟩, hp⟩ := hf
  have hhead := b2n_le_one f.head
  have htail := b2n_le_one f.tail
  have hhdr : field f.bytes 0 3 = f.header := header_mkFlit hp (by omega)
  refine ⟨mkFlit_length hp, flitCrcOk_mkFlit hp, ?_, ?_, ?_, ?_, ?_, ?_, payload_mkFlit hp⟩
  · rw [flKind, hhdr, bits, Nat.shiftRight_eq_div_pow, Flit.header]
    omega
  · rw [flVc, hhdr, bits, Nat.shiftRight_eq_div_pow, Flit.header]
    omega
  · rw [flClass, hhdr, bits, Nat.shiftRight_eq_div_pow, Flit.header]
    omega
  · have hbit : f.header / 2 ^ 5 % 2 = b2n f.head := by
      rw [Flit.header]
      omega
    rw [flHead, hhdr, bit, Nat.testBit_eq_decide_div_mod_eq, hbit, decide_b2n]
  · have hbit : f.header / 2 ^ 6 % 2 = b2n f.tail := by
      rw [Flit.header]
      omega
    rw [flTail, hhdr, bit, Nat.testBit_eq_decide_div_mod_eq, hbit, decide_b2n]
  · rw [flSeq, hhdr, bits, Nat.shiftRight_eq_div_pow, Flit.header]
    omega

/-! ### Control flits -/

/-- A field of the word that stands first. -/
theorem field_leBytes {n v : Nat} (r : Bytes) (h : v < 256 ^ n) : field (leBytes n v ++ r) 0 n = v := by
  rw [field_head r (leBytes_length n v), leNat_leBytes_of_lt h]

/-- A field behind a word of `n` bytes. -/
theorem field_behind {n off : Nat} (v len : Nat) (r : Bytes) (h : n ≤ off) : field (leBytes n v ++ r) off len = field r (off - n) len :=
  field_skip len r (leBytes_length n v) h

/-- The words of a list, two bytes each, read back. -/
theorem field_words {l : List Nat} (r : Bytes) (hl : ∀ n ∈ l, n < 65536) {i : Nat} (h : i < l.length) :
    field ((l.map (leBytes 2)).flatten ++ r) (2 * i) 2 = l[i] := by
  induction l generalizing i with
  | nil => exact absurd h (Nat.not_lt_zero i)
  | cons v l ih =>
    rw [List.map_cons, List.flatten_cons, List.append_assoc]
    cases i with
    | zero => exact field_leBytes _ (hl v (List.mem_cons_self ..))
    | succ i =>
      have hoff : 2 * (i + 1) - 2 = 2 * i := by omega
      rw [field_behind _ _ _ (by omega), hoff]
      exact ih (fun n hn => hl n (List.mem_cons_of_mem _ hn)) (Nat.lt_of_succ_lt_succ h)

/-- The credit counts of a control flit as its payload holds them. -/
theorem credit_words {l : List Nat} (h : l.length = 7) : ((List.range 7).map fun i => leBytes 2 (l.getD i 0)) = l.map (leBytes 2) := by
  refine List.ext_getElem (by simp [h]) fun i h1 h2 => ?_
  have hi : i < l.length := by simpa using h2
  simp [List.getElem?_eq_getElem hi]

theorem words_length (l : List Nat) : (l.map (leBytes 2)).flatten.length = 2 * l.length := by
  induction l with
  | nil => rfl
  | cons v l ih =>
    rw [List.map_cons, List.flatten_cons, List.length_append, leBytes_length, ih, List.length_cons]
    omega

theorem ctlPayload_length {c : CtlFlit} (h : c.credit.length = 7) : c.payload.length = 58 := by
  simp only [CtlFlit.payload, credit_words h, List.length_append, leBytes_length, words_length, h]

/-- What a control flit's bytes hold behind their header: its payload, then the CRC. -/
theorem ctlBytes_drop {c : CtlFlit} (h : c.credit.length = 7) : ∃ crc : Bytes, c.bytes.drop 3 = c.payload ++ crc := by
  rw [CtlFlit.bytes, mkFlit_eq (ctlPayload_length h), List.drop_left' (leBytes_length 3 1)]
  exact ⟨_, rfl⟩

/-- The flags byte of a control flit. -/
theorem ctlFlags (a b : Bool) : (b2n a + 2 * b2n b).testBit 0 = a ∧ (b2n a + 2 * b2n b).testBit 1 = b := by
  cases a <;> cases b <;> decide

/-- A control flit reads back from its bytes. -/
theorem ctlFlit_readsBack {c : CtlFlit} (hc : c.wf = true) : CtlFlit.ofBytes c.bytes = c := by
  simp only [CtlFlit.wf, Bool.and_eq_true, decide_eq_true_eq, beq_iff_eq, List.all_eq_true] at hc
  obtain ⟨⟨⟨⟨⟨haction, harg0, harg1, hid, hack, hlanes, hnode, hpod⟩, htx, hecho, hrx, hport⟩, hnak⟩, hlen⟩, hcredit⟩ := hc
  obtain ⟨crc, hdrop⟩ := ctlBytes_drop hlen
  have hflags : b2n c.nak.isSome + 2 * b2n c.timeLocked < 256 := by
    have := b2n_le_one c.nak.isSome
    have := b2n_le_one c.timeLocked
    omega
  have hseq : c.nak.getD 0 < 65536 := by
    cases hn : c.nak with
    | none => decide
    | some q => simpa [hn] using hnak
  have hwords : (c.credit.map (leBytes 2)).flatten.length = 14 := by rw [words_length, hlen]
  have hbehind {off : Nat} (len : Nat) (r : Bytes) (h : 14 ≤ off) : field ((c.credit.map (leBytes 2)).flatten ++ r) off len = field r (off - 14) len :=
    field_skip len r hwords h
  have hcount (r : Bytes) : ((List.range 7).map fun i => field ((c.credit.map (leBytes 2)).flatten ++ r) (2 * i) 2) = c.credit := by
    refine List.ext_getElem (by simp [hlen]) fun i _ hi => ?_
    rw [List.getElem_map, List.getElem_range]
    exact field_words r hcredit hi
  unfold CtlFlit.ofBytes
  rw [hdrop, CtlFlit.payload, credit_words hlen]
  simp (disch := omega) only [List.append_assoc, field_behind, hbehind, field_leBytes, Nat.reduceSub]
  have hoff (i : Nat) : 16 + 2 * i - 1 - 1 - 1 - 1 - 2 - 2 - 1 - 1 - 2 - 4 = 2 * i := by omega
  obtain ⟨hsome, hlocked⟩ := ctlFlags c.nak.isSome c.timeLocked
  have hnone : (if c.nak.isSome then some (c.nak.getD 0) else none) = c.nak := by cases c.nak <;> rfl
  simp only [hoff, hcount, hsome, hlocked, hnone]

/-! ### Packets -/

/-- The first 16 header bytes of a packet (Table 13.4). -/
def pkFront (k : Packet) : Bytes :=
  leBytes 2 k.dst ++ (leBytes 2 k.src ++ (leBytes 1 k.kind ++ (leBytes 1 k.rflags ++ (leBytes 1 (pkFlits k) ++ (leBytes 1 0 ++
    (leBytes 4 k.epoch ++ leBytes 4 k.txn))))))

theorem pkFront_length (k : Packet) : (pkFront k).length = 16 := by
  simp only [pkFront, List.length_append, leBytes_length]

theorem pkFlits_holds (k : Packet) : 32 + k.data.length ≤ 58 * pkFlits k := by
  unfold pkFlits ceilDiv
  omega

/-- A packet on the line: its headers, its data, and the padding of its last flit. -/
theorem pkWire_eq {k : Packet} (h : k.hdr.length = 16) :
    pkWire k = pkFront k ++ (k.hdr ++ (k.data ++ List.replicate (58 * pkFlits k - (32 + k.data.length)) 0)) := by
  have hfits := pkFlits_holds k
  have hlen : (pkFront k ++ (k.hdr ++ k.data)).length = 32 + k.data.length := by
    rw [List.length_append, List.length_append, pkFront_length, h]
    omega
  have hraw : pkWire k = slice (pkFront k ++ (k.hdr ++ k.data)) 0 (58 * pkFlits k) := by
    rw [pkWire, slice_all h]
    simp only [pkFront, List.append_assoc]
  rw [hraw, slice, List.drop_zero, List.take_of_length_le (hlen ▸ hfits), hlen]
  simp only [List.append_assoc]

theorem pkWire_length (k : Packet) : (pkWire k).length = 58 * pkFlits k := slice_length ..

/-- What a packet's header says of its data leaves the padding out. -/
theorem data_take {k : Packet} (hk : onWire k = true) {pad : Bytes} (hpad : pad.length = 58 * pkFlits k - (32 + k.data.length)) :
    (k.data ++ pad).take (if k.kind = kREAD_REQ then 0
      else if k.kind = kREAD_RESP ∨ k.kind = kWRITE ∨ k.kind = kRACC ∨ k.kind = kSIGNAL ∨ k.kind = kDELTA ∨ k.kind = kACK then field k.hdr 8 2
      else (k.data ++ pad).length) = k.data := by
  simp only [onWire, Bool.and_eq_true] at hk
  obtain ⟨-, hdata⟩ := hk
  by_cases hreq : k.kind = kREAD_REQ
  · rw [if_pos hreq] at hdata ⊢
    rw [List.take_zero, List.isEmpty_iff.1 hdata]
  · rw [if_neg hreq] at hdata ⊢
    by_cases hmem : [kREAD_RESP, kWRITE, kRACC, kSIGNAL, kDELTA, kACK].contains k.kind = true
    · rw [if_pos hmem, beq_iff_eq] at hdata
      rw [if_pos (by simpa using hmem), ← hdata, List.take_left]
    · rw [if_neg hmem, beq_iff_eq] at hdata
      rw [if_neg (by simpa using hmem), List.take_length, List.append_right_eq_self, ← List.length_eq_zero_iff, hpad]
      unfold pkFlits ceilDiv
      omega

/-- A packet reads back from its bytes. -/
theorem packet_readsBack {k : Packet} (hk : onWire k = true) : pkOfWire k.cls (pkWire k) = k := by
  have hw := hk
  simp only [onWire, Bool.and_eq_true, decide_eq_true_eq, beq_iff_eq] at hw
  obtain ⟨⟨⟨hdst, hsrc, hkind, hrflags, hepoch, htxn⟩, hhdr⟩, -⟩ := hw
  have hfields (off len : Nat) (h : off + len ≤ 16) : field (pkWire k) off len = field (pkFront k) off len := by
    rw [pkWire_eq hhdr, field_append_left _ (by rwa [pkFront_length])]
  have hslice : slice (pkWire k) 16 16 = k.hdr := by
    rw [pkWire_eq hhdr, slice, List.drop_left' (pkFront_length k), List.take_left' hhdr, hhdr]
    exact List.append_nil _
  have hrest : (pkWire k).drop 32 = k.data ++ List.replicate (58 * pkFlits k - (32 + k.data.length)) 0 := by
    rw [pkWire_eq hhdr, ← List.append_assoc, List.drop_left' (by rw [List.length_append, pkFront_length, hhdr])]
  have hlast : field (leBytes 4 k.txn) 0 4 = k.txn := by rw [field_all (leBytes_length ..), leNat_leBytes_of_lt htxn]
  have hkind' : field (pkWire k) 4 1 = k.kind := by
    rw [hfields 4 1 (by decide), pkFront]
    simp (disch := omega) only [field_behind, field_leBytes, Nat.reduceSub]
  unfold pkOfWire
  simp only [hslice, hrest, hkind']
  rw [data_take hk (List.length_replicate ..), hfields 0 2 (by decide), hfields 2 2 (by decide), hfields 5 1 (by decide), hfields 8 4 (by decide),
    hfields 12 4 (by decide), pkFront]
  simp (disch := omega) only [field_behind, field_leBytes, Nat.reduceSub, hlast]

/-! ### The flits of a packet -/

/-- A string of `k` whole chunks is cut into them. -/
theorem chunkGo_whole {n : Nat} (hn : 0 < n) (k : Nat) {b : Bytes} (h : b.length = n * k) : (chunkGo n k b).length = k ∧ (chunkGo n k b).flatten = b := by
  induction k generalizing b with
  | zero => exact ⟨rfl, (List.length_eq_zero_iff.1 h).symm⟩
  | succ k ih =>
    have hne : b.isEmpty = false := by
      rw [List.isEmpty_eq_false_iff, ← List.length_pos_iff, h]
      positivity
    obtain ⟨hlen, hflat⟩ := ih (b := b.drop n) (by rw [List.length_drop, h, Nat.mul_succ, Nat.add_sub_cancel])
    rw [chunkGo, hne]
    refine ⟨congrArg (· + 1) hlen, ?_⟩
    simp only [Bool.false_eq_true, if_false, List.flatten_cons, hflat, List.take_append_drop]

theorem chunks_pkWire (k : Packet) : (chunks 58 (pkWire k)).length = pkFlits k ∧ (chunks 58 (pkWire k)).flatten = pkWire k := by
  have hcount : ceilDiv (pkWire k).length 58 = pkFlits k := by
    rw [pkWire_length]
    unfold ceilDiv
    omega
  rw [chunks, hcount]
  exact chunkGo_whole (by decide) _ (pkWire_length k)

/-- The payloads of a packet's flits are its bytes. -/
theorem pkToFlits_payloads (k : Packet) (cls seq : Nat) :
    ((pkToFlits k cls seq).map (·.payload)).flatten = pkWire k ∧ (pkToFlits k cls seq).length = pkFlits k := by
  obtain ⟨hlen, hflat⟩ := chunks_pkWire k
  have hpay : (pkToFlits k cls seq).map (·.payload) = chunks 58 (pkWire k) := by
    unfold pkToFlits
    rw [List.map_map]
    exact List.map_snd_zip (by rw [List.length_range, hlen])
  refine ⟨by rw [hpay, hflat], ?_⟩
  rw [← List.length_map (f := (·.payload)), hpay, hlen]

/-- Settles O47. -/
theorem flitsCarryPacketsWhole : Obligations.FlitsCarryPacketsWhole := by
  unfold Obligations.FlitsCarryPacketsWhole
  refine ⟨fun f hf => dataFlit_readsBack hf, fun c hc => ?_, fun k hk => ⟨packet_readsBack hk, pkWire_length k, pkToFlits_payloads k k.cls⟩⟩
  have hp : c.payload.length = 58 := by
    simp only [CtlFlit.wf, Bool.and_eq_true, beq_iff_eq] at hc
    exact ctlPayload_length hc.1.2
  have hkind : flKind c.bytes = 1 := by
    rw [flKind, CtlFlit.bytes, header_mkFlit hp (by decide)]
    rfl
  exact ⟨mkFlit_length hp, flitCrcOk_mkFlit hp, hkind, ctlFlit_readsBack hc⟩

end Sys2Proof.Machine
end

section
/-! SUPPORT. What a descriptor that finds nothing under way does as it is accepted (R161, R164, R165, R166). -/

namespace Sys2Proof.Machine

/-! ### A COPY that does not end -/

/-- A started module whose domains all serve. Nothing is accepted and no transaction is open, yet a read of a descriptor's source waits,
under the number that the next descriptor will have. -/
def strayRead : State :=
  { State.reset with
    up := true, mpRunning := true, startPhase := 4
    domains := (List.range 58).map fun d => (d, { domainDefault d with st := .on })
    hif := { waiting := [{ seq := 0, req := .task (.piece 0 0 0) [] }] } }

/-- A COPY of one row of 8 bytes inside the store of cluster 0, from core 0. -/
def shortCopy : Offer :=
  let w := 0x06 + 256 + 0x3FF * 2 ^ 24
  let g := fun a => leBytes 8 (0xFFFF * 2 ^ 48 + storeBase 0 + a)
  { iss := .core 0
    bytes := leBytes 8 w ++ leBytes 8 (2 ^ 64 - 1 - w) ++ g 0 ++ g 64 ++ leBytes 4 8 ++ leBytes 4 1 ++ leBytes 8 0 ++ leBytes 8 0 ++ leBytes 8 0 }

/-- The work of the descriptors that a command leaves. -/
def worksAfter (i : Instr) (s : State) : List Work := match exec i s with
  | .next t => t.descs.map fun d => d.work
  | _ => []

/-- Its COPY waits for that read, and is owed no completion. -/
theorem worksAfter_strayRead : worksAfter (.copy shortCopy) strayRead = [.remote 0 stOK 0 0] := by decide +kernel

/-- Refutes O12: nothing that the statement asks of the state keeps the host interface's queue from holding a read under the number of the
descriptor that is offered, and a descriptor that such a read names is not owed its completion. (No run of the model leaves one there.) -/
theorem not_copyMovesItsRows : ¬ Obligations.CopyMovesItsRows := by
  unfold Obligations.CopyMovesItsRows
  intro h
  obtain ⟨t, ht, -, -, d, hd, hw⟩ := h strayRead shortCopy (by decide +kernel) (by decide +kernel) rfl (by decide +kernel) (by decide +kernel)
    (by decide +kernel) (by decide +kernel)
  have hworks := worksAfter_strayRead
  simp [worksAfter, ht, hd, hw] at hworks


/-! ### A descriptor that runs at its issuer -/

/-- The only descriptor under way: queued at its issuer, the next number just given, no transaction open, nothing asleep that it needs. -/
structure AloneIn (t : State) (d : Desc) : Prop where
  descs : t.descs = [d]
  txns : t.txns = []
  next : d.id < t.nextId
  place : d.place = .issuer
  map : d.map = none
  work : d.work = .queued
  awake : t.asleep (t.needs d) = []

/-- The domains that a SIGNAL or FENCE needs: its core's, and that of the cluster of this module whose counter a SIGNAL reaches. -/
theorem needs_of_own {s : State} {d : Desc} (h : dType d.bytes = tySIGNAL ∨ dType d.bytes = tyFENCE) :
    s.needs d = d.unitDomain ++ if dType d.bytes = tySIGNAL ∧ s.isSelf (Sg.node d.bytes) = true then [dTarget d.bytes / 16] else [] := by
  obtain h | h := h <;> simp [State.needs, State.memoryNeeds, h, tyCOPY, tyRACC, tyGATHER, tyDROP, tyBCAST, tyPERMUTE, tySIGNAL, tyFENCE, tySOLVE,
    tyCURVGATHER, tyVECOP]

theorem noteGrant_issuer (s : State) (iss : Issuer) : s.noteGrant iss .issuer = s := by
  cases iss <;> rfl

theorem resolveTarget_of_own {iss : Issuer} {b : Bytes} (h : dType b = tySIGNAL ∨ dType b = tyFENCE) : resolveTarget iss b = b := by
  obtain h | h := h <;> simp [resolveTarget, h]

theorem placeOf_of_own {s : State} {iss : Issuer} {b : Bytes} (h : dType b = tySIGNAL ∨ dType b = tyFENCE) : s.placeOf iss b = .issuer := by
  obtain h | h := h <;> simp [State.placeOf, h, isVector, tyMATMUL, tyCURVGATHER, tyVECOP, tyCOMPRESS, tyEXPAND, tySOLVE, tyFENCE, tySIGNAL]

/-- A SIGNAL or FENCE that finds nothing under way is alone as it is accepted. -/
theorem accept_alone {s : State} {o : Offer} (hidle : s.idleFor1 o = true) (hty : dType o.bytes = tySIGNAL ∨ dType o.bytes = tyFENCE) :
    ∃ d : Desc, s.accept o (s.headOf o.iss) = { s with nextId := s.nextId + 1, descs := [d] } ∧ d.bytes = o.bytes ∧
      AloneIn { s with nextId := s.nextId + 1, descs := [d] } d := by
  simp only [State.idleFor1, Bool.and_eq_true, List.isEmpty_iff] at hidle
  obtain ⟨⟨hdescs, htxns⟩, hawake⟩ := hidle
  have hneeds (t : State) (d : Desc) (h : d.bytes = o.bytes) := needs_of_own (s := t) (d := d) (h.symm ▸ hty)
  unfold State.accept at hawake ⊢
  dsimp only at hawake ⊢
  simp only [resolveTarget_of_own hty, placeOf_of_own hty, noteGrant_issuer, (sameButWakes_wakeAll ..).descs, hdescs, List.nil_append,
    List.all_cons, List.all_nil, Bool.and_true, List.isEmpty_iff] at hawake ⊢
  rw [hneeds _ _ rfl] at hawake ⊢
  unfold Desc.unitDomain at hawake ⊢
  dsimp only at hawake ⊢
  rw [hawake]
  exact ⟨_, rfl, rfl, rfl, htxns, Nat.lt_succ_self _, rfl, rfl, rfl, (congrArg _ (hneeds _ _ rfl)).trans hawake⟩

/-- The queued descriptor that stands alone, and whose type lets it, runs, and then nothing else does. -/
theorem advance_alone {t u : State} {d : Desc} (h : AloneIn t d) (hready : t.typeReady d = true) (hrun : t.run d = u) (hend : u.txns = [])
    (hdone : ∀ x ∈ u.descs, x.work ≠ .queued) : t.advance = u := by
  have quiet (v : State) (hv : v.txns = []) : v.failNew = v := failNew_of_partners (by simp [hv])
  have hmay : t.mayStart d = true := by
    simp [State.mayStart, State.orderOk, State.behind, h.work, h.place, h.descs, h.awake]
  have hlast : u.descs.find? (fun d => decide (d.id < t.nextId) && u.mayStart d && u.typeReady d) = none := by
    rw [List.find?_eq_none]
    intro x hx
    simp [State.mayStart, hdone x hx]
  simp only [State.advance, State.advanceBefore, quiet t h.txns, h.descs, List.length_cons, List.length_nil, State.advanceGo, List.find?_cons,
    h.next, decide_true, hmay, hready, Bool.and_self, hrun, quiet u hend, hlast]

/-- Nothing differs but the number that the next descriptor will have, and the descriptors under way. -/
def sameButDescs (s t : State) : Prop := t = { s with nextId := t.nextId, descs := t.descs }

theorem sameButDescs.sameBytes {s t : State} (h : sameButDescs s t) : sameBytes s t := by
  rw [h]
  exact fun _ => rfl

theorem sameButDescs.counter {s t : State} (h : sameButDescs s t) (n c : Nat) : t.counter n c = s.counter n c := by
  rw [h]
  rfl

theorem sameButDescs.isSelf {s t : State} (h : sameButDescs s t) (n : Nat) : t.isSelf n = s.isSelf n := by
  rw [h]
  rfl

theorem sameButDescs.clusterPresent {s t : State} (h : sameButDescs s t) (n : Nat) : t.clusterPresent n = s.clusterPresent n := by
  rw [h]
  rfl

/-- What the acceptance of a SIGNAL or FENCE comes to when nothing is under way, where its effect is `e` and its end an owed completion. -/
theorem exec_alone {s : State} {o : Offer} {f : Nat} {e : Bool × Instr} {effect : State → State} (ht : s.takes o = true)
    (hidle : s.idleFor1 o = true) (hty : dType o.bytes = tySIGNAL ∨ dType o.bytes = tyFENCE) (he : e ∈ offerRows s o f) (hrow : e.1 = true)
    (heffect : ∀ t, (effect t).descs = t.descs ∧ (effect t).txns = t.txns)
    (hrun : ∀ (t : State) (d : Desc), AloneIn t d → d.bytes = o.bytes → sameButDescs s t →
      t.typeReady d = true ∧ t.run d = (effect t).setWork d.id (.done stOK 0 0)) :
    ∃ (t : State) (d : Desc), sameButDescs s t ∧ exec e.2 s = .next ((effect t).setWork d.id (.done stOK 0 0)) ∧
      ((effect t).setWork d.id (.done stOK 0 0)).descs = [{ d with work := .done stOK 0 0 }] := by
  obtain ⟨d, haccept, hbytes, halone⟩ := accept_alone hidle hty
  generalize haccepted : ({ s with nextId := s.nextId + 1, descs := [d] } : State) = t at haccept halone
  have hsame : sameButDescs s t := by rw [← haccepted]; rfl
  obtain ⟨hready, hran⟩ := hrun t d halone hbytes hsame
  have hdescs : ((effect t).setWork d.id (.done stOK 0 0)).descs = [{ d with work := .done stOK 0 0 }] := by
    simp [State.setWork, State.updDesc, (heffect t).1, halone.descs]
  refine ⟨t, d, hsame, ?_, hdescs⟩
  rw [exec_ownRow_of_offers (offers_of_takes ht) he hrow, offer_of_takes _ ht, haccept, Option.getD_some,
    advance_alone halone hready hran ((heffect t).2.trans halone.txns) (by rw [hdescs]; simp)]

/-- An issuer's own descriptor on a cluster that is present runs by its type. -/
theorem run_own {t : State} {d : Desc} (h : AloneIn t d) (hty : dType d.bytes = tySIGNAL ∨ dType d.bytes = tyFENCE) (hgone : t.unitGone d = false) :
    t.run d = t.runType d := by
  have hcoll : t.isCollective d.bytes = false := by
    obtain hty | hty := hty <;> simp [State.isCollective, State.isRing, hty, tySIGNAL, tyFENCE, tyGATE, tyBCAST, tyRACC]
  have hmeet : t.meetErrors d = t := by
    obtain hty | hty := hty <;> simp [State.meetErrors, State.readRanges, State.writeRanges, hty, isVector, tySIGNAL, tyFENCE, tyMATMUL,
      tyCURVGATHER, tyVECOP, tyCOMPRESS, tyEXPAND, tyCOPY, tyRACC, tyGATHER, tyDROP, tyBCAST, tyPERMUTE, tySOLVE]
  simp only [State.run, hgone, hcoll, hmeet, h.map, State.underMap, Bool.false_and, Bool.false_eq_true, if_false]

theorem clusterPresent_of_signalCheck {s : State} {b : Bytes} (h : s.signalCheck b = stOK) (hself : s.isSelf (Sg.node b) = true) :
    s.clusterPresent (dTarget b) = true := by
  unfold State.signalCheck at h
  split at h
  · exact absurd h (by decide)
  · split at h
    · exact absurd h (by decide)
    · simp_all

theorem issuerCheck_signal {s : State} {iss : Issuer} {b : Bytes} (hty : dType b = tySIGNAL) (h : s.issuerCheck iss b = stOK) :
    s.signalCheck b = stOK := by
  unfold State.issuerCheck at h
  dsimp only at h
  split at h
  · contradiction
  · simpa only [State.typeCheck, hty, tySIGNAL] using h

theorem runSignal_self {t : State} {d : Desc} (hty : dType d.bytes = tySIGNAL) (hself : t.isSelf (Sg.node d.bytes) = true) :
    t.runType d = (t.addCounter (dTarget d.bytes) (Sg.counter d.bytes) (BitVec.ofNat 32 (Sg.value d.bytes))).setWork d.id (.done stOK 0 0) := by
  simp only [State.runType, hty, tySIGNAL, State.runSignal, hself, if_true]

theorem runFence {t : State} {d : Desc} (hty : dType d.bytes = tyFENCE) : t.runType d = t.setWork d.id (.done stOK 0 0) := by
  simp only [State.runType, hty, tyFENCE]

/-- Settles O13: with nothing else under way a SIGNAL and a FENCE run as they are accepted. -/
theorem signalAddsAndFenceEnds : Obligations.SignalAddsAndFenceEnds := by
  unfold Obligations.SignalAddsAndFenceEnds
  intro s o b ht hidle
  have hcheck : s.issuerCheck o.iss o.bytes = stOK := by
    simp only [State.takes, Bool.and_eq_true, beq_iff_eq] at ht
    exact ht.1.1.1.2
  refine ⟨fun hty hself => ?_, fun hty => ?_⟩
  · have hpresent : s.clusterPresent (dTarget o.bytes) = true := clusterPresent_of_signalCheck (issuerCheck_signal hty hcheck) hself
    obtain ⟨t, d, hsame, hexec, hdescs⟩ := exec_alone (f := 0) (e := (dType b == tySIGNAL, .signal o))
      (effect := fun u => u.addCounter (dTarget b) (Sg.counter b) (BitVec.ofNat 32 (Sg.value b))) ht hidle (.inl hty) (by simp [offerRows, b])
      (by simp [hty]) (fun _ => ⟨rfl, rfl⟩) (fun t d halone hbytes hsame => by
        have hty' : dType d.bytes = tySIGNAL := hbytes ▸ hty
        have hgone : t.unitGone d = false := by simp [State.unitGone, halone.place, hbytes, hsame.clusterPresent, hpresent]
        refine ⟨?_, ?_⟩
        · simp [State.typeReady, hgone, hty', isVector, tySIGNAL, tyCURVGATHER, tyBCAST, tyPERMUTE, tyFENCE, tyMATMUL, tyVECOP, tyCOMPRESS,
            tyEXPAND, tySOLVE]
        · rw [run_own halone (.inl hty') hgone, runSignal_self hty' (by rw [hbytes, hsame.isSelf]; exact hself), hbytes])
    refine ⟨_, hexec, hsame.sameBytes, fun n c => ?_, _, hdescs, rfl⟩
    refine (counter_addCounter t _ _ n c _).trans ?_
    rw [hsame.counter]
  · obtain ⟨t, d, hsame, hexec, hdescs⟩ := exec_alone (f := 0) (e := (dType b == tyFENCE, .fence o)) (effect := id) ht hidle (.inr hty)
      (by simp [offerRows, b]) (by simp [hty]) (fun _ => ⟨rfl, rfl⟩) (fun t d halone hbytes _ => by
        have hty' : dType d.bytes = tyFENCE := hbytes ▸ hty
        have hgone : t.unitGone d = false := by simp [State.unitGone, halone.place, hty', tyFENCE, tySIGNAL]
        refine ⟨?_, ?_⟩
        · simp [State.typeReady, hgone, hty', State.fenceOpen, halone.descs, tyCURVGATHER, tyBCAST, tyPERMUTE, tyFENCE]
        · rw [run_own halone (.inr hty') hgone, runFence hty', id])
    exact ⟨_, hexec, hsame.sameBytes, hsame.counter, _, hdescs, rfl⟩

end Sys2Proof.Machine
end

section
/-! SUPPORT. Host queues (08): what writes of the registers of submission queues and completion rings do. -/

namespace Sys2Proof.Machine

/-- A write that the host interface takes acts as its register says. -/
theorem bar0_of_takes {s : State} (t : State) (h : s.barTakes = true) : s.bar0 t = t := by
  simp only [State.barTakes, Bool.and_eq_true, Bool.not_eq_true'] at h
  simp [State.bar0, h.1, h.2]

/-! ### Submission queues -/

/-- A started module whose PCIe domain serves and whose ring 0 is enabled; its queue 0 was disabled while a fetch of it waited for a wake. -/
def wokenQueue : State :=
  { State.reset with
    up := true, mpRunning := true, startPhase := 4
    domains := [(46, { domainDefault 46 with st := .on })]
    sqs := [(0, { waking := true })]
    cqs := [(0, { enable := true })] }

/-- Whether a queue waits for a wake after a command. -/
def wakingAfter (i : Instr) (s : State) (q : Nat) : Bool := match exec i s with
  | .next t => (t.sq q).waking
  | _ => false

/-- Refutes O20: ENABLE also ends a queue's wait for a wake, which the queue that the statement gives has kept. -/
theorem not_submissionQueues : ¬ Obligations.SubmissionQueues := by
  unfold Obligations.SubmissionQueues
  intro h
  obtain ⟨hstart, -⟩ := h.1 wokenQueue 0 { half := .both, v := 1 } (by decide +kernel) (by decide)
  obtain ⟨t, ht, hq, -⟩ := hstart (by decide +kernel) (by decide +kernel) (by decide +kernel) (by decide +kernel)
  have hwaking : wakingAfter (.sqEnable 0 { half := .both, v := 1 }) wokenQueue 0 = false := by decide +kernel
  simp only [wakingAfter, ht, hq] at hwaking
  exact absurd hwaking (by decide)

/-! ### Completion rings -/

theorem has_of_get? {w : Wr} {lo len v : Nat} (h : w.get? lo len = some v) : w.has lo len = true := by
  unfold Wr.get? at h
  split at h
  · assumption
  · contradiction

/-- Settles O21: what ENABLE and HEAD of a ring do. -/
theorem completionRings : Obligations.CompletionRings := by
  unfold Obligations.CompletionRings
  intro s q w hb hq x
  refine ⟨fun h0 h1 he => ?_, fun h0 h1 he => ⟨fun hi => ?_, fun hi => ?_⟩, fun v hv h33 => ⟨fun hlt => ?_, fun hle => ?_⟩⟩
  · simp [execCqEnable, guarded, bar0_of_takes _ hb, hq, h0, h1, he, State.writeCqCfg, x]
  · have h0' : w.sets 0 = false := by simp [Wr.sets, h0]
    simp [execCqDisable, guarded, bar0_of_takes _ hb, hq, h0, h1, he, hi, State.writeCqCfg, x]
  · simp [execCqDisable, guarded, bar0_of_takes _ hb, hq, h0, he, hi, State.writeCqCfg, x]
  · simp [execCqHeadWrite, guarded, bar0_of_takes _ hb, hq, has_of_get? hv, hv, h33, hlt, State.writeCqPtr, x]
  · simp [execCqHeadWrite, guarded, bar0_of_takes _ hb, hq, has_of_get? hv, hv, Nat.not_lt.mpr hle, State.writeCqPtr, x]

/-! ### What the logging of correctable errors leaves -/

/-- Nothing differs but the fault log with its bit of GBL_ATTN, and what a store counts of its correctable errors. -/
def sameButLog (s t : State) : Prop :=
  t = { s with log := t.log, hif := { s.hif with attn := t.hif.attn, attnNow := t.hif.attnNow }, clusters := t.clusters }

theorem sameButLog.refl (s : State) : sameButLog s s := rfl

theorem sameButLog.trans {s t u : State} (h : sameButLog s t) (g : sameButLog t u) : sameButLog s u := by
  unfold sameButLog at *
  rw [g, h]

theorem sameButLog.foldl {α : Type} {f : State → α → State} (hf : ∀ s x, sameButLog s (f s x)) (l : List α) (s : State) :
    sameButLog s (l.foldl f s) := by
  induction l generalizing s with
  | nil => exact .refl s
  | cons x l ih => exact (hf s x).trans (ih _)

theorem sameButLog_logFault (s : State) (f : FaultId) (severity phys detail : Nat) (beacons : Bool) :
    sameButLog s (s.logFault f severity phys detail beacons) := by
  unfold State.logFault
  split
  · split
    · rfl
    · rfl
  · rfl

theorem sameButLog_setCluster (s : State) (n : Nat) (c : Cluster) : sameButLog s (s.setCluster n c) := rfl

theorem sameButLog_correctedAt (s : State) (u loc detail : Nat) : sameButLog s (s.correctedAt u loc detail) := by
  unfold State.correctedAt
  dsimp only
  generalize (if u < 524 then 0 else s.codeOf loc) = code
  have logged := sameButLog_logFault s { kind := fkCE, subject := s.node, unit := scrubUnit u, location := loc } 1 (s.scrubPhys u loc)
    (detail / 4 * 4 + code) false
  split
  · rfl
  · split
    · exact logged.trans (sameButLog_setCluster ..)
    · exact logged

theorem sameButLog_corrected (s : State) (a detail : Nat) : sameButLog s (s.corrected a detail) := by
  unfold State.corrected
  split
  · exact sameButLog_correctedAt ..
  · rfl

theorem sameButLog_corrections (s : State) (ces : List (Nat × Nat)) (a n : Nat) : sameButLog s (s.corrections ces a n) :=
  .foldl (f := fun (s : State) (e : Nat × Nat) => s.corrected e.1 e.2) (fun _ _ => sameButLog_corrected ..) _ s

theorem sameButLog_writeCorrections (s : State) (ces : List (Nat × Nat)) (a n : Nat) : sameButLog s (s.writeCorrections ces a n) :=
  .foldl (f := fun (s : State) (e : Nat × Nat) => s.corrected e.1 e.2) (fun _ _ => sameButLog_corrected ..) _ s

theorem sameButLog.sqs {s t : State} (h : sameButLog s t) : t.sqs = s.sqs := by rw [h]

theorem sameButDomains.sqs {s t : State} (h : sameButDomains s t) : t.sqs = s.sqs := by rw [h]

/-! ### Windows of memory depend on what is behind them alone -/

section
variable {s t : State} (h : ∀ w, t.winSize w = s.winSize w)
include h

theorem populated_congr (a len : Nat) : t.populated a len = s.populated a len := by
  have hgo (f a len : Nat) : t.populatedGo f a len = s.populatedGo f a len := by
    induction f generalizing a len with
    | zero => rfl
    | succ f ih => simp only [State.populatedGo, h, ih]
  rw [State.populated, State.populated, hgo]

theorem rangeDomains_congr (a len : Nat) : t.rangeDomains a len = s.rangeDomains a len := by
  have hgo (f a len : Nat) : t.rangeDomainsGo f a len = s.rangeDomainsGo f a len := by
    induction f generalizing a len with
    | zero => rfl
    | succ f ih => simp only [State.rangeDomainsGo, h, ih]
  rw [State.rangeDomains, State.rangeDomains, hgo]

end

/-! ### Entries -/

/-- The first requester that can use the entry takes it. -/
theorem findSome?_append_cons {α β : Type} {f : α → Option β} {before after : List α} {r : α} {u : β} (hb : ∀ i ∈ before, f i = none)
    (hr : f r = some u) : (before ++ r :: after).findSome? f = some u := by
  rw [List.findSome?_append, List.findSome?_eq_none_iff.mpr hb, Option.none_or, List.findSome?_cons, hr]

/-- What a requester does with an entry that it can use: a stalled core repeats its ISSUE, the host offers a held entry again. -/
theorem tryGrant_cases {s u : State} {n r : Nat} (h : s.tryGrant n r = some u) :
    (r < 16 → ∃ m, (s.core (16 * n + r)).hold = .issue m ∧ u = s.issueFrom (16 * n + r) m) ∧
      (16 ≤ r → ∃ q, s.heldFor n q = true ∧ s.offerHeld q = some u) := by
  unfold State.tryGrant at h
  split at h
  case isTrue hr =>
    refine ⟨fun _ => ?_, fun h16 => absurd hr (Nat.not_lt.mpr h16)⟩
    dsimp only at h
    split at h
    · rename_i m hm
      split at h
      · contradiction
      · exact ⟨m, hm, (Option.some.inj h).symm⟩
    · contradiction
  case isFalse hr =>
    refine ⟨fun h16 => absurd h16 hr, fun _ => ?_⟩
    obtain ⟨q, -, hq⟩ := List.exists_of_findSome?_eq_some h
    split at hq
    · exact ⟨q, ‹_›, hq⟩
    · contradiction

/-- The entry that a queue has fetched is offered, and held while it finds no room. -/
theorem takeEntry_cases {u : State} {q : Nat} {x : Sq} (b : Bytes) (m : OfferMeets) (hx : u.sq q = x) :
    let h := (x.head + 1) % 2 ^ x.sizeLog2
    let w := u.setSq q { x with head := h }
    (∀ v, w.offer { iss := .host q, bytes := b, lost := m.lost, ces := m.ces } h = some v → u.takeEntry q b m = v) ∧
      (w.offer { iss := .host q, bytes := b, lost := m.lost, ces := m.ces } h = none →
        u.takeEntry q b m = w.setSq q { x with head := h, held := some (b, h, m) }) := by
  subst hx
  intro h w
  refine ⟨fun v hv => ?_, fun hn => ?_⟩
  · simp only [State.takeEntry, State.offerEntry, w, h] at hv ⊢
    rw [hv]
  · simp only [State.takeEntry, State.offerEntry, w, h] at hn ⊢
    rw [hn, sq_setSq]
    simp

/-- An error of a fetch is no advisory error, and is noted as it is. -/
theorem aerNote_of_fetch (f : Hif) {e : Nat} (h8 : 8 ≤ e) : (f.aerNote e).aer = f.aer ++ [e] := by
  have hadv : aerAdvisory e = false := by
    simp only [aerAdvisory, aeUR, aeCA, Bool.or_eq_false_iff, beq_eq_false_iff_ne]
    omega
  simp [Hif.aerNote, hadv]

theorem attn_testBit (s : State) (i : Nat) : (s.attn i).hif.attn.testBit i = true := by
  simp [State.attn, Nat.testBit_or, Nat.testBit_two_pow_self]

theorem fetchFails_sq (s : State) (q : Nat) : (s.fetchFails q).sq q = { s.sq q with fetchErr := true } :=
  (sq_setSq s q q _).trans (if_pos rfl)

theorem exec_sqEntryFetch_of_next {s : State} {q : Nat} {h : HostData} {m : OfferMeets} (hs : s.barTakes = true) (hp : 3 ≤ s.startPhase)
    (hq : s.nextQueue = some q) (hw : h.wf = true) : exec (.sqEntryFetch h m) s = .next (s.fetchFrom q h m) := by
  simp only [State.barTakes, Bool.and_eq_true, Bool.not_eq_true'] at hs
  simp [execSqEntryFetch, guarded, hw, hs.1, hs.2, Nat.not_lt.mpr hp, hq]

/-- Settles O22: who takes an entry of a tracker, and what becomes of the entry that the next queue holds. -/
theorem entriesAreFetched : Obligations.EntriesAreFetched := by
  unfold Obligations.EntriesAreFetched
  refine ⟨fun s u n r before after hn horder hbefore hr => ⟨?_, tryGrant_cases hr⟩, fun s q b m hs hp hq => ?_⟩
  · simp [execTrackerEntryGrant, guarded, hn, horder, findSome?_append_cons hbefore hr]
  have hfetch (h : HostData) (hw : h.wf = true) := exec_sqEntryFetch_of_next (m := m) hs hp hq hw
  intro x h a got v
  have hdevice (hloc : x.loc = true) (hb : b.length = 64) : exec (.sqEntryFetch (.entry b) m) s = .next (v.fetchDevice q m) := by
    rw [hfetch _ (by simp [HostData.wf, hb]), State.fetchFrom, hloc]
    rfl
  have hwin (w : Win) : v.winSize w = s.winSize w := by
    cases w <;> rfl
  have hxv : v.sq q = x := rfl
  have hpv : v.populated (x.base + x.head * 64) 64 = s.populated a 64 := populated_congr hwin ..
  have hrv : v.touchesRetired (x.base + x.head * 64) 64 = s.touchesRetired a 64 := rfl
  have hdv : v.rangeDomains (x.base + x.head * 64) 64 = s.rangeDomains a 64 := rangeDomains_congr hwin ..
  have hav (l : List Nat) : v.asleep l = s.asleep l := rfl
  have htaken (i : Instr) (u : State) (b : Bytes) (hsq : u.sq q = x) (hi : exec i s = .next (u.takeEntry q b m)) : got i u b := by
    obtain ⟨htake, hheld⟩ := takeEntry_cases b m hsq
    exact ⟨fun w hw => hi.trans (congrArg _ (htake w hw)), fun hn => hi.trans (congrArg _ (hheld hn))⟩
  refine ⟨fun hloc hb => ?_, fun hloc e h8 h11 => ?_, fun hloc hb hpop hret hasleep => ?_, fun hloc hb hbad => ?_⟩
  · refine htaken _ v b rfl ?_
    rw [hfetch _ (by simp [HostData.wf, hb]), State.fetchFrom, hloc]
    rfl
  · refine ⟨{ v.fetchFails q with hif := (v.fetchFails q).hif.aerNote e },
      (hfetch _ (by simp [HostData.wf, h8, h11])).trans ?_, fetchFails_sq .., ?_,
      aerNote_of_fetch _ h8, rfl, rfl⟩
    · rw [State.fetchFrom, hloc]
      rfl
    · exact attn_testBit (v.setSq q { x with fetchErr := true }) atFETCH
  · refine htaken _ ((v.touch (s.rangeDomains a 64)).corrections m.ces a 64) _ ?_ ((hdevice hloc hb).trans ?_)
    · rw [State.sq, (sameButLog_corrections ..).sqs, (sameButDomains_touch ..).sqs]
      rfl
    · rw [State.fetchDevice]
      simp only [hxv, hpv, hrv, hdv, hav, hpop, hret, hasleep, Bool.not_true, Bool.or_self, Bool.false_eq_true, if_false, List.isEmpty_nil]
      rfl
  · refine ⟨_, (hdevice hloc hb).trans ?_, fetchFails_sq v q, attn_testBit .., rfl, rfl, rfl⟩
    rw [State.fetchDevice]
    obtain hbad | hbad := hbad
    · simp only [hxv, hpv, hbad, Bool.not_false, Bool.true_or, if_true, a]
    · simp only [hxv, hrv, hbad, Bool.or_true, if_true, a]

end Sys2Proof.Machine
end

section
/-! SUPPORT. Operations that the MP runs for the host (03, 12, 18): Damask slots, retired pages, firmware. -/

namespace Sys2Proof.Machine

/-! ### Damask images -/

/-- GO with an OP runs it, or is refused while an operation runs or the MP takes none. -/
theorem writeDmkCtrl_of_go {s : State} {w : Wr} (nv : NvEnd) (hgo : w.sets 0 = true) :
    let set : Damask := { s.dmk with op := w.upd 1 2 s.dmk.op, source := w.upd 3 1 s.dmk.source, slot := w.upd 4 2 s.dmk.slot }
    (s.dmkBusy = false → s.mpTakes = true → s.writeDmkCtrl w nv = (({ s with dmk := set } : State).runDamask nv).advance) ∧
      (s.dmkBusy = true ∨ s.mpTakes = false → s.writeDmkCtrl w nv = { s with dmk := { set with refused := true } }) := by
  intro set
  refine ⟨fun hb hm => ?_, fun h => ?_⟩
  · simp [State.writeDmkCtrl, hgo, hb, hm, set]
  · have hrefused : (s.dmkBusy || !s.mpTakes) = true := by simpa using h
    simp [State.writeDmkCtrl, hgo, hrefused, set]

/-- What ERASE does to flash, and its RESULT. -/
theorem eraseSlot_flash (s : State) (k : Nat) (nv : NvEnd) :
    (s.nv = true → (s.eraseSlot k nv).dmk.result = dkPOWER_INHIBIT ∧ (s.eraseSlot k nv).flash = s.flash) ∧
    (s.nv = false → (∀ i, (s.eraseSlot k nv).flash.damask.get none i = if i = k then none else s.flash.damask.get none i) ∧
      (nv.sag = false → (s.eraseSlot k nv).dmk.result = dkOK ∧ (s.eraseSlot k nv).flash.bootSet = (s.flash.bootSet && s.flash.bootSlot != k)) ∧
      (nv.sag = true → (s.eraseSlot k nv).dmk.result = dkPOWER_INHIBIT ∧ (s.eraseSlot k nv).flash.bootSet = s.flash.bootSet)) := by
  unfold State.eraseSlot
  refine ⟨fun h => ?_, fun h => ?_⟩
  · rw [if_pos h]
    exact ⟨rfl, rfl⟩
  · rw [if_neg (by simp [h])]
    cases nv.sag
    · exact ⟨fun i => SMap.get_set none s.flash.damask k i none, fun _ => ⟨rfl, rfl⟩, nofun⟩
    · exact ⟨fun i => SMap.get_set none s.flash.damask k i none, nofun, fun _ => ⟨rfl, rfl⟩⟩

/-- What SET_BOOT does to flash, and its RESULT. -/
theorem setBoot_flash (s : State) (k : Nat) (nv : NvEnd) :
    (s.nv = true → (s.setBoot k nv).dmk.result = dkPOWER_INHIBIT ∧ (s.setBoot k nv).flash = s.flash) ∧
    (s.nv = false → s.flash.slotValid k = false → (s.setBoot k nv).dmk.result = dkSLOT_EMPTY ∧ (s.setBoot k nv).flash = s.flash) ∧
    (s.nv = false → s.flash.slotValid k = true →
      (nv.sag = false → (s.setBoot k nv).dmk.result = dkOK ∧ (s.setBoot k nv).flash = { s.flash with bootSlot := k, bootSet := true }) ∧
      (nv.sag = true → (s.setBoot k nv).dmk.result = dkPOWER_INHIBIT ∧ (s.setBoot k nv).flash = s.flash)) := by
  unfold State.setBoot
  refine ⟨fun h => ?_, fun h hv => ?_, fun h hv => ⟨fun hsag => ?_, fun hsag => ?_⟩⟩
  · rw [if_pos h]
    exact ⟨rfl, rfl⟩
  · rw [if_neg (by simp [h]), if_pos (by simp [hv])]
    exact ⟨rfl, rfl⟩
  · rw [if_neg (by simp [h]), if_neg (by simp [hv]), if_neg (by simp [hsag])]
    exact ⟨rfl, rfl⟩
  · rw [if_neg (by simp [h]), if_neg (by simp [hv]), if_pos hsag]
    exact ⟨rfl, rfl⟩

/-- An ERASE and a SET_BOOT end at once. -/
theorem slotOps_done (s : State) (k : Nat) (nv : NvEnd) :
    (s.eraseSlot k nv).dmk.done = true ∧ (s.setBoot k nv).dmk.done = true ∧ (s.eraseSlot k nv).dmk.busy = false ∧
        (s.setBoot k nv).dmk.busy = false := by
  have herase : ∃ u f, s.eraseSlot k nv = State.dmkEnd u f := by
    unfold State.eraseSlot
    dsimp only
    split
    · exact ⟨_, _, rfl⟩
    · split
      · exact ⟨_, _, rfl⟩
      · exact ⟨_, _, rfl⟩
  have hboot : ∃ u f, s.setBoot k nv = State.dmkEnd u f := by
    unfold State.setBoot
    split
    · exact ⟨_, _, rfl⟩
    · split
      · exact ⟨_, _, rfl⟩
      · split
        · exact ⟨_, _, rfl⟩
        · exact ⟨_, _, rfl⟩
  obtain ⟨u, f, hu⟩ := herase
  obtain ⟨v, g, hv⟩ := hboot
  rw [hu, hv]
  exact ⟨rfl, rfl, rfl, rfl⟩

/-- Settles O23: what the operations do to flash and when GO runs them. -/
theorem damaskOperations : Obligations.DamaskOperations := by
  unfold Obligations.DamaskOperations
  refine ⟨fun s k nv => ?_, fun s w nv hs hgo => ?_⟩
  · obtain ⟨eraseInhibited, erases⟩ := eraseSlot_flash s k nv
    obtain ⟨bootInhibited, bootEmpty, boots⟩ := setBoot_flash s k nv
    refine ⟨fun h => ?_, erases, bootEmpty, fun h => ?_, boots, slotOps_done s k nv⟩
    · obtain ⟨er, ef⟩ := eraseInhibited h
      exact ⟨er, ef, bootInhibited h⟩
    · rw [Flash.slotValid, h]
  intro d set u runs
  obtain ⟨hrun, hrefused⟩ := writeDmkCtrl_of_go nv hgo
  have hruns (i : Instr) (op : Nat) (t : State) (hi : dmkGo w op = true → exec i s = .next (s.writeDmkCtrl w nv))
      (ht : set.op = op → u.runDamask nv = t) : runs i op t := by
    intro hop
    have hi := hi (by simp [dmkGo, hgo, hop])
    refine ⟨fun hb hm => ?_, fun h => hi.trans (congrArg _ (hrefused h))⟩
    rw [hi, hrun hb hm]
    exact congrArg (fun t : State => Host.Outcome.next t.advance) (ht (upd_of_get? _ hop))
  refine ⟨hruns _ _ _ (fun h => ?_) fun h => ?_, hruns _ _ _ (fun h => ?_) fun h => ?_, hruns _ _ _ (fun h => ?_) fun h => ?_,
    hruns _ _ _ (fun h => ?_) fun h => ?_, fun hc => ?_, fun hp hm hr hb => ?_, fun hp hm hr hb hset hc => ?_⟩
  · simp [execDmkLoad, bar0_of_takes _ hs, h]
  · simp only [State.runDamask, u, h]
    rfl
  · simp [execDmkStore, bar0_of_takes _ hs, h]
  · simp only [State.runDamask, u, h]
    rfl
  · simp [execDmkErase, bar0_of_takes _ hs, h]
  · simp only [State.runDamask, u, h]
  · simp [execDmkSetBoot, bar0_of_takes _ hs, h]
  · simp only [State.runDamask, u, h]
  · have hc : s.dmk.clearing = true := hc
    simp [execDamaskClearDone, event, hc]
  · have hb : s.dmk.busy = false := hb
    simp [execBootDamaskLoad, event, hp, hm, hr, hb]
  · have hb : s.dmk.busy = false := hb
    simp [execBootDamaskLoad, event, hp, hm, hr, hb, State.bootLoad, State.bootEnds, hset]

/-! ### Retired pages -/

theorem mem_insertPage {p x : Nat} (l : List Nat) : x ∈ insertPage p l ↔ x = p ∨ x ∈ l := by
  induction l with
  | nil => simp [insertPage]
  | cons q r ih =>
    rw [insertPage]
    split
    · simp
    · rw [List.mem_cons, ih, List.mem_cons]
      tauto

/-- GO with an OP runs it, or is refused while an operation runs or the MP takes none. -/
theorem exec_retireGo {s : State} {w : Wr} {nv : NvEnd} {i : Instr} {op : Nat} (hs : s.barTakes = true) (hgo : w.sets 0 = true) (h3 : w.sets 3 =
    false)
    (h4 : w.sets 4 = false) (hop : w.get? 1 1 = some op) (hi : exec i s = .next (s.bar0 (if retireGo w op then s.writeRetireCtrl w nv else s))) :
    exec i s = .next (if s.retire.busy || !s.mpTakes then { s with retire := { s.retire with op := op, refused := true } }
      else ({ s with retire := { s.retire with op := op } } : State).runRetire op s.retire.page nv) := by
  rw [hi, bar0_of_takes _ hs, retireGo, hgo, hop]
  simp [State.writeRetireCtrl, hgo, h3, h4, upd_of_get? _ hop]

/-- An operation whose checks pass changes the map, and its publication is due. -/
theorem runRetire_ok {s : State} {op p : Nat} {nv : NvEnd} (h : s.retireCheck op p nv = rtOK) :
    s.runRetire op p nv = { s with
      retire := { s.retire with busy := true, result := rtOK }, hif := { s.hif with waiting := s.keepMap.hif.waiting }, descs := s.keepMap.descs
      flash := s.flash.writeMap (if op = 0 then insertPage p s.flash.retired else s.flash.retired.erase p), calico := { s.calico with dirty :=
          true } } := by
  simp only [State.runRetire, h, ne_eq, not_true_eq_false, if_false]
  rfl

/-- An operation that fails a check is done at once; the map in force stays. -/
theorem runRetire_failed {s : State} {op p : Nat} {nv : NvEnd} (h : s.retireCheck op p nv ≠ rtOK) :
    ∃ f : Flash, f.retired = s.flash.retired ∧
      s.runRetire op p nv = ({ s with retire := { s.retire with done := true, result := s.retireCheck op p nv }, flash :=
          f } : State).attn atOP_DONE := by
  simp only [State.runRetire, h, ne_eq, not_false_eq_true, if_true]
  split
  · exact ⟨s.flash.spoilMap, rfl, rfl⟩
  · exact ⟨s.flash, rfl, rfl⟩

/-- Settles O25: what GO does to the map, and when DONE is set. -/
theorem pagesRetire : Obligations.PagesRetire := by
  unfold Obligations.PagesRetire
  refine ⟨fun s w nv hs hgo h3 h4 => ?_, fun s v hv => ⟨fun hb hr => ?_, fun h => ?_⟩⟩
  · intro p does
    have hdoes (i : Instr) (op : Nat) (hi : exec i s = .next (s.bar0 (if retireGo w op then s.writeRetireCtrl w nv else s))) : does i op := by
      intro hop
      rw [exec_retireGo hs hgo h3 h4 hop hi]
      by_cases hrefused : (s.retire.busy || !s.mpTakes) = true
      · rw [if_pos hrefused]
        refine ⟨_, rfl, rfl, rfl, fun _ => rfl, fun hb hm => ?_⟩
        simp [hb, hm] at hrefused
      · rw [if_neg hrefused]
        have hnot : ¬(s.retire.busy = true ∨ s.mpTakes = false) := by simpa using hrefused
        generalize hu : ({ s with retire := { s.retire with op := op } } : State) = u
        have hcheck : u.retireCheck op p nv = s.retireCheck op p nv := by rw [← hu]; rfl
        by_cases hok : u.retireCheck op p nv = rtOK
        · rw [runRetire_ok hok, ← hcheck, ← hu]
          refine ⟨_, rfl, rfl, rfl, fun h => absurd h hnot, fun _ _ => ⟨fun h => absurd (hu ▸ hok) h, fun _ => ⟨rfl, rfl, rfl, fun h0 x => ?_,
              fun h1 => ?_⟩⟩⟩
          · rw [if_pos h0]
            exact mem_insertPage _
          · rw [if_neg (by omega)]
            rfl
        · obtain ⟨f, hf, hrun⟩ := runRetire_failed hok
          rw [hrun, ← hcheck, ← hu]
          rw [← hu] at hf hok
          exact ⟨_, rfl, rfl, rfl, fun h => absurd h hnot, fun _ _ => ⟨fun _ => ⟨rfl, attn_testBit .., hf, rfl⟩, fun h => absurd h hok⟩⟩
    exact ⟨hdoes _ _ rfl, hdoes _ _ rfl⟩
  · simp [State.retireDone, hb, hv, hr, attn_testBit]
  · rw [State.retireDone, hv, if_neg]
    simpa [imp_iff_not_or] using h

/-! ### Firmware -/

/-- GO with an OP runs it, or is refused while an operation runs or the MP takes none. -/
theorem exec_fwGo {s : State} {w : Wr} {nv : NvEnd} {i : Instr} {op : Nat} (hs : s.barTakes = true) (hgo : w.sets 0 = true)
    (hop : w.get? 1 2 = some op) (hi : exec i s = .next (s.bar0 (if fwGo w op then s.writeFwCtrl w nv else s))) :
    let u : State := { s with fw := { s.fw with op := w.upd 1 2 s.fw.op } }
    (s.fw.busy = false → s.mpTakes = true → exec i s = .next (u.runFirmware nv)) ∧
      (s.fw.busy = true ∨ s.mpTakes = false → exec i s = .next { u with fw := { u.fw with
        refused := true, result := if op = 1 ∧ s.mpTakes = true then fwNOT_READY else s.fw.result } }) := by
  rw [hi, bar0_of_takes _ hs, fwGo, hgo, hop]
  refine ⟨fun hb hm => ?_, fun h => ?_⟩
  · simp [State.writeFwCtrl, hgo, hb, hm]
  · have hrefused : (s.fw.busy || !s.mpTakes) = true := by simpa using h
    simp [State.writeFwCtrl, hgo, hrefused, upd_of_get? _ hop]

theorem writeDirectory_fw (u : State) (a b : Nat) : (u.writeDirectory a b).fw = { u.fw with
    dirs := u.fw.dirs.set (1 - u.fw.dirAt) (dirBytes (u.fw.dirSeq + 1) a b), dirAt := 1 - u.fw.dirAt, dirSeq := u.fw.dirSeq + 1
    active := a, staged := b } := by
  unfold State.writeDirectory
  dsimp only
  split
  · rfl
  · rfl

theorem deferRun_fw (u : State) : u.deferRun.fw = u.fw := by
  unfold State.deferRun State.deferPersist
  split
  · split
    · split
      · rfl
      · rfl
    · rfl
  · rfl

/-- ACTIVATE without staged firmware ends; else the hand-over block is written and the MP restarts. -/
theorem activate_eq (u : State) : u.activate = if u.fw.staged = 0xFF ∨ u.mpBusy = true then u.fwEnd fwNOT_READY else
    { u.deferRun.writeHandover with fw := { u.fw with busy := true, restarting := true } } := by
  have hfw : u.deferRun.writeHandover.fw = u.fw := deferRun_fw u
  simp only [State.activate, hfw]

/-- REVERT stages the spare slot when its header is in order. -/
theorem revert_eq (u : State) : u.revert = if u.nv then u.fwEnd fwPOWER_INHIBIT
    else if (u.fw.slot u.fw.spareSlot).any (fun x : FwSlot => x.headerOk) then (u.writeDirectory u.fw.active u.fw.spareSlot).fwEnd fwOK
    else u.fwEnd fwNOT_READY := by
  unfold State.revert
  dsimp only
  cases h : u.fw.slot u.fw.spareSlot with
  | none => simp
  | some x => simp

/-- Settles O26: when GO runs an operation, and what each comes to. -/
theorem firmwareOperations : Obligations.FirmwareOperations := by
  unfold Obligations.FirmwareOperations
  intro s w nv hs hgo u spare runs
  have hruns (i : Instr) (op : Nat) (t : State) (nv : NvEnd) (hi : exec i s = .next (s.bar0 (if fwGo w op then s.writeFwCtrl w nv else s)))
      (ht : u.fw.op = op → u.runFirmware nv = t) : runs i op t := by
    intro hop
    obtain ⟨hrun, hrefused⟩ := exec_fwGo hs hgo hop hi
    refine ⟨fun hb hm => (hrun hb hm).trans (congrArg _ (ht (upd_of_get? _ hop))), hrefused⟩
  refine ⟨hruns _ _ _ nv rfl fun h => ?_, hruns _ _ _ {} rfl fun h => ?_, hruns _ _ _ {} rfl fun h => ?_, hruns _ _ _ {} rfl fun h => ?_,
    writeDirectory_fw u, fun r => ⟨rfl, attn_testBit ..⟩⟩
  · simp only [State.runFirmware, h]
    rfl
  · have hrun : u.runFirmware {} = u.activate := by simp only [State.runFirmware, h]
    exact hrun.trans (activate_eq u)
  · simp only [State.runFirmware, h]
    rfl
  · simp only [State.runFirmware, h]
    exact revert_eq u

end Sys2Proof.Machine
end

section
/-! SUPPORT. Registers (19): accesses of BAR0, the global registers, and the events of AER. -/

namespace Sys2Proof.Machine

/-! ### Accesses -/

theorem barTakes_iff {s : State} : s.barTakes = true ↔ s.hifOn = true ∧ s.hif.d3hot = false := by
  simp [State.barTakes]

/-- In D3hot an access is refused. -/
theorem bar0_of_d3hot {s : State} (t : State) (hon : s.hifOn = true) (hd3 : s.hif.d3hot = true) : s.bar0 t = s.refuse .unsupported aeUR := by
  simp [State.bar0, hon, hd3]

theorem bar0_of_off {s : State} (t : State) (hon : s.hifOn = false) : s.bar0 t = s := by
  simp [State.bar0, hon]

theorem exec_registerWrite_eq {off : Nat} (w : Wr) (s : State) (hoff : regOffOk off = true) :
    exec (.registerWrite off w) s = .next (s.bar0 (s.barOn off w.half fun o h => s.regWrite (regAt o) (w.placed h))) := by
  simp [execRegisterWrite, guarded, hoff]

theorem exec_registerReadClear_eq {off : Nat} (h : Half) (s : State) (hoff : regOffOk off = true) :
    exec (.registerReadClear off h) s = .next (s.bar0 (s.barOn off h fun o h => s.hostRead (regAt o) h)) := by
  simp [execRegisterReadClear, guarded, hoff]

theorem exec_bar0BadAccess_wrong {off size : Nat} (wr : Bool) (s : State) (h : ¬((size = 4 ∨ size = 8) ∧ off % size = 0)) :
    exec (.bar0BadAccess off size wr) s = .next (s.bar0 (s.refuse .completerAbort aeCA)) := by
  have hc : (!((size == 4 || size == 8) && off % size == 0)) = true := by
    rw [Bool.not_eq_true', ← Bool.not_eq_true]
    simpa using h
  simp [execBar0BadAccess, event, hc]

theorem exec_bar0BadAccess_off {s : State} (off size : Nat) (wr : Bool) (hon : s.hifOn = false) : exec (.bar0BadAccess off size wr) s = .next s := by
  simp only [exec_bar0BadAccess, execBar0BadAccess, event, bar0_of_off _ hon, ite_self]

/-- Where an access reaches a register, and as which half of it. -/
theorem barAccess_cases (off : Nat) (h : Half) :
    (off % 8 = 0 → barAccess off h = some (off, h)) ∧ (off % 8 = 4 → h = .lo → barAccess off h = some (off - 4, .hi)) ∧
      (off % 8 = 4 → h = .hi → barAccess off h = some (off + 4, .lo)) ∧ (off % 8 ≠ 0 → off % 8 ≠ 4 ∨ h = .both → barAccess off h = none) := by
  refine ⟨fun h0 => ?_, fun h4 hh => ?_, fun h4 hh => ?_, fun h0 hh => ?_⟩
  · simp [barAccess, h0]
  · simp [barAccess, h4, hh]
  · simp [barAccess, h4, hh]
  · obtain h4 | hh := hh
    · simp [barAccess, h0, h4]
    · by_cases h4 : off % 8 = 4
      · simp [barAccess, h4, hh]
      · simp [barAccess, h0, h4]

theorem placed_same (w : Wr) : w.placed w.half = w := if_pos rfl

/-- The clearing of a register that clears on a read changes no memory. -/
theorem sameBytes_regClear (s : State) (r : Reg) : sameBytes s (s.regClear r) := by
  unfold State.regClear
  split
  all_goals exact fun _ => rfl

/-- A read of a register answers its value and then clears what the read of all of it clears. -/
theorem hostRead_eq (s : State) (r : Reg) (p : Half) :
    ∃ u : State, u = { s with draws := u.draws, hif := { s.hif with reply := .value (BitVec.ofNat 64 (Half.part p (s.hostSee r))) } } ∧
      sameBytes s (s.hostRead r p) ∧ (p ≠ .both ∨ s.clears r = false → s.hostRead r p = u) ∧ (p = .both → s.clears r = true →
          s.hostRead r p = u.regClear r) := by
  unfold State.hostRead
  dsimp only
  refine ⟨_, rfl, ?_, fun h => if_neg ?_, fun hp hc => if_pos ⟨hp, hc⟩⟩
  · split
    · exact fun x => sameBytes_regClear _ r x
    · exact fun _ => rfl
  · rintro ⟨hp, hc⟩
    simp [hp, hc] at h

/-! ### Events of AER -/

theorem aerBase_ge : 0x100 ≤ aerBase := by
  unfold aerBase extSecond
  split
  · exact le_rfl
  · omega

/-- A register that the host has not written holds its reset value. -/
theorem aerReg_unwritten {h : Hif} {reg : Nat} (hw : ∀ x ∈ h.config,
    aerOffset x.1 ≠ reg) : h.aerReg reg = if reg = aerUncSeverity then 2 ^ 22 else 0 := by
  have hnone (m : SMap Nat) (hm : ∀ x ∈ m, aerOffset x.1 ≠ reg) : SMap.find? m (aerBase + reg) = none := by
    induction m with
    | nil => rfl
    | cons e m ih =>
      rw [List.forall_mem_cons] at hm
      have he : e.1 ≠ aerBase + reg := fun h => hm.1 (by simp [aerOffset, h, Nat.le_add_right_of_le aerBase_ge])
      rw [SMap.find?, if_neg he]
      exact ih hm.2
  rw [Hif.aerReg, hnone _ hw, Option.getD_none]

/-- The message of an event under unwritten mask and severity registers. -/
def freshMessage (e : Nat) : Option Nat :=
  match aerUncBit e with
  | some u => some (if u = 22 then 2 else if aerAdvisory e then 0 else 1)
  | none => (aerCorBit e).map fun _ => 0

/-- What an event notes while its mask and severity registers are unwritten. -/
theorem aerNote_unwritten {h : Hif} (e : Nat) (hw : ∀ x ∈ h.config, aerOffset x.1 ≠ aerUncMask ∧ aerOffset x.1 ≠ aerUncSeverity ∧
    aerOffset x.1 ≠ aerCorMask)
    (hadv : aerAdvisory e = true → aerUncBit e ≠ some 22) :
    h.aerNote e = { h with aer := h.aer ++ [e], messages := h.messages ++ (freshMessage e).toList.map fun m => (m, h.posted.length) } := by
  have hmask : h.aerReg aerUncMask = 0 := aerReg_unwritten fun x hx => (hw x hx).1
  have hsev : h.aerReg aerUncSeverity = 2 ^ 22 := aerReg_unwritten fun x hx => (hw x hx).2.1
  have hcor : h.aerReg aerCorMask = 0 := aerReg_unwritten fun x hx => (hw x hx).2.2
  have hfatal : (aerAdvisory e && (aerUncBit e).any fun u => (h.aerReg aerUncSeverity).testBit u) = false := by
    rw [Bool.and_eq_false_imp, hsev]
    intro ha
    cases hb : aerUncBit e with
    | none => rfl
    | some u =>
      have hu : u ≠ 22 := fun h => hadv ha (h ▸ hb)
      rw [Option.any_some, Nat.testBit_two_pow]
      exact decide_eq_false hu.symm
  have hmessage : h.aerMessage e = freshMessage e := by
    unfold Hif.aerMessage freshMessage
    rw [hmask, hsev, hcor]
    cases aerUncBit e with
    | none => cases aerCorBit e <;> simp
    | some u =>
      simp only [Nat.zero_testBit, Nat.testBit_two_pow, decide_eq_true_eq, Bool.false_eq_true, if_false, eq_comm (a := 22)]
      split
      · rfl
      · cases aerAdvisory e <;> rfl
  simp only [Hif.aerNote, hfatal, hmessage, Bool.false_eq_true, if_false]

theorem aerNote_frame (h : Hif) (e : Nat) : h.aerNote e = { h with aer := (h.aerNote e).aer, messages := (h.aerNote e).messages } := rfl

/-- Settles O28: where an access of BAR0 reaches, what it does there, and what an event of AER sends. -/
theorem registersTakeAccesses : Obligations.RegistersTakeAccesses := by
  unfold Obligations.RegistersTakeAccesses
  intro s off w h size wr hoff wrong refuses writes reads
  have hwrite (p : Nat × Half) (hs : s.barTakes = true) (hp : barAccess off w.half = some p) : writes (regAt p.1) (w.placed p.2) := by
    refine (exec_registerWrite_eq w s hoff).trans ?_
    rw [bar0_of_takes _ hs, State.barOn, hp]
  have hread (p : Nat × Half) (hs : s.barTakes = true) (hp : barAccess off h = some p) : reads (regAt p.1) p.2 := by
    obtain ⟨u, hu, hsame, hplain, hclear⟩ := hostRead_eq s (regAt p.1) p.2
    refine ⟨_, u, (exec_registerReadClear_eq h s hoff).trans ?_, hsame, hu, hplain, hclear⟩
    rw [bar0_of_takes _ hs, State.barOn, hp]
  obtain ⟨w0, wlo, whi, wbad⟩ := barAccess_cases off w.half
  obtain ⟨h0, hlo, hhi, hbad⟩ := barAccess_cases off h
  refine ⟨fun hs => ⟨fun h8 => ⟨?_, hread _ hs (h0 h8)⟩, fun h4 hh => hwrite _ hs (wlo h4 hh), fun h4 hh => hwrite _ hs (whi h4 hh),
    fun h4 => ⟨fun hh => hread _ hs (hlo h4 hh), fun hh => hread _ hs (hhi h4 hh)⟩, fun h8 hh => ?_, fun h8 hh => ?_, fun hwrong => ?_⟩,
    fun hon hd3 => ⟨?_, ?_, fun hwrong => ?_⟩, fun hon => ?_, fun e => ⟨aerNote_frame .., fun hunwritten => ?_⟩⟩
  · exact placed_same w ▸ hwrite _ hs (w0 h8)
  · refine (exec_registerWrite_eq w s hoff).trans ?_
    rw [bar0_of_takes _ hs, State.barOn, wbad h8 hh]
    rfl
  · refine (exec_registerReadClear_eq h s hoff).trans ?_
    rw [bar0_of_takes _ hs, State.barOn, hbad h8 hh]
    rfl
  · refine (exec_bar0BadAccess_wrong wr s hwrong).trans ?_
    rw [bar0_of_takes _ hs]
    rfl
  · exact (exec_registerWrite_eq w s hoff).trans (congrArg _ (bar0_of_d3hot _ hon hd3))
  · exact (exec_registerReadClear_eq h s hoff).trans (congrArg _ (bar0_of_d3hot _ hon hd3))
  · exact (exec_bar0BadAccess_wrong wr s hwrong).trans (congrArg _ (bar0_of_d3hot _ hon hd3))
  · simp only [List.forall_mem_cons]
    exact ⟨(exec_registerWrite_eq w s hoff).trans (congrArg _ (bar0_of_off _ hon)),
      (exec_registerReadClear_eq h s hoff).trans (congrArg _ (bar0_of_off _ hon)), exec_bar0BadAccess_off off size wr hon, List.forall_mem_nil _⟩
  · have hsends (e m : Nat) (hadv : aerAdvisory e = true → aerUncBit e ≠ some 22) (hm : freshMessage e = some m) :
        s.hif.aerNote e = { s.hif with aer := s.hif.aer ++ [e], messages := s.hif.messages ++ [(m, s.hif.posted.length)] } := by
      rw [aerNote_unwritten e hunwritten hadv, hm]
      rfl
    intro sends
    refine ⟨?_, ?_, ?_, ?_⟩
    · rintro (rfl | rfl)
      · exact hsends _ _ (by decide) (by decide)
      · exact hsends _ _ (by decide) (by decide)
    · simp only [List.mem_cons, List.not_mem_nil, or_false]
      rintro (rfl | rfl | rfl | rfl | rfl)
      all_goals exact hsends _ _ (by decide) (by decide)
    · rintro rfl
      exact hsends _ _ (by decide) (by decide)
    · simp only [List.mem_cons, List.not_mem_nil, or_false]
      rintro (rfl | rfl | rfl | rfl | rfl)
      all_goals exact hsends _ _ (by decide) (by decide)

/-! ### The global registers -/

/-- The number whose first `n` bits are the values of `f`. -/
def bitsOf (f : Nat → Bool) (n : Nat) : Nat := (List.range n).foldl (fun a i => a + (if f i then 2 ^ i else 0)) 0

theorem bitsOf_succ (f : Nat → Bool) (n : Nat) : bitsOf f (n + 1) = bitsOf f n + (if f n then 2 ^ n else 0) := by
  rw [bitsOf, List.range_succ, List.foldl_append, List.foldl_cons, List.foldl_nil, bitsOf]

theorem bitsOf_lt (f : Nat → Bool) (n : Nat) : bitsOf f n < 2 ^ n := by
  induction n with
  | zero => exact Nat.one_pos
  | succ n ih =>
    rw [bitsOf_succ, pow_succ]
    split
    all_goals omega

theorem bitsOf_testBit (f : Nat → Bool) {n i : Nat} (h : i < n) : (bitsOf f n).testBit i = f i := by
  induction n with
  | zero => contradiction
  | succ n ih =>
    have hor : bitsOf f (n + 1) = bitsOf f n ||| (if f n then 2 ^ n else 0) := by
      rw [bitsOf_succ]
      split
      · have hadd := Nat.two_pow_add_eq_or_of_lt (bitsOf_lt f n) 1
        rw [Nat.mul_one] at hadd
        rw [Nat.add_comm, hadd, Nat.or_comm]
      · simp
    rw [hor, Nat.testBit_or]
    obtain hi | rfl := Nat.lt_succ_iff_lt_or_eq.mp h
    · have hne : n ≠ i := Nat.ne_of_gt hi
      rw [ih hi]
      split
      · simp [hne]
      · simp
    · rw [Nat.testBit_lt_two_pow (bitsOf_lt f i)]
      split
      · simp_all
      · simp_all

/-- The clearing of GBL_ATTN keeps a bit that is not written, or whose event has come in the same tick. -/
theorem writeAttn_testBit (s : State) (w : Wr) {i : Nat} (h : i < 7) : (s.writeAttn w).hif.attn.testBit i =
    (s.hif.attn.testBit i && (decide (s.hif.attnNow.1 = s.tick) && s.hif.attnNow.2.testBit i || !w.sets i)) := by
  have hkept : (s.writeAttn w).hif.attn = bitsOf (fun i => s.hif.attn.testBit i &&
      ((if s.hif.attnNow.1 = s.tick then s.hif.attnNow.2 else 0).testBit i || !w.sets i)) 7 := rfl
  rw [hkept, bitsOf_testBit _ h]
  split
  · simp [*]
  · simp [*]

/-- Settles O29: what each global register takes. -/
theorem globalRegistersWrite : Obligations.GlobalRegistersWrite := by
  unfold Obligations.GlobalRegistersWrite
  intro s w n c v old hs
  refine ⟨?_, fun hn hc hv => ⟨fun hon => ?_, fun hoff => ?_⟩, ⟨_, ?_, rfl, fun i hi => writeAttn_testBit s w hi⟩, fun i j => ⟨?_, rfl, ?_⟩⟩
  · simp [execGblBar2BaseWrite, bar0_of_takes _ hs, State.regWrite]
  · refine ⟨s.setCounter n c (BitVec.ofNat 32 v), ?_, fun _ => rfl, rfl, fun m j => counter_setCounter ..⟩
    simp [execGblCounterWrite, guarded, clusterOk, hn, hc, bar0_of_takes _ hs, State.writeCounter, hv, hon]
  · simp [execGblCounterWrite, guarded, clusterOk, hn, hc, bar0_of_takes _ hs, State.writeCounter, hv, hoff, State.park]
  · simp [execAttnClear, bar0_of_takes _ hs]
  · simp [State.attn, Nat.testBit_or, Nat.testBit_two_pow]
  · simp only [State.attn, Nat.testBit_or, Nat.testBit_two_pow]
    split
    · simp [*, Bool.or_comm]
    · simp [*]

/-! ### BAR2 -/

section
variable {s t : State} (h : sameButLog s t)
include h

theorem sameButLog.winSize (w : Win) : t.winSize w = s.winSize w := by
  rw [h]
  cases w <;> rfl

theorem sameButLog.asleep (ds : List Nat) : t.asleep ds = s.asleep ds := by
  rw [h]
  rfl

theorem sameButLog.behindWrite (a n : Nat) : t.behindWrite a n = s.behindWrite a n := by
  rw [h]
  rfl

theorem sameButLog.readBytes (a n : Nat) : t.readBytes a n = s.readBytes a n := by
  rw [h]
  rfl

theorem sameButLog.bar2Base : t.hif.bar2Base = s.hif.bar2Base := by rw [h]

theorem sameButLog.barTakes : t.barTakes = s.barTakes := by
  rw [h]
  rfl

theorem sameButLog.touchesRetired (a n : Nat) : t.touchesRetired a n = s.touchesRetired a n := by
  rw [h]
  rfl

theorem sameButLog.bar2Reaches (a n : Nat) : t.bar2Reaches a n = s.bar2Reaches a n := by
  rw [State.bar2Reaches, State.bar2Reaches, populated_congr h.winSize, h.touchesRetired]

end

/-- A BAR2 request that the interface takes is refused, or made. -/
theorem bar2_of_takes {s : State} (t : State) (a n : Nat) (hs : s.barTakes = true) : s.bar2 a n t = if s.bar2Reaches a n then t else s.bar2Refuse
    := by
  obtain ⟨hon, hd3⟩ := barTakes_iff.mp hs
  cases hr : s.bar2Reaches a n
  · simp [State.bar2, hon, hd3, hr]
  · simp [State.bar2, hon, hd3, hr]

/-- Whether a request on a range is made now: its memory serves, and no earlier write to it waits. -/
def servesNow (s : State) (a n : Nat) : Prop := s.asleep (s.rangeDomains a n) = [] ∧ s.behindWrite a n = false

theorem reach_now {s : State} {a n : Nat} (q : Waiting) (t : State) (h : servesNow s a n) : s.reach q a n t = t.touch (s.rangeDomains a n) := by
  simp [State.reach, h.1, h.2]

theorem reach_later {s : State} {a n : Nat} (q : Waiting) (t : State) (h : s.asleep (s.rangeDomains a n) ≠ [] ∨ s.behindWrite a n = true) :
    s.reach q a n t = s.putOff q (s.rangeDomains a n) := by
  have hcond : ((s.asleep (s.rangeDomains a n)).isEmpty && !s.behindWrite a n) = false := by
    obtain h | h := h
    · simp [h]
    · simp [h]
  simp only [State.reach, hcond, Bool.false_eq_true, if_false]

theorem sameButLog.servesNow {s t : State} (h : sameButLog s t) {a n : Nat} (hs : servesNow s a n) : Machine.servesNow t a n := by
  unfold Machine.servesNow
  rw [rangeDomains_congr h.winSize, h.asleep, h.behindWrite]
  exact hs

theorem exec_bar2Read_now {s : State} {a n : Nat} (ces : List (Nat × Nat)) (hs : s.barTakes = true) (hok : bar2Ok a n = true)
    (hreach : s.bar2Reaches (s.hif.bar2Base + a) n = true) (hnow : servesNow s (s.hif.bar2Base + a) n) :
    let x := s.hif.bar2Base + a
    let u := s.corrections ces x n
    exec (.bar2Read a n ces) s = .next (({ u with hif := { u.hif with reply := .data (s.readBytes x n) } } : State).touch (s.rangeDomains x n)) := by
  simp only [exec_bar2Read, execBar2Read, guarded, hok, if_true, bar2_of_takes _ _ _ hs, hreach, State.bar2ReadNow, reach_now _ _ hnow]

/-- The contests that a write loses count at its store alone. -/
def State.losses (s : State) (a n : Nat) : State := (List.range n).foldl (fun s _ => s.countLoss a false) s

theorem losses_eq (s : State) (a n : Nat) : s.losses a n = { s with clusters := (s.losses a n).clusters } := by
  unfold State.losses
  generalize List.range n = l
  induction l generalizing s with
  | nil => rfl
  | cons i l ih =>
    have hone : s.countLoss a false = { s with clusters := (s.countLoss a false).clusters } := by
      unfold State.countLoss
      split
      · rfl
      · rfl
    rw [List.foldl_cons, ih, hone]

theorem exec_bar2Write_now {s : State} {a losses : Nat} {b : Bytes} (ces : List (Nat × Nat)) (hs : s.barTakes = true) (hok : bar2Ok a b.length = true)
    (hreach : s.bar2Reaches (s.hif.bar2Base + a) b.length = true) (hnow : servesNow s (s.hif.bar2Base + a) b.length) :
    let x := s.hif.bar2Base + a
    exec (.bar2Write a b losses ces) s =
      .next ((((s.writeCorrections ces x b.length).writeBytes x b).losses x losses).touch (s.rangeDomains x b.length)) := by
  simp only [exec_bar2Write, execBar2Write, guarded, hok, if_true, bar2_of_takes _ _ _ hs, hreach, State.bar2WriteNow, reach_now _ _ hnow,
      State.losses]

/-- What is counted of the losses, and the timers that start again, change no byte. -/
theorem landed_sameBytes (s : State) (a n : Nat) (ds : List Nat) : sameBytes s ((s.losses a n).touch ds) := by
  intro y
  rw [sameButDomains_touch, losses_eq]
  rfl

theorem landed_readBytes (s : State) (a n : Nat) (ds : List Nat) (x len : Nat) : ((s.losses a n).touch ds).readBytes x len = s.readBytes x len :=
  List.map_congr_left fun i _ => landed_sameBytes s a n ds (x + i)

theorem writeCorrections_nil (s : State) (a n : Nat) : s.writeCorrections [] a n = s := rfl

/-- Settles O31: what a BAR2 access does to memory that serves, and when it waits or is refused. -/
theorem bar2ReachesMemory : Obligations.Bar2ReachesMemory := by
  unfold Obligations.Bar2ReachesMemory
  intro s a n losses b ces x ds hs hok hlen
  subst hlen
  refine ⟨fun hreach hawake hfirst => ?_, fun hreach hwait => ?_, fun hreach => ?_⟩
  · have hnow : servesNow s x b.length := ⟨hawake, hfirst⟩
    have logged (t : State) (h : sameButLog s t) : t.barTakes = true ∧ t.bar2Reaches (t.hif.bar2Base + a) b.length = true ∧
        servesNow t (t.hif.bar2Base + a) b.length := by
      rw [h.bar2Base]
      exact ⟨h.barTakes.trans hs, (h.bar2Reaches ..).trans hreach, h.servesNow hnow⟩
    refine ⟨⟨_, exec_bar2Read_now [] hs hok hreach hnow, ?_, ?_, ?_⟩, ?_, _, exec_bar2Write_now [] hs hok hreach hnow, ?_, ?_, ?_, ?_⟩
    · rw [sameButDomains_touch]
    · exact (sameButDomains_touch ..).sameBytes
    · rw [corrections_nil, sameButDomains_touch]
    · have h := sameButLog_corrections s ces x b.length
      obtain ⟨ht, hr, hn⟩ := logged _ h
      rw [exec_bar2Read_now ces hs hok hreach hnow, exec_bar2Read_now [] ht hok hr hn, h.bar2Base, corrections_nil, h.readBytes,
        rangeDomains_congr h.winSize]
    · rw [landed_readBytes]
      exact readBytes_writeBytes ..
    · exact fun y hy => (landed_sameBytes _ x losses ds y).trans (sameBytesBut_writeBytes s x b y hy)
    · rw [writeCorrections_nil, sameButDomains_touch, losses_eq, writeBytes_eq]
    · have h := sameButLog_writeCorrections s ces x b.length
      obtain ⟨ht, hr, hn⟩ := logged _ h
      rw [exec_bar2Write_now ces hs hok hreach hnow, exec_bar2Write_now [] ht hok hr hn, h.bar2Base, writeCorrections_nil,
          rangeDomains_congr h.winSize]
  · have hreach' : s.bar2Reaches (s.hif.bar2Base + a) b.length = true := hreach
    refine ⟨?_, ?_⟩
    · simp only [exec_bar2Read, execBar2Read, guarded, hok, if_true, bar2_of_takes _ _ _ hs, hreach', State.bar2ReadNow]
      exact congrArg _ (reach_later _ _ hwait)
    · simp only [exec_bar2Write, execBar2Write, guarded, hok, if_true, bar2_of_takes _ _ _ hs, hreach', State.bar2WriteNow]
      exact congrArg _ (reach_later _ _ hwait)
  · have hreach' : s.bar2Reaches (s.hif.bar2Base + a) b.length = false := hreach
    simp only [List.forall_mem_cons]
    refine ⟨?_, ?_, List.forall_mem_nil _⟩
    · simp only [exec_bar2Read, execBar2Read, guarded, hok, if_true, bar2_of_takes _ _ _ hs, hreach', Bool.false_eq_true, if_false]
      rfl
    · simp only [exec_bar2Write, execBar2Write, guarded, hok, if_true, bar2_of_takes _ _ _ hs, hreach', Bool.false_eq_true, if_false]
      rfl

end Sys2Proof.Machine
end

section
/-! SUPPORT. The PCIe function (19): configuration requests, the completions owed in D3hot, and the link. -/

namespace Sys2Proof.Machine

/-- The completions `l`, written one after the other. -/
def State.posts (s : State) (l : List (Nat × Record)) : State := l.foldl (fun s e => s.postRecord e.1 e.2) s

theorem posts_cons (s : State) (e : Nat × Record) (l : List (Nat × Record)) : s.posts (e :: l) = (s.postRecord e.1 e.2).posts l := rfl

/-- A record moves its ring's place and phase on, and leaves where the ring lies and whether it is enabled. -/
theorem postRecord_ring (s : State) (q : Nat) (r : Record) (p : Nat) :
    ((s.postRecord q r).cq p).base = (s.cq p).base ∧ ((s.postRecord q r).cq p).enable = (s.cq p).enable := by
  unfold State.postRecord State.cq
  dsimp only
  split
  · exact ⟨rfl, rfl⟩
  · dsimp only
    rw [SMap.get_set]
    split
    · rename_i h
      rw [h]
      exact ⟨rfl, rfl⟩
    · exact ⟨rfl, rfl⟩

theorem postRecord_hif (s : State) (q : Nat) (r : Record) : (s.postRecord q r).hif = { s.hif with posted := (s.postRecord q r).hif.posted } := by
  unfold State.postRecord
  dsimp only
  split
  · rfl
  · rfl

theorem posts_hif (s : State) (l : List (Nat × Record)) : (s.posts l).hif = { s.hif with posted := (s.posts l).hif.posted } := by
  induction l generalizing s with
  | nil => rfl
  | cons e l ih => rw [posts_cons, ih, postRecord_hif]

theorem posts_appends (s : State) (l : List (Nat × Record)) : ∃ ws, (s.posts l).hif.posted = s.hif.posted ++ ws := by
  induction l generalizing s with
  | nil => exact ⟨[], (List.append_nil _).symm⟩
  | cons e l ih =>
    obtain ⟨ws, hws⟩ := ih (s.postRecord e.1 e.2)
    rw [posts_cons, hws, postRecord_posted]
    split
    · exact ⟨_, List.append_assoc ..⟩
    · exact ⟨ws, rfl⟩

/-- Completion `i` of those written at enabled rings takes two posted writes at its ring, the record's first four bytes last. -/
theorem posts_writes (l : List (Nat × Record)) (s : State) (hen : ∀ e ∈ l, (s.cq e.1).enable = true) :
    (s.posts l).hif.posted.length = s.hif.posted.length + 2 * l.length ∧
      ∀ i e, l[i]? = some e → ∃ tail phase,
        let a := (s.cq e.1).base + tail * 32
        let n := s.hif.posted.length + 2 * i
        (s.posts l).hif.posted[n]? = some ⟨a + 4, (e.2.encode phase).drop 4⟩ ∧ (s.posts l).hif.posted[n + 1]? = some ⟨a,
            (e.2.encode phase).take 4⟩ := by
  induction l generalizing s with
  | nil => exact ⟨rfl, fun i e h => by simp at h⟩
  | cons x l ih =>
    rw [List.forall_mem_cons] at hen
    have hfirst : (s.postRecord x.1 x.2).hif.posted = s.hif.posted ++ x.2.writes (s.cq x.1) := (postRecord_posted ..).trans (if_pos hen.1)
    have hlen : (s.postRecord x.1 x.2).hif.posted.length = s.hif.posted.length + 2 := by
      rw [hfirst, List.length_append]
      rfl
    obtain ⟨hposted, hrest⟩ := ih (s.postRecord x.1 x.2) fun e he => (postRecord_ring ..).2.trans (hen.2 e he)
    rw [posts_cons]
    refine ⟨by rw [hposted, hlen, List.length_cons]; omega, fun i e h => ?_⟩
    cases i with
    | zero =>
      obtain rfl : x = e := by simpa using h
      obtain ⟨ws, hws⟩ := posts_appends (s.postRecord x.1 x.2) l
      refine ⟨(s.cq x.1).tail, (s.cq x.1).phase, ?_⟩
      rw [hws, hfirst, List.append_assoc]
      refine ⟨?_, ?_⟩
      · rw [List.getElem?_append_right (by omega)]
        simp [Record.writes]
      · rw [List.getElem?_append_right (by omega)]
        simp [Record.writes]
    | succ i =>
      obtain ⟨tail, phase, h0, h1⟩ := hrest i e (by simpa using h)
      refine ⟨tail, phase, ?_⟩
      rw [(postRecord_ring ..).1, hlen] at h0 h1
      have hi : s.hif.posted.length + 2 + 2 * i = s.hif.posted.length + 2 * (i + 1) := by omega
      rw [hi] at h0 h1
      exact ⟨h0, h1⟩

/-- The return to D0 writes the completions owed. -/
theorem exec_d0Return_of_d3hot {s : State} (hon : s.hifOn = true) (hd3 : s.hif.d3hot = true) :
    exec .d0Return s = .next (({ s with hif := { s.hif with d3hot := false, owed := [] } } : State).posts s.hif.owed) := by
  simp only [exec_d0Return, execD0Return, event, hon, hd3, Bool.and_self, if_true]
  rfl

/-- Settles O32: the function's configuration space, its low-power state, and its link. -/
theorem pcieFunction : Obligations.PcieFunction := by
  unfold Obligations.PcieFunction
  intro s off v speed width flit hon
  refine ⟨fun hok => ⟨⟨s.configWrite off v, ?_, rfl, ?_, fun o ho => ?_⟩, ?_⟩, ?_, fun hd3 => ⟨fun h m hw => ?_, fun q b st fl r woke head => ?_,
      fun howed => ?_, ?_⟩,
    fun h1 h4 hwidth => ⟨fun hmode => ?_, fun h4 hflit => ?_⟩, fun hbad => ?_⟩
  · simp [execConfigRequest, guarded, hok, hon]
  · exact SMap.find_put_same ..
  · exact SMap.find_put_other _ _ _ _ ho
  · simp [execConfigRequest, guarded, hok, hon]
  · simp [execD3hotEntry, event, hon]
  · simp [execSqEntryFetch, guarded, hw, hd3]
  · simp only [State.complete, hd3, if_true]
    exact ⟨_, rfl, rfl, rfl, rfl, rfl, rfl, rfl, rfl⟩
  · rw [exec_d0Return_of_d3hot hon hd3, howed]
    have hhif : ({ s.hif with d3hot := false, owed := [] } : Hif) = { s.hif with d3hot := false } := by rw [← howed]
    exact congrArg (fun h : Hif => Host.Outcome.next { s with hif := h }) hhif
  · refine ⟨_, exec_d0Return_of_d3hot hon hd3, ?_, ?_, posts_appends .., fun hen => posts_writes s.hif.owed _ hen⟩
    · rw [posts_hif]
    · rw [posts_hif]
  · have hlink : linkOk speed width = true := by simp_all [linkOk]
    have hgo : (s.hifOn && (speed != 4 || flit)) = true := by simpa [hon] using hmode
    simp only [exec_pcieLinkUp, execPcieLinkUp, hlink, event, hgo, Bool.not_true, Bool.false_eq_true, if_false, if_true]
  · have hlink : linkOk speed width = true := by simp_all [linkOk]
    subst h4
    simp [execPcieLinkUp, hlink, event, hflit]
  · have hlink : linkOk speed width = false := by
      simp only [linkOk, Bool.and_eq_false_iff, decide_eq_false_iff_not, List.contains_eq_mem]
      obtain h | h | h := hbad
      · omega
      · omega
      · exact .inr h
    simp [execPcieLinkUp, hlink]

end Sys2Proof.Machine
end

section
/-! SUPPORT. The supply, the start and the publications (02, 17): what each leaves. -/

namespace Sys2Proof.Machine

theorem exec_flannelEvent {s t : State} {c : Bool} {i : Instr} (h : exec i s = flannelEvent c s t) (hon : s.flannelOn = true) (hc : c = true) :
    exec i s = .next t := by
  rw [h, hc]
  simp [flannelEvent, event, hon]

/-! ### What a new envelope changes -/

/-- Nothing differs but the envelope, the ports and the power domains. -/
def sameButEnv (s t : State) : Prop := t = { s with env := t.env, ports := t.ports, domains := t.domains }

theorem sameButEnv.refl (s : State) : sameButEnv s s := rfl

theorem sameButEnv.trans {s t u : State} (h : sameButEnv s t) (g : sameButEnv t u) : sameButEnv s u := by
  unfold sameButEnv at *
  rw [g, h]

theorem sameButDomains.toEnv {s t : State} (h : sameButDomains s t) : sameButEnv s t := by
  unfold sameButEnv
  rw [h]

theorem sameButEnv_announceWidth (s : State) (p : Nat) : sameButEnv s (s.announceWidth p) := by
  unfold State.announceWidth
  dsimp only
  split
  · rfl
  · rfl

theorem sameButEnv_announceWidths (l : List Nat) (s : State) : sameButEnv s (l.foldl State.announceWidth s) := by
  induction l generalizing s with
  | nil => exact .refl s
  | cons p l ih => exact (sameButEnv_announceWidth s p).trans (ih _)

/-- The caps and rates of the target hold at once, and the engines that it turns off are allowed no more. -/
def State.capped (s : State) (t since : Nat) : State := { s with env := { s.env with
  phase := .falls, target := t, restart := false, startedAt := since, nearCap := min s.env.nearCap (envSet t).nearCap
  adders := min s.env.adders (envSet t).adders, engines := min s.env.engines (envSet t).engines } }

theorem beginFalls_eq (s : State) (t since : Nat) :
    s.beginFalls t since = ((List.range 8).foldl State.announceWidth (s.capped t since)).settleForces := rfl

theorem sameButEnv_capped (s : State) (t since : Nat) : sameButEnv s (s.capped t since) := rfl

theorem sameButEnv_beginFalls (s : State) (t since : Nat) : sameButEnv s (s.beginFalls t since) := by
  rw [beginFalls_eq]
  exact (sameButEnv_capped s t since).trans ((sameButEnv_announceWidths _ _).trans (sameButDomains_settleForces _).toEnv)

theorem sameButEnv_checkEnv (s : State) : sameButEnv s s.checkEnv := by
  unfold State.checkEnv
  dsimp only
  split
  · split
    · rfl
    · exact sameButEnv_beginFalls ..
  · split
    · rfl
    · rfl

/-! ### Domains that no request moves -/

/-- A domain that wakes from off, or is off with no request of the host. -/
def Domain.unmoved (x : Domain) : Prop := x.st = .wakeOff ∨ x.st = .off ∧ x.force < 2

theorem dom_sleep_other (s : State) {d e : Nat} (off : Bool) (h : d ≠ e) : (s.sleep e off).dom d = s.dom d := by
  rw [State.sleep, dom_setDom, if_neg h]

theorem dom_settleForce (s : State) {d : Nat} (e : Nat) (h : (s.dom d).unmoved) : (s.settleForce e).dom d = s.dom d := by
  by_cases hde : d = e
  · subst hde
    have hidle : s.domIdle d = false := by
      obtain h | ⟨h, -⟩ := h
      · simp [State.domIdle, h]
      · simp [State.domIdle, h]
    obtain h | ⟨h, hf⟩ := h
    · simp [State.settleForce, hidle, h]
    · have h2 : (s.dom d).force ≠ 2 := by omega
      have h3 : (s.dom d).force ≠ 3 := by omega
      simp [State.settleForce, h2, h3]
  · have hset (x : Domain) : (s.setDom e x).dom d = s.dom d := (dom_setDom s e d x).trans (if_neg hde)
    unfold State.settleForce
    dsimp only
    split
    · exact dom_sleep_other s false hde
    · split
      · exact dom_sleep_other s true hde
      · split
        · exact dom_sleep_other s true hde
        · split
          · exact hset _
          · split
            · exact hset _
            · rfl

theorem dom_turnOff (s : State) {d : Nat} (e : Nat) (h : (s.dom d).unmoved) : (s.turnOff e).dom d = s.dom d := by
  unfold State.turnOff
  split
  · rename_i hc
    refine dom_sleep_other s true fun hde => ?_
    subst hde
    obtain h | ⟨h, -⟩ := h
    · simp [h] at hc
    · simp [h] at hc
  · rfl

theorem dom_settleForces (s : State) {d : Nat} (h : (s.dom d).unmoved) : s.settleForces.dom d = s.dom d := by
  have hfold {α : Type} (f : State → α → State) (hf : ∀ s x, (s.dom d).unmoved → (f s x).dom d = s.dom d) (l : List α) (s : State)
      (h : (s.dom d).unmoved) : (l.foldl f s).dom d = s.dom d := by
    induction l generalizing s with
    | nil => rfl
    | cons x l ih =>
      have hx := hf s x h
      rw [List.foldl_cons, ih _ (hx ▸ h), hx]
  have hforces := hfold (fun s e => s.settleForce e.1) (fun s e => dom_settleForce s e.1) (s.domains.filter fun e => decide (2 ≤ e.2.force)) s h
  unfold State.settleForces
  rw [hfold (fun s e => s.turnOff (40 + e)) (fun s e => dom_turnOff s (40 + e)) (List.range 4) _ (hforces ▸ h), hforces]

theorem dom_announceWidths (l : List Nat) (s : State) (d : Nat) : (l.foldl State.announceWidth s).dom d = s.dom d := by
  induction l generalizing s with
  | nil => rfl
  | cons p l ih =>
    rw [List.foldl_cons, ih]
    unfold State.announceWidth
    dsimp only
    split
    · rfl
    · rfl

theorem dom_beginFalls (s : State) {d : Nat} (t since : Nat) (h : (s.dom d).unmoved) : (s.beginFalls t since).dom d = s.dom d := by
  have hc : (s.capped t since).dom d = s.dom d := rfl
  have hw := (dom_announceWidths (List.range 8) (s.capped t since) d).trans hc
  have hstill : (((List.range 8).foldl State.announceWidth (s.capped t since)).dom d).unmoved := by
    rw [hw]
    exact h
  rw [beginFalls_eq, dom_settleForces _ hstill, hw]

theorem dom_checkEnv (s : State) {d : Nat} (h : (s.dom d).unmoved) : s.checkEnv.dom d = s.dom d := by
  unfold State.checkEnv
  dsimp only
  split
  · split
    · rfl
    · exact dom_beginFalls s _ _ h
  · split
    · rfl
    · rfl

theorem unmoved_default (d : Nat) : (domainDefault d).unmoved := by
  unfold domainDefault
  right
  split
  · exact ⟨rfl, Nat.zero_lt_two⟩
  · split
    · exact ⟨rfl, Nat.zero_lt_two⟩
    · split
      · exact ⟨rfl, Nat.zero_lt_two⟩
      · split
        · exact ⟨rfl, Nat.zero_lt_two⟩
        · exact ⟨rfl, Nat.zero_lt_two⟩

/-- What a start sets before the envelope is looked at: the MP and PCIe domains wake, no other domain moves. -/
theorem beginStart_eq (s : State) (pr : Probe) : ∃ u : State,
    u = { s with
      up := true, probe := pr, startedAt := s.tick, startPhase := 0, refclkLost := u.refclkLost, onOsc := u.onOsc, nv := s.nv || decide (s.vin ≤ 6200)
      vin := 0, pin := 0, iin := 0, bootCount := (s.bootCount + 1) % 2 ^ 32, dramGen := s.dramGen + 1, mem := [], zeroed := []
      hif := s.hif.releaseBalls, domains := u.domains } ∧
    s.beginStart pr = u.checkEnv ∧ (u.dom 45).st = .wakeOff ∧ (u.dom 46).st = .wakeOff ∧ ∀ d, d ≠ 45 → d ≠ 46 → u.dom d = s.dom d := by
  unfold State.beginStart
  dsimp only
  refine ⟨_, ?_, rfl, ?_, ?_, fun d h45 h46 => ?_⟩
  · unfold State.strapClock
    split
    · rfl
    · rfl
  · rw [dom_setDom, if_neg (by decide), dom_setDom, if_pos rfl]
  · rw [dom_setDom, if_pos rfl]
  · rw [dom_setDom, if_neg h46, dom_setDom, if_neg h45]
    unfold State.strapClock
    split
    · rfl
    · rfl

/-- Settles O34: what a start, and the supply of the flannel domain, leave. -/
theorem startsAndPower : Obligations.StartsAndPower := by
  unfold Obligations.StartsAndPower
  intro s pr
  refine ⟨fun hw hon hup hpg hvin hmod hperst hends => ⟨s.beginStart pr, ?_, ?_⟩, fun hoff => ⟨{ s.unpowered with flannelOn := true, flashHeld :=
      !s.modResetN && s.xspiOwn }, ?_, rfl, rfl, rfl, rfl, rfl⟩,
    s.unpowered, rfl, rfl, rfl, rfl, rfl⟩
  · simp [execModuleStart, hw, event, State.mayBegin, hon, hup, hpg, hvin, hmod, hperst, hends]
  · obtain ⟨u, hu, heq, h45, h46, hother⟩ := beginStart_eq s pr
    rw [heq]
    have hframe := sameButEnv_checkEnv u
    have hdom {d : Nat} (h : (u.dom d).unmoved) := dom_checkEnv u h
    refine ⟨?_, ?_, ?_, ?_, ?_, ?_, fun d h45' h46' hd => ?_, ?_⟩
    · rw [hframe, hu]
    · rw [hframe, hu]
    · rw [hframe, hu]
    · rw [hframe, hu]
    · rw [hdom (.inl h45), h45]
    · rw [hdom (.inl h46), h46]
    · have hkept := (hother d h45' h46').trans hd
      rw [hdom (hkept ▸ unmoved_default d), hother d h45' h46']
    · rw [hframe, hu]
      exact ⟨rfl, rfl, rfl, rfl, rfl⟩
  · simp only [exec_flannelPowerUp, execFlannelPowerUp, event, hoff, Bool.not_false, if_true]

/-! ### Publications -/

theorem retireDone_attn (s : State) (i : Nat) (h : s.hif.attn.testBit i = true) :
    s.retireDone.calico = s.calico ∧ s.retireDone.hif.attn.testBit i = true := by
  unfold State.retireDone
  generalize (s.retire.busy && _) = due
  cases due with
  | false => exact ⟨rfl, h⟩
  | true =>
    refine ⟨rfl, ?_⟩
    simp [State.attn, Nat.testBit_or, h]

/-- Settles O35: what a publication takes, and what its end leaves. -/
theorem calicoPublishes : Obligations.CalicoPublishes := by
  unfold Obligations.CalicoPublishes
  intro s
  refine ⟨fun hdue => ⟨?_, ?_⟩, fun hodd => ⟨?_, _, rfl, ?_⟩⟩
  · simp only [State.publishDue, Bool.and_eq_true, beq_iff_eq] at hdue
    exact hdue.1.2
  · simp only [exec_calicoRepublish, execCalicoRepublish, event, hdue, if_true]
  · simp only [exec_calicoPublishEnd, execCalicoPublishEnd, event, hodd, beq_self_eq_true, if_true]
  · dsimp only
    have hset := attn_testBit ({ s with
      calico := { s.calico with generation := s.calico.generation + 1, evenTick := s.tick }
      startPhase := if s.startPhase = 2 then 3 else s.startPhase }) atCALICO
    obtain ⟨hcalico, hattn⟩ := retireDone_attn _ _ hset
    refine ⟨?_, ?_, ?_, hattn⟩
    · rw [hcalico]
      rfl
    · rw [hcalico]
      exact Nat.succ_mod_two_eq_zero_iff.mpr hodd
    · rw [hcalico]
      rfl

/-! ### Supply -/

/-- A change of the supply's state is noted in GBL_ATTN alone. -/
theorem noteSupply_eq (t s : State) : t.noteSupply s = { t with hif := { t.hif with
    attn := (t.noteSupply s).hif.attn, attnNow := (t.noteSupply s).hif.attnNow } } := by
  unfold State.noteSupply
  split
  · rfl
  · rfl

theorem noteSupply_noted (t s : State) (h : t.nv ≠ s.nv ∨ t.lowForced ≠ s.lowForced) (hup : t.up = true) :
    (t.noteSupply s).hif.attn.testBit atSUPPLY = true := by
  have hc : (t.up && (t.nv != s.nv || t.lowForced != s.lowForced || t.throttled != s.throttled)) = true := by
    obtain h | h := h
    · simp [hup, h]
    · simp [hup, h]
  rw [State.noteSupply, if_pos hc]
  exact attn_testBit ..

/-- Where nothing waits to write flash, sag cuts nothing. -/
theorem sagged_idle {s : State} (hd : s.dmk.waking = none) (hf : s.fw.waiting = none) (hp : s.log.persistBusy = false) : s.sagged = s := by
  simp [State.sagged, State.deferRun, hd, hf, hp]

/-- Settles O36: what each threshold of the supply changes. -/
theorem sagThresholds : Obligations.SagThresholds := by
  unfold Obligations.SagThresholds
  intro s vin hon noted
  refine ⟨fun hv hnv => ⟨_, State.noteSupply { s with vin := vin, nv := true } s, ?_, fun hup => ?_, noteSupply_eq .., rfl, fun hd hf hp => ?_⟩,
    fun hv hnv => ⟨_, State.noteSupply { s with vin := vin, nv := false, lowSag := false } s, ?_, fun hup => ?_, noteSupply_eq .., rfl⟩,
    fun hv hlow => ⟨_, State.noteSupply { s with vin := vin, nv := true, lowSag := true } s, ?_, fun h hup => ?_, noteSupply_eq .., rfl⟩,
    fun hv hlow => ⟨_, State.noteSupply { s with vin := vin, lowSag := false } s, ?_, fun h hup => ?_, noteSupply_eq .., rfl⟩⟩
  · exact exec_flannelEvent (exec_nvThresholdFall vin s) hon (by simp [hv, hnv])
  · exact noteSupply_noted _ _ (.inl (by simp [hnv])) hup
  · rw [noteSupply_eq]
    exact sagged_idle hd hf hp
  · exact exec_flannelEvent (exec_nvThresholdRise vin s) hon (by simp [hv, hnv])
  · exact noteSupply_noted _ _ (.inl (by simp [hnv])) hup
  · exact exec_flannelEvent (exec_lowThresholdFall vin s) hon (by simp [hv, hlow])
  · obtain h | h := h
    · exact noteSupply_noted _ _ (.inl (by simp [h])) hup
    · exact noteSupply_noted _ _ (.inr (by simp [State.lowForced, hlow, h])) hup
  · exact exec_flannelEvent (exec_lowThresholdRise vin s) hon (by simp [hv, hlow])
  · exact noteSupply_noted _ _ (.inr (by simp [State.lowForced, hlow, h])) hup

end Sys2Proof.Machine
end

section
/-! SUPPORT. Samples of the flannel domain (17, 20): throttling, the clock, a tick and its pins, temperatures and the flash bus. -/

namespace Sys2Proof.Machine

/-! ### What the start of the units leaves -/

/-- Nothing differs but what the MP does with records, marks and retired pages, and what a start finds and wakes. -/
def sameButUnits (s t : State) : Prop :=
  t = { s with
    log := t.log, hif := { s.hif with attn := t.hif.attn, attnNow := t.hif.attnNow }, clusters := t.clusters, flash := t.flash, calico := t.calico
    deferred := t.deferred, draws := t.draws, nearStacks := t.nearStacks, tiers := t.tiers, startPhase := t.startPhase, domains := t.domains
    swapped := t.swapped, absent := t.absent, spareCores := t.spareCores, remaps := t.remaps, engineMap := t.engineMap, engines := t.engines
    mem := t.mem }

theorem sameButUnits.refl (s : State) : sameButUnits s s := rfl

theorem sameButUnits.trans {s t u : State} (h : sameButUnits s t) (g : sameButUnits t u) : sameButUnits s u := by
  unfold sameButUnits at *
  rw [g, h]

theorem sameButUnits.foldl {α : Type} {f : State → α → State} (hf : ∀ s x, sameButUnits s (f s x)) (l : List α) (s : State) :
    sameButUnits s (l.foldl f s) := by
  induction l generalizing s with
  | nil => exact .refl s
  | cons x l ih => exact (hf s x).trans (ih _)

theorem sameButWakes.toUnits {s t : State} (h : sameButWakes s t) : sameButUnits s t := by
  unfold sameButUnits
  rw [h]

theorem sameButLog.toUnits {s t : State} (h : sameButLog s t) : sameButUnits s t := by
  unfold sameButUnits
  rw [h]

theorem sameButUnits_logMark (s : State) (r : FaultRec) (kind : Nat) : sameButUnits s (s.logMark r kind) := (sameButLog_logFault ..).toUnits

theorem sameButUnits_setMarks (s : State) (m : Marks) : sameButUnits s (s.setMarks m) := rfl

theorem sameButUnits_calicoDirty (s : State) : sameButUnits s s.calicoDirty := rfl

theorem sameButUnits_markCluster (s : State) (r : FaultRec) : sameButUnits s (s.markCluster r) := by
  unfold State.markCluster
  dsimp only
  split
  · rfl
  · exact ((sameButUnits_setMarks ..).trans (sameButUnits_logMark ..)).trans (sameButUnits_calicoDirty _)

theorem sameButUnits_markWord (s : State) (r : FaultRec) : sameButUnits s (s.markWord r) := by
  have hword (ws : List (Nat × Nat × Nat)) : sameButUnits s { s with flash := { s.flash with remaps := ws } } := rfl
  unfold State.markWord
  dsimp only
  split
  · split
    · exact sameButUnits_markCluster ..
    · rfl
  · split
    · exact sameButUnits_markCluster ..
    · refine sameButUnits.trans ?_ (sameButUnits_calicoDirty _)
      split
      · exact hword _
      · exact (hword _).trans (sameButUnits_logMark ..)

theorem sameButUnits_markEngine (s : State) (r : FaultRec) : sameButUnits s (s.markEngine r) := by
  unfold State.markEngine
  dsimp only
  split
  · rfl
  · exact (sameButUnits_setMarks ..).trans (sameButUnits_logMark ..)

theorem sameButUnits_markPseudo (s : State) (r : FaultRec) : sameButUnits s (s.markPseudo r) := by
  unfold State.markPseudo
  dsimp only
  split
  · rfl
  · exact (sameButUnits_setMarks ..).trans (sameButUnits_logMark ..)

theorem sameButUnits_actOn (s : State) (r : FaultRec) : sameButUnits s (s.actOn r) := by
  unfold State.actOn
  dsimp only
  split
  · split
    · exact sameButUnits_markWord ..
    · rfl
  · split
    · rfl
    · split
      · exact sameButUnits_markCluster ..
      · split
        · exact sameButUnits_markEngine ..
        · split
          · exact sameButUnits_markPseudo ..
          · rfl

theorem sameButUnits_actOrDefer (s : State) (r : FaultRec) : sameButUnits s (s.actOrDefer r) := by
  unfold State.actOrDefer
  split
  · exact sameButUnits_actOn ..
  · split
    · rfl
    · rfl

theorem sameButUnits_actOnRecords (s : State) (all : Bool) : sameButUnits s (s.actOnRecords all) := .foldl sameButUnits_actOrDefer _ s

theorem sameButUnits_deferPersist (s : State) : sameButUnits s s.deferPersist := by
  unfold State.deferPersist
  split
  · split
    · rfl
    · rfl
  · rfl

theorem sameButUnits_persistStart (s : State) : sameButUnits s s.persistStart := by
  have hlog (t : State) (l : FaultLog) : sameButUnits t { t with log := l } := rfl
  unfold State.persistStart
  dsimp only
  refine sameButUnits.trans ?_ (hlog _ _)
  split
  · exact (hlog s _).trans (sameButUnits_deferPersist _)
  · exact hlog s _

theorem sameButUnits_removePages (s : State) (k : Nat) : sameButUnits s (s.removePages k) := by
  have hflash (t : State) (f : Flash) : sameButUnits t { t with flash := f } := rfl
  have hdraw (t : State) : sameButUnits t t.draw.2 := rfl
  have hlogged (f : State → Nat → State) (hf : ∀ t p, ∃ id detail, f t p = t.draw.2.logFault id 1 k detail) (l : List Nat) :
      sameButUnits s (l.foldl f s) := by
    refine .foldl (fun t p => ?_) l s
    obtain ⟨id, detail, h⟩ := hf t p
    rw [h]
    exact (hdraw t).trans (sameButLog_logFault ..).toUnits
  unfold State.removePages
  dsimp only
  split
  · exact (hlogged _ (fun _ _ => ⟨_, _, rfl⟩) _).trans (hflash _ _)
  · exact ((hlogged _ (fun _ _ => ⟨_, _, rfl⟩) _).trans (hflash _ _)).trans (sameButUnits_calicoDirty _)

theorem sameButUnits_startStack (s : State) (k : Nat) : sameButUnits s (s.startStack k) := by
  have hstack (m : SMap Stack) : sameButUnits s { s with nearStacks := m } := rfl
  unfold State.startStack
  dsimp only
  split
  · exact hstack _
  · split
    · rfl
    · exact (hstack _).trans (sameButUnits_removePages ..)

theorem sameButUnits_startEngine (s : State) (e : Nat) : sameButUnits s (s.startEngine e) := by
  unfold State.startEngine
  dsimp only
  split
  · rfl
  · rfl

theorem sameButUnits_startMarks (s : State) : sameButUnits s s.startMarks := by
  have hremaps (t : State) (m : List ((Nat × Nat × Nat) × Nat)) : sameButUnits t { t with remaps := m } := rfl
  unfold State.startMarks
  dsimp only
  exact (((sameButWakes.foldl sameButWakes_swapCluster _ s).toUnits.trans (sameButWakes.foldl sameButWakes_swapCores _ _).toUnits).trans
    (.foldl sameButUnits_startEngine _ _)).trans (hremaps _ _)

theorem sameButUnits_unitStart (s : State) : sameButUnits s s.unitStart := by
  have htiers (t : State) : sameButUnits t t.startTiers := rfl
  have hphase (t : State) : sameButUnits t { t with startPhase := 2 } := rfl
  unfold State.unitStart
  dsimp only
  exact ((((((sameButUnits_persistStart s).trans (sameButUnits_actOnRecords ..)).trans (.foldl sameButUnits_startStack _ _)).trans (htiers _)).trans
    (sameButUnits_startMarks _)).trans (sameButWakes_wakeAll ..).toUnits).trans (hphase _)

/-! ### A tick -/

/-- A PERMUTE whose bucket has drained in time is noted so. -/
def State.noteDrained (s : State) (d : Desc) : Desc := if dType d.bytes = tyPERMUTE ∧ s.drainedInTime d = true then { d with inTime := true } else d

theorem portsTick_eq (s : State) : s.portsTick = { s with ports := s.portsTick.ports } := by
  have hfold (l : List Nat) (t : State) : l.foldl State.portTick t = { t with ports := (l.foldl State.portTick t).ports } := by
    induction l generalizing t with
    | nil => rfl
    | cons p l ih =>
      have hone : t.portTick p = { t with ports := (t.portTick p).ports } := rfl
      rw [List.foldl_cons, ih, hone]
  exact hfold _ s

theorem stageTick_eq (s : State) : s.stageTick = { s with shard := { s.shard with stall := s.stageTick.shard.stall } } := by
  have hfold (l : List (Nat × Nat)) (t : State) :
      l.foldl State.countStall t = { t with shard := { t.shard with stall := (l.foldl State.countStall t).shard.stall } } := by
    induction l generalizing t with
    | nil => rfl
    | cons e l ih =>
      have hone : t.countStall e = { t with shard := { t.shard with stall := (t.countStall e).shard.stall } } := rfl
      rw [List.foldl_cons, ih, hone]
  exact hfold _ s

theorem slotTicks_eq (s : State) : s.slotTicks = { s with recal := s.slotTicks.recal } := by
  have hfold (f : State → Nat × Recal → State) (hf : ∀ t e, f t e = { t with recal := (f t e).recal }) (l : List (Nat × Recal)) (t : State) :
      l.foldl f t = { t with recal := (l.foldl f t).recal } := by
    induction l generalizing t with
    | nil => rfl
    | cons e l ih => rw [List.foldl_cons, ih, hf]
  exact hfold _ (fun _ _ => rfl) _ s

/-- The state in which a tick's units start: what counts ticks has counted one, and the PERMUTEs drained in time are noted. -/
def State.ticked (s : State) : State := { s.portsTick.stageTick.slotTicks.leaveTick with tick := s.tick + 1 }

theorem ticked_eq (s : State) : s.ticked = { s with
    descs := s.descs.map s.noteDrained, ports := s.portsTick.ports, shard := { s.shard with stall := s.ticked.shard.stall }, recal := s.ticked.recal
    tick := s.tick + 1 } := by
  have hbefore : s.portsTick.stageTick.slotTicks = { s with
      ports := s.portsTick.ports, shard := { s.shard with stall := s.portsTick.stageTick.slotTicks.shard.stall }
      recal := s.portsTick.stageTick.slotTicks.recal } := by
    rw [slotTicks_eq, stageTick_eq, portsTick_eq]
  unfold State.ticked State.leaveTick
  rw [hbefore]
  rfl

theorem exec_flannelTick_eq {s : State} (y : Sample) (hon : s.flannelOn = true) :
    exec (.flannelTick y) s = .next (((s.ticked.startUnits.linkErrors y.link).samplePins y).sample y) :=
  exec_flannelEvent (exec_flannelTick y s) hon rfl

theorem startUnits_later {s : State} (h : s.startPhase ≠ 1) : s.startUnits = s := by
  simp [State.startUnits, h]

theorem sameButUnits_startUnits (s : State) : sameButUnits s s.startUnits := by
  unfold State.startUnits
  split
  · exact sameButUnits_unitStart s
  · rfl

theorem linkErrors_eq (s : State) (es : List Nat) :
    s.linkErrors es = { s with hif := if s.hifOn then (es.filter isLinkEvent).foldl Hif.aerNote s.hif else s.hif } := by
  unfold State.linkErrors
  split
  · rfl
  · rfl

/-! ### The reset inputs -/

/-- An input that samples as it is stays. -/
theorem settled_same (last now : Bool) : settled last now now = now := by
  cases last <;> cases now <;> rfl

/-- An assertion is effective in the second of two samples. -/
theorem settled_low (last : Bool) : settled last false true = last := by
  cases last <;> rfl

/-- Inputs whose sample changes none of them reset nothing. -/
theorem samplePins_still {s : State} {y : Sample} (hp : settled s.pinSample.1 y.perstN s.perstN = s.perstN)
    (hm : settled s.pinSample.2.1 y.modResetN s.modResetN = s.modResetN) (hv : settled s.pinSample.2.2 y.vinPg s.vinPg = s.vinPg) :
    s.samplePins y = { s with pinSample := (y.perstN, y.modResetN, y.vinPg), flashHeld := !s.modResetN && s.xspiOwn } := by
  have hnot (b : Bool) : (b && !b) = false := by cases b <;> rfl
  simp only [State.samplePins, hp, hm, hv, hnot, Bool.false_eq_true, if_false]
  rfl

/-- After a reset the module is not started, and its sequence takes 500 ticks. -/
theorem moduleReset_off {s : State} (last dt : Nat) (c : Bool) (hon : s.flannelOn = true) :
    (s.moduleReset last dt c).up = false ∧ (s.moduleReset last dt c).resetEnds = s.tick + 500 := by
  unfold State.moduleReset
  rw [if_neg (by simp [hon])]
  cases hup : s.up with
  | true => exact ⟨rfl, rfl⟩
  | false => exact ⟨hup, rfl⟩

/-- What one input's sample does when the two others sample as they are: `low` is what its assertion makes of it. -/
structure Sampled (s t : State) (last level : Bool) : Prop where
  kept : last = true → level = true ∧ t.up = s.up
  low : last = false → level = false ∧ t.up = false ∧ t.resetEnds = s.tick + 500

section
variable {s : State} {y : Sample} (hon : s.flannelOn = true)
include hon

theorem samplePins_perstN (hlow : y.perstN = false) (hp : s.perstN = true) (hm : y.modResetN = s.modResetN) (hv : y.vinPg = s.vinPg) :
    Sampled s (s.samplePins y) s.pinSample.1 (s.samplePins y).perstN := by
  have hnot (b : Bool) : (b && !b) = false := by cases b <;> rfl
  simp only [State.samplePins, State.settleBus, hlow, hp, hm, hv, settled_same, settled_low, hnot, Bool.false_eq_true, if_false]
  refine ⟨fun h => ?_, fun h => ?_⟩
  · simp [h]
  · simp only [h, Bool.not_false, Bool.and_self, if_true]
    exact ⟨trivial, moduleReset_off _ _ _ hon⟩

theorem samplePins_modResetN (hlow : y.modResetN = false) (hm : s.modResetN = true) (hp : y.perstN = s.perstN) (hv : y.vinPg = s.vinPg) :
    Sampled s (s.samplePins y) s.pinSample.2.1 (s.samplePins y).modResetN := by
  have hnot (b : Bool) : (b && !b) = false := by cases b <;> rfl
  simp only [State.samplePins, State.settleBus, hlow, hp, hm, hv, settled_same, settled_low, hnot, Bool.false_eq_true, if_false]
  refine ⟨fun h => ?_, fun h => ?_⟩
  · simp [h]
  · simp only [h, Bool.not_false, Bool.and_self, if_true]
    exact ⟨trivial, moduleReset_off _ _ _ hon⟩

theorem samplePins_vinPg (hlow : y.vinPg = false) (hv : s.vinPg = true) (hp : y.perstN = s.perstN) (hm : y.modResetN = s.modResetN) :
    Sampled s (s.samplePins y) s.pinSample.2.2 (s.samplePins y).vinPg := by
  have hnot (b : Bool) : (b && !b) = false := by cases b <;> rfl
  simp only [State.samplePins, State.settleBus, hlow, hp, hm, hv, settled_same, settled_low, hnot, Bool.false_eq_true, if_false]
  refine ⟨fun h => ?_, fun h => ?_⟩
  · simp [h]
  · simp only [h, Bool.not_false, Bool.and_self, if_true]
    exact ⟨trivial, moduleReset_off _ _ _ hon⟩

end

/-- What the sample of the reset inputs sees of a tick: the inputs and their last sample as they were, one tick later. -/
theorem pins_of_tick (s : State) (es : List Nat) :
    let v := s.ticked.startUnits.linkErrors es
    v.flannelOn = s.flannelOn ∧ v.perstN = s.perstN ∧ v.modResetN = s.modResetN ∧ v.vinPg = s.vinPg ∧ v.pinSample = s.pinSample := by
  dsimp only
  rw [linkErrors_eq, sameButUnits_startUnits, ticked_eq]
  exact ⟨rfl, rfl, rfl, rfl, rfl⟩

/-- A tick outside the start of the units, as the sample of the reset inputs sees it. -/
theorem linkErrors_of_tick {s : State} (es : List Nat) (h : s.startPhase ≠ 1) : s.ticked.startUnits.linkErrors es = { s with
    descs := s.descs.map s.noteDrained, ports := s.portsTick.ports, shard := { s.shard with stall := s.ticked.shard.stall }, recal := s.ticked.recal
    tick := s.tick + 1, hif := if s.hifOn then (es.filter isLinkEvent).foldl Hif.aerNote s.hif else s.hif } := by
  have hphase : s.ticked.startPhase ≠ 1 := by
    rw [ticked_eq]
    exact h
  rw [startUnits_later hphase, linkErrors_eq, ticked_eq]
  rfl

theorem throttle_noted {s t : State} (h : t.throttled ≠ s.throttled) (hup : t.up = true) : (t.noteSupply s).hif.attn.testBit atSUPPLY = true := by
  have hc : (t.up && (t.nv != s.nv || t.lowForced != s.lowForced || t.throttled != s.throttled)) = true := by simp [hup, h]
  rw [State.noteSupply, if_pos hc]
  exact attn_testBit ..

/-- Settles O37: what each sample of the flannel domain changes. -/
theorem sensorsAndPins : Obligations.SensorsAndPins := by
  unfold Obligations.SensorsAndPins
  intro s x y level writes hon noted low
  have now {i : Instr} {c : Bool} {t : State} (h : exec i s = flannelEvent c s t) (hc : c = true) : exec i s = .next t := exec_flannelEvent h hon hc
  have never {i : Instr} {c : Bool} {t : State} (h : exec i s = flannelEvent c s t) (hc : c = false) : exec i s = .next s := by
    simp [h, hc, flannelEvent, event]
  refine ⟨fun hup hth hx => ?_, fun hup hth hrun hx => ?_, fun h => ?_, fun hth hrun hp hi => ?_, fun h => ?_, fun h => ?_, fun ho hc hr => ?_,
    fun hr => ?_, fun hp hm hv hphase => ?_, fun hlow hp hm hv hphase => ?_, fun hlow hp hm hv hphase => ?_, fun hlow hp hm hv hphase => ?_, ?_,
    fun hx => ?_, fun hx => ?_, fun hx hl => ?_, fun hx hl => ?_, fun h => ?_⟩
  · refine ⟨_, now (exec_throttleCurrent x s) (by simp [hup, hth, hx]), fun hup => throttle_noted (by simp [hth]) hup, ?_⟩
    unfold State.throttle
    rw [noteSupply_eq]
  · refine ⟨_, now (exec_throttlePower x s) (by simp [hup, hth, hrun, hx]), fun hup => throttle_noted (by simp [hth]) hup, ?_⟩
    unfold State.throttle
    rw [noteSupply_eq]
  · refine never (exec_throttlePower x s) ?_
    obtain h | h := h
    · simp [Nat.not_le.mpr h]
    · simp [Nat.not_lt.mpr h]
  · refine ⟨_, now (exec_throttleEnd y.pin y.iin s) (by simp [hth, hrun, calm, hp, hi]), fun hup => throttle_noted (by simp [hth]) hup, ?_⟩
    rw [noteSupply_eq]
  · refine never (exec_throttleEnd y.pin y.iin s) ?_
    obtain h | h | h := h
    · simp [Nat.not_le.mpr h]
    · simp [calm, Nat.not_lt.mpr h]
    · simp [calm, Nat.not_lt.mpr h]
  · exact now (exec_refclkLost s) (by simp [h])
  · exact now (exec_refclkRestore s) (by simp [ho, hc, hr])
  · exact never (exec_refclkRestore s) (by simp [Nat.not_le.mpr hr])
  · refine ⟨_, exec_flannelTick_eq y hon, ?_⟩
    rw [linkErrors_of_tick _ hphase, samplePins_still (by rw [hp]; exact settled_same ..) (by rw [hm]; exact settled_same ..)
      (by rw [hv]; exact settled_same ..)]
    refine ⟨rfl, rfl, rfl, rfl, rfl, ?_, rfl, rfl, rfl⟩
    simp [State.sample, calm]
  · refine ⟨_, exec_flannelTick_eq y hon, ?_⟩
    rw [linkErrors_of_tick _ hphase]
    obtain ⟨hkept, hreset⟩ := samplePins_perstN (s := { s with descs := _, ports := _, shard := _, recal := _, tick := s.tick + 1, hif :=
        _ }) hon hlow hp hm hv
    exact ⟨hkept, hreset⟩
  · refine ⟨_, exec_flannelTick_eq y hon, ?_⟩
    rw [linkErrors_of_tick _ hphase]
    obtain ⟨hkept, hreset⟩ := samplePins_modResetN (s := { s with descs := _, ports := _, shard := _, recal := _, tick := s.tick + 1, hif :=
        _ }) hon hlow hp hm hv
    exact ⟨hkept, hreset⟩
  · refine ⟨_, exec_flannelTick_eq y hon, ?_⟩
    rw [linkErrors_of_tick _ hphase]
    obtain ⟨hkept, hreset⟩ := samplePins_vinPg (s := { s with descs := _, ports := _, shard := _, recal := _, tick := s.tick + 1, hif :=
        _ }) hon hlow hp hm hv
    exact ⟨hkept, hreset⟩
  · obtain ⟨-, hp, hm, hv, hs⟩ := pins_of_tick s y.link
    refine ⟨_, exec_flannelTick_eq y hon, rfl, ?_, ?_, ?_⟩
    · rw [← hp, ← hs]
      simp [State.sample, State.samplePins, State.settleBus, settled]
    · rw [← hm, ← hs]
      simp [State.sample, State.samplePins, State.settleBus, settled]
    · rw [← hv, ← hs]
      simp [State.sample, State.samplePins, State.settleBus, settled]
  · exact now (exec_thermAlertAssert x s) (by simp [hx])
  · exact now (exec_thermAlertRelease x s) (by simp [hx])
  · refine ⟨_, now (exec_thermalForceLow x s) (by simp [hx, hl]), _, rfl, fun hsag hup => ?_, noteSupply_eq ..⟩
    exact noteSupply_noted _ _ (.inr (by simp [State.lowForced, hl, hsag])) hup
  · refine ⟨_, now (exec_thermalForceRelease x s) (by simp [hx, hl]), _, rfl, fun hsag hup => ?_, noteSupply_eq ..⟩
    exact noteSupply_noted _ _ (.inr (by simp [State.lowForced, hl, hsag])) hup
  · obtain h | h := h
    · simp [execXspiOwnChange, h]
    · simp [execXspiOwnChange, h]

end Sys2Proof.Machine
end

section
/-! SUPPORT. Module resets (16, 17): the completions written first, the power-down, and what a fatal reset adds. -/

namespace Sys2Proof.Machine

/-! ### The completions of a reset -/

/-- The records written change their rings and what is posted alone. -/
theorem posts_eq (s : State) (l : List (Nat × Record)) :
    s.posts l = { s with cqs := (s.posts l).cqs, hif := { s.hif with posted := (s.posts l).hif.posted } } := by
  induction l generalizing s with
  | nil => rfl
  | cons e l ih =>
    have hone : s.postRecord e.1 e.2 = { s with
        cqs := (s.postRecord e.1 e.2).cqs, hif := { s.hif with posted := (s.postRecord e.1 e.2).hif.posted } } := by
      unfold State.postRecord
      dsimp only
      split
      · rfl
      · rfl
    rw [posts_cons, ih, hone]

theorem posts_append (s : State) (l m : List (Nat × Record)) : s.posts (l ++ m) = (s.posts l).posts m := List.foldl_append ..

theorem status_of_owedTo {s : State} {c t : Nat} {r : Record} (h : r ∈ s.owedTo c t) : r.status = stFATAL_PENDING := by
  simp only [State.owedTo, List.mem_append, List.mem_filterMap] at h
  obtain ⟨d, -, h⟩ | ⟨q, -, h⟩ := h
  · split at h
    · split at h
      · rw [← Option.some.inj h]
        rfl
      · contradiction
    · contradiction
  · split at h
    · split at h
      · rw [← Option.some.inj h]
        rfl
      · contradiction
    · contradiction

/-- What a reset writes before it acts: records with FATAL_PENDING. -/
theorem writeFatalPending_eq_posts {u : State} (dt : Nat) (h : u.hif.d3hot = false) :
    ∃ rs : List (Nat × Record), (∀ e ∈ rs, e.2.status = stFATAL_PENDING) ∧ u.writeFatalPending dt = u.posts rs := by
  have hfold (t : Nat) (cs : List Nat) (v : State) : ∃ rs : List (Nat × Record), (∀ e ∈ rs, e.2.status = stFATAL_PENDING) ∧
      cs.foldl (fun s c => (s.owedTo c t).foldl (fun s r => s.postRecord c r) s) v = v.posts rs := by
    induction cs generalizing v with
    | nil => exact ⟨[], List.forall_mem_nil _, rfl⟩
    | cons c cs ih =>
      obtain ⟨rs, hrs, heq⟩ := ih ((v.owedTo c t).foldl (fun s r => s.postRecord c r) v)
      have hring : (v.owedTo c t).foldl (fun s r => s.postRecord c r) v = v.posts ((v.owedTo c t).map (Prod.mk c)) := by
        rw [State.posts, List.foldl_map]
      refine ⟨(v.owedTo c t).map (Prod.mk c) ++ rs, fun e he => ?_, ?_⟩
      · rw [List.mem_append, List.mem_map] at he
        obtain ⟨r, hr, rfl⟩ | he := he
        · exact status_of_owedTo hr
        · exact hrs e he
      · rw [List.foldl_cons, heq, posts_append, hring]
  unfold State.writeFatalPending
  rw [if_neg (by simp [h])]
  exact hfold _ _ u

theorem writeFatalPending_d3hot {u : State} (dt : Nat) (h : u.hif.d3hot = true) : u.writeFatalPending dt = u := if_pos h

theorem writeFatalPending_eq (s : State) (dt : Nat) : s.writeFatalPending dt = { s with
    cqs := (s.writeFatalPending dt).cqs, hif := { s.hif with posted := (s.writeFatalPending dt).hif.posted } } := by
  cases hd : s.hif.d3hot with
  | true =>
    rw [writeFatalPending_d3hot dt hd]
  | false =>
    obtain ⟨rs, -, h⟩ := writeFatalPending_eq_posts dt hd
    rw [h, posts_eq]

/-! ### The reset -/

/-- The state that a reset powers down: the completions are written, where it writes any. -/
def State.completed (s : State) (dt : Nat) (c : Bool) : State := if c then s.writeFatalPending dt else s

theorem completed_eq (s : State) (dt : Nat) (c : Bool) : s.completed dt c = { s with
    cqs := (s.completed dt c).cqs, hif := { s.hif with posted := (s.completed dt c).hif.posted } } := by
  cases c with
  | true => exact writeFatalPending_eq s dt
  | false => rfl

/-- What a reset leaves, `posted` in front of the host, under the reset cause `last`. -/
structure ResetLeaves (s t : State) (last : Nat) (posted : List Posted) : Prop where
  up : t.up = false
  log : t.log = { s.log with lastReset := last, persistBusy := false }
  tick : t.tick = s.tick
  flash : t.flash = if s.up then s.flash.cutPage s.log.persistBusy else s.flash
  resetEnds : t.resetEnds = s.tick + 500
  gone : s.up = true → (∀ d, t.dom d = domainDefault d) ∧ t.descs = [] ∧ t.clusters = [] ∧ t.mem = [] ∧ t.hif.posted = posted
  pins : t.perstN = s.perstN ∧ t.modResetN = s.modResetN ∧ t.vinPg = s.vinPg ∧ t.xspiOwn = s.xspiOwn
  supply : t.nv = s.nv ∧ t.lowSag = s.lowSag ∧ t.vin = s.vin
  aer : s.up = true → t.hif.aer = s.hif.aer ∧ t.hif.messages = s.hif.messages ∧
    t.hif.config = s.hif.config.filter fun e => [aerUncMask, aerUncSeverity, aerCorMask].contains (aerOffset e.1)

theorem moduleReset_leaves {s : State} (last dt : Nat) (c : Bool) (hon : s.flannelOn = true) :
    ResetLeaves s (s.moduleReset last dt c) (s.resetCause last) (s.completed dt c).hif.posted := by
  have hc : (if c then s.writeFatalPending dt else s) = s.completed dt c := rfl
  unfold State.moduleReset
  rw [if_neg (by simp [hon]), hc, completed_eq]
  cases hup : s.up with
  | true => exact ⟨rfl, rfl, rfl, by rw [hup]; rfl, rfl, fun _ => ⟨fun _ => rfl, rfl, rfl, rfl, rfl⟩, ⟨rfl, rfl, rfl, rfl⟩, ⟨rfl, rfl, rfl⟩,
      fun _ => ⟨rfl, rfl, rfl⟩⟩
  | false => exact ⟨hup, rfl, rfl, by rw [hup]; rfl, rfl, fun h => absurd (hup ▸ h) (by decide), ⟨rfl, rfl, rfl, rfl⟩, ⟨rfl, rfl, rfl⟩,
    fun h => absurd (hup ▸ h) (by decide)⟩

theorem resetCause_first {s : State} (last : Nat) (h : s.resetEnds ≠ s.tick + 500) : s.resetCause last = last := if_neg h

/-! ### The records of a fatal reset -/

/-- Nothing differs but the records of the log, where the next one goes, and the log's bit of GBL_ATTN. -/
def sameButRecords (s t : State) : Prop :=
  t = { s with
    log := { s.log with slots := t.log.slots, writeIndex := t.log.writeIndex, lastSeq := t.log.lastSeq, overwrote := t.log.overwrote
                        overwritten := t.log.overwritten }
    hif := { s.hif with attn := t.hif.attn, attnNow := t.hif.attnNow } }

theorem sameButRecords.refl (s : State) : sameButRecords s s := rfl

theorem sameButRecords.trans {s t u : State} (h : sameButRecords s t) (g : sameButRecords t u) : sameButRecords s u := by
  unfold sameButRecords at *
  rw [g, h]

theorem sameButRecords.foldl {α : Type} {f : State → α → State} (hf : ∀ s x, sameButRecords s (f s x)) (l : List α) (s : State) :
    sameButRecords s (l.foldl f s) := by
  induction l generalizing s with
  | nil => exact .refl s
  | cons x l ih => exact (hf s x).trans (ih _)

theorem sameButRecords_logFault (s : State) (f : FaultId) (severity phys detail : Nat) (beacons : Bool) :
    sameButRecords s (s.logFault f severity phys detail beacons) := by
  unfold State.logFault
  split
  · split
    · rfl
    · rfl
  · rfl

theorem sameButRecords_logErrors (s : State) (m : Option MemorySec) (errs : List (FaultId × Nat × Nat)) : sameButRecords s (s.logErrors m errs) := by
  unfold State.logErrors
  exact (sameButRecords.foldl (fun _ _ => sameButRecords_logFault ..) _ s).trans (.foldl (fun _ _ => sameButRecords_logFault ..) _ _)

/-! ### A fatal reset -/

/-- The registers of AER stand through a reset. -/
theorem aerReg_filter {h g : Hif} {reg : Nat} (hreg : [aerUncMask, aerUncSeverity, aerCorMask].contains reg = true)
    (hg : g.config = h.config.filter fun e => [aerUncMask, aerUncSeverity, aerCorMask].contains (aerOffset e.1)) : g.aerReg reg = h.aerReg reg := by
  have hkept (m : SMap Nat) : SMap.find? (m.filter fun e => [aerUncMask, aerUncSeverity, aerCorMask].contains (aerOffset e.1)) (aerBase + reg) =
      SMap.find? m (aerBase + reg) := by
    induction m with
    | nil => rfl
    | cons e m ih =>
      by_cases he : e.1 = aerBase + reg
      · have hoff : aerOffset e.1 = reg := by simp [aerOffset, he, Nat.le_add_right_of_le aerBase_ge]
        rw [List.filter_cons_of_pos (by rw [hoff]; exact hreg), SMap.find?, SMap.find?, if_pos he, if_pos he]
      · rw [List.filter_cons]
        split
        · rw [SMap.find?, SMap.find?, if_neg he, if_neg he, ih]
        · rw [SMap.find?, if_neg he, ih]
  rw [Hif.aerReg, Hif.aerReg, hg, hkept]

theorem aerMessage_internal (h : Hif) : h.aerMessage aeINTERNAL =
    if (h.aerReg aerUncMask).testBit 22 then none else if (h.aerReg aerUncSeverity).testBit 22 then some 2 else some 1 := rfl

/-- What a fatal reset leaves: LAST_RESET, no hand-over block, and ERR_FATAL after what it has written. -/
structure FatalLeaves (s t : State) : Prop where
  up : t.up = false
  lastReset : t.log.lastReset = lrFATAL
  handover : t.handover = none
  aer : t.hif.aer = s.hif.aer ++ [aeINTERNAL]
  messages : t.hif.messages = s.hif.messages ++ (s.hif.aerMessage aeINTERNAL).toList.map fun m => (m, t.hif.posted.length)
  tick : t.tick = s.tick
  flash : t.flash = if s.up then s.flash.cutPage s.log.persistBusy else s.flash

theorem resetCause_fatal (s : State) : s.resetCause lrFATAL = lrFATAL := by
  unfold State.resetCause
  split
  · exact if_pos (.inl rfl)
  · rfl

theorem aerNote_internal (h : Hif) : (h.aerNote aeINTERNAL).aer = h.aer ++ [aeINTERNAL] ∧ (h.aerNote aeINTERNAL).posted = h.posted ∧
    (h.aerNote aeINTERNAL).messages = h.messages ++ (h.aerMessage aeINTERNAL).toList.map fun m => (m, h.posted.length) := ⟨rfl, rfl, rfl⟩

/-- A fatal reset of a started module whose records have been written. -/
theorem fatalReset_leaves {s v : State} (dt : Nat) (hv : sameButRecords s v) (hon : s.flannelOn = true) (hup : s.up = true) :
    FatalLeaves s (v.fatalReset dt) ∧ (v.fatalReset dt).log.slots = v.log.slots ∧
        (v.fatalReset dt).hif.posted = (v.writeFatalPending dt).hif.posted := by
  have hvon : v.flannelOn = true := by rw [hv]; exact hon
  have hvup : v.up = true := by rw [hv]; exact hup
  obtain ⟨up, log, tick, flash, -, gone, -, -, kept⟩ := moduleReset_leaves (s := v) lrFATAL dt true hvon
  obtain ⟨-, -, -, -, posted⟩ := gone hvup
  unfold State.fatalReset
  rw [if_pos hvup]
  dsimp only
  obtain ⟨haer, hposted, hmessages⟩ := aerNote_internal (v.moduleReset lrFATAL dt true).hif
  obtain ⟨hold, hsent, hconfig⟩ := kept hvup
  have hmessage : (v.moduleReset lrFATAL dt true).hif.aerMessage aeINTERNAL = v.hif.aerMessage aeINTERNAL := by
    rw [aerMessage_internal, aerMessage_internal, aerReg_filter rfl hconfig, aerReg_filter rfl hconfig]
  refine ⟨⟨up, ?_, rfl, ?_, ?_, ?_, ?_⟩, ?_, ?_⟩
  · rw [log, resetCause_fatal]
  · rw [haer, hold, hv]
  · rw [hmessages, hsent, hmessage, hposted, hv]
    rfl
  · rw [tick, hv]
  · rw [flash, hv]
  · rw [log]
  · rw [hposted, posted]
    rfl

/-- A reset of this tick that becomes a fatal one. -/
theorem becomesFatal_leaves {s : State} (errs : List (FaultId × Nat × Nat)) (hup : s.up = false) : FatalLeaves s (s.becomesFatal errs) := by
  have hframe := sameButRecords_logErrors s s.resetMemory errs
  unfold State.becomesFatal
  dsimp only
  rw [hframe]
  refine ⟨hup, rfl, rfl, rfl, rfl, rfl, ?_⟩
  rw [hup]
  rfl

theorem logErrors_slots {s : State} {m : Option MemorySec} {errs : List (FaultId × Nat × Nat)} (h : ∀ e ∈ errs, e.1.kind ≠ fkCE) :
    s.logErrors m errs = ((errs.filter fun e => isUncorrectable e.1.kind).mergeSort fun a b => decide (a.2.1 ≤ b.2.1)).foldl
      (fun s e => s.logFatal (e.1, e.2.1, errorDetail m e.1 e.2.2)) s := by
  have hnone : (errs.filter fun e => e.1.kind == fkCE && errorDetail m e.1 e.2.2 % 4 != 2) = [] := by
    rw [List.filter_eq_nil_iff]
    intro e he
    simp [h e he]
  rw [State.logErrors, hnone]
  rfl

/-- Settles O33: what each reset writes first and what it leaves. -/
theorem moduleResets : Obligations.ModuleResets := by
  unfold Obligations.ModuleResets
  refine ⟨fun s dt vin hon hends => ?_, fun f => rfl, fun s errs port linkState dt hon => ?_⟩
  · intro off
    have hoff {t : State} {last : Nat} {c : Bool} (h : ResetLeaves s t (s.resetCause last) (s.completed dt c).hif.posted) :
        off (s.completed dt c) t last := by
      rw [resetCause_first last hends] at h
      exact ⟨h.up, h.log, h.tick, h.flash, h.resetEnds, h.gone⟩
    have hleaves (last : Nat) (c : Bool) := moduleReset_leaves (s := s) last dt c hon
    refine ⟨⟨_, exec_hotReset dt s, hoff (hleaves lrPERST false), (hleaves lrPERST false).pins.1⟩, ⟨_, exec_perstNAssert dt s, ?_, rfl⟩,
      ⟨_, exec_modResetNAssert dt s, ?_, rfl, rfl⟩, ⟨_, exec_vinPgDeassert dt s, ?_, rfl⟩, fun hvin => ?_⟩
    · exact hoff (hleaves lrPERST false)
    · obtain ⟨up, log, tick, flash, ends, gone⟩ := hoff (hleaves lrMOD_RESET true)
      exact ⟨up, log, tick, flash, ends, gone⟩
    · obtain ⟨up, log, tick, flash, ends, gone⟩ := hoff (hleaves lrSHUTDOWN true)
      exact ⟨up, log, tick, flash, ends, gone⟩
    · have h := moduleReset_leaves (s := { s with vin := vin, nv := true, lowSag := true }) lrSHUTDOWN dt true hon
      obtain ⟨hnv, hsag, hvin'⟩ := h.supply
      refine ⟨_, exec_flannelEvent (exec_supplyShutdown vin dt s) hon (by simp [hvin]), ?_, hnv, hsag, hvin'⟩
      rw [resetCause_first (s := { s with vin := vin, nv := true, lowSag := true }) _ hends] at h
      exact ⟨h.up, h.log, h.tick, h.flash, h.resetEnds, h.gone⟩
  · intro es fatal sec logged down
    have hfatal {t : State} (h : FatalLeaves s t) : fatal t := ⟨h.up, h.lastReset, h.handover, h.aer, h.messages, h.tick, h.flash⟩
    have hsome (h : es ≠ []) : (errs.all fun e => !isUncorrectable e.1.kind) = false := by
      rw [Bool.eq_false_iff]
      intro hall
      refine h ?_
      have hnil : (errs.filter fun e => isUncorrectable e.1.kind) = [] := by
        rw [List.filter_eq_nil_iff]
        intro e he
        simpa using List.all_eq_true.mp hall e he
      simp only [es, hnil, List.mergeSort_nil]
    have hhere (hends : s.resetEnds = s.tick + 500) (hlast : s.log.lastReset ≠ lrFATAL) : s.resetHere = true := by
      simp [State.resetHere, hon, hends, hlast]
    refine ⟨fun hup hes => ?_, fun hup hends hlast hes => ?_, fun hup hends hlast hport => ?_, fun hup hport => ?_, fun u hu => ?_,
      fun u hu => writeFatalPending_d3hot dt hu⟩
    · obtain ⟨hleaves, hslots, hposted⟩ := fatalReset_leaves dt (sameButRecords_logErrors s sec errs) hon hup
      refine ⟨_, ?_, hfatal hleaves, hslots, hposted, fun hce => ?_⟩
      · simp only [exec_uncorrectableError, execUncorrectableError, hsome hes, hup, Bool.false_eq_true, if_false, if_true]
        rfl
      · rw [hslots, logErrors_slots hce]
    · refine ⟨s.becomesFatal errs, ?_, hfatal (becomesFatal_leaves errs hup)⟩
      simp only [exec_uncorrectableError, execUncorrectableError, hsome hes, hup, event, hhere hends hlast, Bool.false_eq_true, if_false, if_true]
    · refine ⟨s.becomesFatal [({ down with subject := s.resetNode }, port, linkState)], ?_, hfatal (becomesFatal_leaves _ hup)⟩
      simp only [exec_farLinkDown, execFarLinkDown, guarded, hport, hup, hhere hends hlast, Bool.false_eq_true, if_false, if_true]
      rfl
    · obtain ⟨hleaves, hslots, hposted⟩ := fatalReset_leaves dt (sameButRecords_logFault s down 3 port linkState false) hon hup
      refine ⟨_, ?_, hfatal hleaves, hslots, hposted⟩
      simp only [exec_farLinkDown, execFarLinkDown, guarded, hport, hup, if_true]
      rfl
    · obtain ⟨rs, hrs, h⟩ := writeFatalPending_eq_posts dt hu
      exact ⟨rs, hrs, by rw [h]; rfl⟩

end Sys2Proof.Machine
end

section
/-! SUPPORT. The test port and the I3C port (19), and the fault log (16). -/

namespace Sys2Proof.Machine

/-! ### The test port and the I3C port -/

theorem loadIr_eq {s : State} (ir : Nat) (r : Reply) (hon : s.flannelOn = true) :
    s.loadIr ir r = { s with hif := { s.hif with jtagIr := ir, test := r } } :=
  if_pos hon

theorem loadDriving_eq {s : State} (ir : Nat) (hon : s.flannelOn = true) : s.loadDriving ir =
    { s with hif := { s.hif with jtagIr := if s.modResetN = false ∧ s.vinPg = true then ir else irBYPASS, test := .ackd } } := by
  rw [State.loadDriving, loadIr_eq _ _ hon]
  cases s.modResetN <;> cases s.vinPg <;> rfl

theorem i3cAnswer_eq {s : State} (r : Reply) (hon : s.flannelOn = true) : s.i3cAnswer r = { s with hif := { s.hif with i3c := r } } := if_pos hon

theorem i3cTo_own (s t : State) : s.i3cTo none t = t := if_pos rfl

theorem i3cTo_other {s : State} {a : Nat} (t : State) (h : s.hif.i3cDyn.getD 0x2C ≠ a) : s.i3cTo (some a) t = s := if_neg (Ne.symm h)

theorem assignDynamic_free {s : State} (a : Nat) (hon : s.flannelOn = true) (h : s.hif.i3cDyn = none) :
    s.assignDynamic a = { s with hif := { s.hif with i3cDyn := some a, i3c := .ackd } } := by
  simp [State.assignDynamic, hon, h]

theorem assignDynamic_held {s : State} (a : Nat) (h : s.hif.i3cDyn ≠ none) : s.assignDynamic a = s := by
  have hsome : s.hif.i3cDyn.isNone = false := by
    cases hd : s.hif.i3cDyn with
    | none => contradiction
    | some x => rfl
  simp [State.assignDynamic, hsome]

/-- The provisioned ID with the weight of its manufacturer code left open: a weight that stays a variable keeps the product from being
computed when the definition is unfolded. -/
def provisionedIdAt (weight : Nat) : Nat := Config.deviceStep.toNat + 0xF512 * 2 ^ 16 + Config.manufacturerCode.toNat * weight

theorem provisionedId_eq_at : provisionedId = provisionedIdAt (2 ^ 32) := rfl

theorem provisionedIdAt_eq (weight : Nat) :
    provisionedIdAt weight = Config.deviceStep.toNat + 0xF512 * 2 ^ 16 + Config.manufacturerCode.toNat * weight := rfl

/-- Settles O38: what each port takes and answers. -/
theorem testAndI3cPorts : Obligations.TestAndI3cPorts := by
  unfold Obligations.TestAndI3cPorts
  refine ⟨fun s cells hon => ?_, fun s off a b hon => ?_⟩
  · intro ir
    have hload (i : Instr) (code : Nat) (r : Reply) (hi : exec i s = .next (s.loadIr code r)) : ir i code :=
      ⟨_, hi.trans (congrArg _ (loadIr_eq code r hon)), rfl⟩
    have hdrives (i : Instr) (code : Nat) (hi : exec i s = .next (s.loadDriving code)) :
        ir i (if s.modResetN = false ∧ s.vinPg = true then code else irBYPASS) :=
      ⟨_, hi.trans (congrArg _ (loadDriving_eq code hon)), rfl⟩
    refine ⟨hload _ _ .ackd rfl, ⟨hload _ _ _ rfl, _, congrArg Host.Outcome.next (loadIr_eq irIDCODE (.value (BitVec.ofNat 64 idcodeValue)) hon),
        rfl⟩, hload _ _ _ rfl,
      ⟨{ s with
          draws := s.draws + 1
          hif := { s.hif with jtagIr := irSAMPLE, boundary := s.hif.shiftCells cells, test := .data (sampledBytes s.draws) } },
        ?_, rfl⟩, fun hm hv => ?_, fun h => ?_⟩
    · rw [exec_samplePreload, execSamplePreload, event, if_pos hon, loadIr_eq _ _ hon]
      rfl
    · have hboth : s.modResetN = false ∧ s.vinPg = true := ⟨hm, hv⟩
      have he := hdrives .extest irEXTEST rfl
      have hc := hdrives .clamp irCLAMP rfl
      have hz := hdrives .highz irHIGHZ rfl
      rw [if_pos hboth] at he hc hz
      exact ⟨he, hc, hz⟩
    · have hnot : ¬(s.modResetN = false ∧ s.vinPg = true) := by
        rintro ⟨hm, hv⟩
        simp [hm, hv] at h
      have he := hdrives .extest irEXTEST rfl
      have hc := hdrives .clamp irCLAMP rfl
      have hz := hdrives .highz irHIGHZ rfl
      rw [if_neg hnot] at he hc hz
      exact ⟨he, hc, hz⟩
  intro answers
  refine ⟨fun hoff => ⟨fun hreg h8 => ?_, fun h8 => ?_, fun y ha hy => ?_, fun y ha hne => ⟨?_, ?_⟩, fun h0 hb => ?_, fun h => ?_⟩,
    fun hok => ⟨fun hnone => ?_, fun hsome => ?_, fun t ht => ?_⟩, ?_, ?_, ?_⟩
  · have h32 : off < 4294967296 := hoff
    simp [execI3cRead, guarded, h32, i3cTo_own, hreg, h8, i3cAnswer_eq _ hon]
  · have h32 : off < 4294967296 := hoff
    simp [answers, execI3cRead, guarded, h32, i3cTo_own, h8, i3cAnswer_eq _ hon]
  · have hbad : (regOffOk off && off % 8 == 0 && y.cmd.getD 1 == 1 && y.len == 8) = false := by
      obtain hy | hy := hy
      · simp [hy]
      · simp [hy]
    simp only [answers, exec_i3cRead, execI3cRead, guarded, hoff, decide_true, ha, i3cTo_own, hbad, i3cAnswer_eq _ hon, Bool.false_eq_true,
        if_true, if_false]
  · have h32 : off < 4294967296 := hoff
    simp [execI3cRead, guarded, h32, ha, i3cTo_other _ hne]
  · have h32 : off < 4294967296 := hoff
    simp [execI3cWrite, guarded, h32, ha, i3cTo_other _ hne]
  · subst h0
    simp [execI3cWrite, guarded, i3cTo_own, hb, hon, i3cAnswer_eq _ hon]
  · have hbad : ¬(off = 0x220008 ∧ b.length = 8 ∧ (none : Option Nat).getD 2 = 2) := by
      rintro ⟨h0, hb, -⟩
      simp [h0, hb] at h
    simp only [answers, exec_i3cWrite, execI3cWrite, guarded, hoff, decide_true, i3cTo_own, i3cAnswer_eq _ hon, if_true]
    rw [if_neg hbad]
  · simp [execEntdaa, execSetdasa, guarded, hok, assignDynamic_free a hon hnone]
  · simp [execEntdaa, execSetdasa, guarded, hok, assignDynamic_held a hsome]
  · simp [execSetdasa, guarded, hok, ht]
  · simp [execRstdaa, event, hon]
  · dsimp only [answers]
    rw [exec_getpid, execGetpid, i3cTo_own, i3cAnswer_eq _ hon, provisionedId_eq_at, provisionedIdAt_eq]
  · simp [answers, execGetbcr, execGetdcr, execGetstatus, execGetmxds, i3cTo_own, i3cAnswer_eq _ hon]

/-! ### The fault log -/

theorem sameButLog.sameBytes {s t : State} (h : sameButLog s t) : sameBytes s t := by
  rw [h]
  exact fun _ => rfl

theorem sameButLog.flash {s t : State} (h : sameButLog s t) : t.flash = s.flash := by rw [h]

/-- The record of a fault in the window of now. -/
def State.holdsNow (s : State) (f : FaultId) (e : Nat × FaultRec) : Bool := e.2.fid == f && windowOf e.2.tick == windowOf s.tick

theorem holdsNow_iff {s : State} {f : FaultId} {e : Nat × FaultRec} :
    s.holdsNow f e = true ↔ e.2.fid = f ∧ e.2.tick / 25000 = s.tick / 25000 := by
  simp [State.holdsNow, windowOf]

/-- A fault with no record in the window of now writes one. -/
theorem logFault_new {s : State} {f : FaultId} (sev phys det : Nat) (h : s.faultSlot f = none) :
    s.logFault f sev phys det = s.appendFault {
      fid := f, role := 0, severity := sev, phys := phys, count := 1, tick := s.tick, origin := s.node
      reporter := s.node, bootCount := s.bootCount, seq := 0, detail := BitVec.ofNat 64 det } := by
  rw [State.logFault, h]
  rfl

/-- A fault whose record stands in the window of now counts there. -/
theorem logFault_counts {s : State} {f : FaultId} {i : Nat} {r : FaultRec} (sev phys det : Nat) (h : s.faultSlot f = some i)
    (hr : SMap.find? s.log.slots i = some r) : s.logFault f sev phys det =
      { s with log := { s.log with slots := SMap.put s.log.slots i { r with count := min (r.count + 1) 0xFFFFFFFF } } } := by
  rw [State.logFault, h]
  dsimp only
  rw [hr]

/-- Settles O39: a detection counts in its window's record, or writes a new one. -/
theorem faultsAreLogged : Obligations.FaultsAreLogged := by
  unfold Obligations.FaultsAreLogged
  intro s f sev phys det t now
  have hframe : sameButLog s t := sameButLog_logFault ..
  refine ⟨hframe.sameBytes, hframe.flash, fun hnone => ?_, fun i r hslots hnow => ?_, fun ⟨e, he, hnow⟩ => ?_⟩
  · have hslot : s.faultSlot f = none := by
      rw [State.faultSlot, Option.map_eq_none_iff, List.find?_eq_none]
      exact fun e he h => hnone e he (holdsNow_iff.mp h)
    have ht : t = s.appendFault _ := logFault_new sev phys det hslot
    rw [ht]
    exact ⟨_, SMap.find_put_same .., rfl, rfl, rfl, rfl, rfl, rfl, rfl, rfl, rfl, rfl, attn_testBit ..⟩
  · have hslot : s.faultSlot f = some i := by
      have hhold : (r.fid == f && windowOf r.tick == windowOf s.tick) = true := holdsNow_iff (e := (i, r)).mpr hnow
      rw [State.faultSlot, hslots, List.find?_cons]
      dsimp only
      rw [hhold]
      rfl
    refine (logFault_counts sev phys det hslot (r := r) ?_).trans ?_
    · rw [hslots, SMap.find?, if_pos rfl]
    · rw [hslots, SMap.put, if_pos rfl]
  · have hsome : (List.find? (s.holdsNow f) s.log.slots).isSome = true := by
      rw [List.find?_isSome]
      exact ⟨e, he, holdsNow_iff.mpr hnow⟩
    obtain ⟨⟨i, r⟩, hfind⟩ := Option.isSome_iff_exists.mp hsome
    have hslot : s.faultSlot f = some i := congrArg (Option.map Prod.fst) hfind
    exact ⟨i, r, hslot, List.mem_of_find?_eq_some hfind, holdsNow_iff.mp (List.find?_some hfind), logFault_counts sev phys det hslot⟩

end Sys2Proof.Machine
end

section
/-! SUPPORT. FORCE of a power domain (17). -/

namespace Sys2Proof.Machine

/-! ### A map set twice at one key -/

theorem SMap.put_put {α : Type} (m : SMap α) (k : Nat) (v w : α) : SMap.put (SMap.put m k v) k w = SMap.put m k w := by
  induction m with
  | nil => simp [SMap.put]
  | cons e m ih =>
    obtain ⟨i, x⟩ := e
    rcases lt_trichotomy k i with h | h | h
    · simp [SMap.put, h, Nat.ne_of_gt h]
    · simp [SMap.put, h]
    · simp [SMap.put, ih, Nat.lt_asymm h, Nat.ne_of_lt h]

theorem SMap.erase_put {α : Type} (m : SMap α) (k : Nat) (v : α) : SMap.erase (SMap.put m k v) k = SMap.erase m k := by
  induction m with
  | nil => simp [SMap.put, SMap.erase]
  | cons e m ih =>
    obtain ⟨i, x⟩ := e
    rcases lt_trichotomy k i with h | h | h
    · simp [SMap.put, SMap.erase, h, Nat.ne_of_gt h]
    · simp [SMap.put, SMap.erase, h]
    · simpa [SMap.put, SMap.erase, Nat.lt_asymm h, Nat.ne_of_lt h] using ih

theorem SMap.set_set {α : Type} [DecidableEq α] {d v : α} (m : SMap α) (k : Nat) (w : α) (h : v ≠ d) :
    SMap.set d (SMap.set d m k v) k w = SMap.set d m k w := by
  simp only [SMap.set, if_neg h, SMap.put_put, SMap.erase_put]

/-! ### FORCE -/

/-- No domain's timers begin with a FORCE. -/
theorem force_domainDefault (d : Nat) : (domainDefault d).force = 0 := by
  unfold domainDefault
  repeat' split
  all_goals rfl

theorem setDom_setDom (s : State) (d : Nat) {x : Domain} (y : Domain) (h : x.force ≠ 0) : (s.setDom d x).setDom d y = s.setDom d y :=
  congrArg (fun m => { s with domains := m })
    (SMap.set_set s.domains d y fun hx => h ((congrArg Domain.force hx).trans (force_domainDefault d)))

/-- The domain after a write that sets FORCE to `f`. -/
def Domain.forced (x : Domain) (w : Wr) (f : Nat) : Domain :=
  { x with force := f, retainAfter := w.upd 16 16 x.retainAfter, offAfter := w.upd 32 32 x.offAfter }

theorem writeDomCtrl_44_46 {s : State} {d : Nat} (w : Wr) (h : 44 ≤ d ∧ d ≤ 46) : s.writeDomCtrl d w = s := if_pos h

theorem writeDomCtrl_eq {s : State} {d f : Nat} {w : Wr} (h : ¬(44 ≤ d ∧ d ≤ 46)) (hf : w.get? 0 2 = some f) :
    s.writeDomCtrl d w =
      let u := s.setDom d ((s.dom d).forced w f)
      match (some f : Option Nat) with
      | some 1 => u.wake d
      | some 2 => u.settleForce d
      | some 3 => u.settleForce d
      | _ => u := by
  simp only [State.writeDomCtrl, if_neg h, upd_of_get? _ hf]
  rw [hf]
  rfl

theorem dom_sleep_self (s : State) (d : Nat) (off : Bool) : ((s.sleep d off).dom d).st = (if off then .toOff else .toRetain) ∧
    ((s.sleep d off).dom d).force = if 2 ≤ (s.dom d).force then 0 else (s.dom d).force := by
  simp [State.sleep, dom_setDom]

/-- A domain that FORCE 2 or 3 puts to sleep is on its way, with FORCE 0 again, and no other domain differs. -/
theorem goes_of_sleep {s : State} {d : Nat} {x : Domain} (off : Bool) (h : 2 ≤ x.force) :
    let t := (s.setDom d x).sleep d off
    (t.dom d).st = (if off then .toOff else .toRetain) ∧ (t.dom d).force = 0 ∧ ∀ e, e ≠ d → t.dom e = s.dom e := by
  obtain ⟨hst, hforce⟩ := dom_sleep_self (s.setDom d x) d off
  refine ⟨hst, ?_, fun e he => ?_⟩
  · simpa [dom_setDom, h] using hforce
  · rw [dom_sleep_other _ off he, dom_setDom, if_neg he]

section
variable {s : State} {d : Nat}

theorem settleForce_retain (hf : (s.dom d).force = 2) (hi : s.domIdle d = true) : s.settleForce d = s.sleep d false := by
  simp [State.settleForce, hf, hi]

theorem settleForce_off (hf : (s.dom d).force = 3) (hi : s.domIdle d = true ∨ (s.dom d).st = .retain) : s.settleForce d = s.sleep d true := by
  rcases hi with hi | hi <;> simp [State.settleForce, hf, hi]

/-- FORCE 2 or 3 of a domain that is on and not idle stands until it is. -/
theorem settleForce_busy (hst : (s.dom d).st = .on) (hi : s.domIdle d = false) : s.settleForce d = s := by
  simp [State.settleForce, hst, hi]

theorem domIdle_of_st (hst : (s.dom d).st ≠ .on) : s.domIdle d = false := by
  simp [State.domIdle, hst]

theorem settleForce_met (h : (s.dom d).force = 2 ∧ ((s.dom d).st = .retain ∨ (s.dom d).st = .off) ∨ (s.dom d).force = 3 ∧ (s.dom d).st = .off) :
    s.settleForce d = s.setDom d { s.dom d with force := 0 } := by
  rcases h with ⟨hf, hst | hst⟩ | ⟨hf, hst⟩ <;>
    simp [State.settleForce, hf, hst, domIdle_of_st (s := s) (d := d) (by simp [hst])]

theorem wake_envOff (h : s.envOff d = true) : s.wake d = s := by
  simp [State.wake, h]

end

/-- Settles O30: FORCE acts through `writeDomCtrl`, and what it asks of the domain is settled at once where the domain's state allows. -/
theorem forceMovesDomains : Obligations.ForceMovesDomains := by
  unfold Obligations.ForceMovesDomains
  intro s d w hb hd x u goes
  have hx (f : Nat) : (u f).dom d = x.forced w f := by simp [u, dom_setDom, Domain.forced]
  have hrun {i : Instr} {t : State} (f : Nat) (h : exec i s = guarded (domainOk d) (s.bar0 (if w.get? 0 2 = some f then s.writeDomCtrl d w else s)))
      (hf : w.get? 0 2 = some f) (ht : s.writeDomCtrl d w = t) : exec i s = .next t := by
    rw [h, if_pos hf, bar0_of_takes _ hb, ht, guarded, if_pos hd]
  have hmet {f : Nat} (hf : f ≠ 0) : (u f).setDom d { x.forced w f with force := 0 } = u 0 := setDom_setDom s d _ hf
  refine ⟨fun hne => ⟨fun hf => ?_, fun hf => ⟨?_, fun he => wake_envOff he⟩, fun hf => ⟨?_, ?_⟩, fun hf hi => ?_, fun hf hst hi => ?_,
    fun hf hst => ?_, fun hf hi => ?_, fun hf hst hi => ?_, fun hf hst => ?_⟩, fun h44 h46 => ?_⟩
  · exact hrun 0 rfl hf (writeDomCtrl_eq hne hf)
  · exact hrun 1 rfl hf (writeDomCtrl_eq hne hf)
  · simp [execDomainRetainTimeout, guarded, hd, show (s.dom d).force = 1 from hf]
  · simp [execDomainOffTimeout, guarded, hd, show (s.dom d).force = 1 from hf]
  · refine ⟨(u 2).sleep d false, hrun 2 rfl hf ((writeDomCtrl_eq hne hf).trans (settleForce_retain ?_ hi)), goes_of_sleep false (Nat.le_refl 2)⟩
    exact congrArg Domain.force (hx 2)
  · exact hrun 2 rfl hf ((writeDomCtrl_eq hne hf).trans (settleForce_busy ((congrArg Domain.st (hx 2)).trans hst) hi))
  · refine hrun 2 rfl hf ((writeDomCtrl_eq hne hf).trans ((settleForce_met (s := u 2) (.inl ?_)).trans ?_))
    · rw [hx]
      exact ⟨rfl, hst⟩
    · rw [hx]
      exact hmet (by decide)
  · refine ⟨(u 3).sleep d true, hrun 3 rfl hf ((writeDomCtrl_eq hne hf).trans (settleForce_off ?_ ?_)), goes_of_sleep true (Nat.le_succ 2)⟩
    · exact congrArg Domain.force (hx 3)
    · exact hi.imp_right (congrArg Domain.st (hx 3)).trans
  · exact hrun 3 rfl hf ((writeDomCtrl_eq hne hf).trans (settleForce_busy ((congrArg Domain.st (hx 3)).trans hst) hi))
  · refine hrun 3 rfl hf ((writeDomCtrl_eq hne hf).trans ((settleForce_met (s := u 3) (.inr ?_)).trans ?_))
    · rw [hx]
      exact ⟨rfl, hst⟩
    · rw [hx]
      exact hmet (by decide)
  · simp [execForcePolicy, execForceOn, execForceRetain, execForceOff, guarded, hd, bar0_of_takes _ hb, writeDomCtrl_44_46 w ⟨h44, h46⟩]

end Sys2Proof.Machine
end

section
/-! SUPPORT. Correctable errors, the scrubber and persistence (16). -/

namespace Sys2Proof.Machine

/-! ### What the logging of a correctable error changes -/

theorem clusters_logFault (s : State) (f : FaultId) (sev phys det : Nat) : (s.logFault f sev phys det).clusters = s.clusters := by
  cases h : s.faultSlot f with
  | none =>
    rw [logFault_new sev phys det h]
    rfl
  | some i =>
    simp only [State.logFault, h]
    split <;> rfl

theorem cluster_logFault (s : State) (f : FaultId) (sev phys det n : Nat) : (s.logFault f sev phys det).cluster n = s.cluster n := by
  rw [State.cluster, clusters_logFault, State.cluster]

/-- The code that protects a place of unit `u`. -/
def State.unitCode (s : State) (u loc : Nat) : Nat := if u < 524 then 0 else s.codeOf loc

/-- The state with the record of a correctable error at `loc` of unit `u`. -/
def State.ceLogged (s : State) (u loc det : Nat) : State :=
  s.logFault { kind := fkCE, subject := s.node, unit := scrubUnit u, location := loc } 1 (s.scrubPhys u loc) (det / 4 * 4 + s.unitCode u loc)

/-- A store's cluster counts the error and names its bank. -/
def Cluster.countCe (c : Cluster) (loc : Nat) : Cluster := { c with ceCount := min (c.ceCount + 1) 0xFFFF, ceLastBank := bankOf loc }

section
variable {s : State} {u loc : Nat} (det : Nat)

theorem correctedAt_parity (h : s.unitCode u loc = 2) : s.correctedAt u loc det = s := if_pos h

theorem correctedAt_store (h : u < 512) :
    s.correctedAt u loc det = (s.ceLogged u loc det).setCluster u ((s.ceLogged u loc det).cluster u |>.countCe loc) := by
  have hcode : s.unitCode u loc = 0 := if_pos (by omega)
  have hne : s.unitCode u loc ≠ 2 := by omega
  exact (if_neg hne).trans (if_pos h)

theorem correctedAt_memory (hne : s.unitCode u loc ≠ 2) (h : ¬u < 512) : s.correctedAt u loc det = s.ceLogged u loc det :=
  (if_neg hne).trans (if_neg h)

theorem log_correctedAt (hne : s.unitCode u loc ≠ 2) : (s.correctedAt u loc det).log = (s.ceLogged u loc det).log := by
  by_cases h : u < 512
  · rw [correctedAt_store det h]
    rfl
  · rw [correctedAt_memory det hne h]

theorem cluster_ceLogged (s : State) (u loc det n : Nat) : (s.ceLogged u loc det).cluster n = s.cluster n := cluster_logFault ..

theorem cluster_correctedAt_store (h : u < 512) : (s.correctedAt u loc det).cluster u = (s.cluster u).countCe loc := by
  rw [correctedAt_store det h, cluster_setCluster, if_pos rfl, cluster_ceLogged]

theorem cluster_correctedAt_other {n : Nat} (h : n ≠ u) : (s.correctedAt u loc det).cluster n = s.cluster n := by
  by_cases hcode : s.unitCode u loc = 2
  · rw [correctedAt_parity det hcode]
  · by_cases hu : u < 512
    · rw [correctedAt_store det hu, cluster_setCluster, if_neg h, cluster_ceLogged]
    · rw [correctedAt_memory det hcode hu, cluster_ceLogged]

theorem core_correctedAt (k : Nat) : (s.correctedAt u loc det).core k = s.core k := by
  unfold State.core
  by_cases h : k / 16 = u
  · by_cases hcode : s.unitCode u loc = 2
    · rw [correctedAt_parity det hcode]
    · by_cases hu : u < 512
      · rw [h, cluster_correctedAt_store det hu]
        rfl
      · rw [correctedAt_memory det hcode hu, cluster_ceLogged]
  · rw [cluster_correctedAt_other det h]

theorem core_corrected (s : State) (a det k : Nat) : (s.corrected a det).core k = s.core k := by
  unfold State.corrected
  split
  · exact core_correctedAt _ k
  · rfl

end

theorem sameButLog.descs {s t : State} (h : sameButLog s t) : t.descs = s.descs := by rw [h]

theorem sameButLog.scrubOf {s t : State} (h : sameButLog s t) (u : Nat) : t.scrubOf u = s.scrubOf u := by
  rw [h]
  rfl

theorem sameButLog.domOn {s t : State} (h : sameButLog s t) (d : Nat) : t.domOn d = s.domOn d := by
  rw [h]
  rfl

theorem coreAt_corrected {s : State} {k op w : Nat} (a det : Nat) (h : s.coreAt k op w = true) : (s.corrected a det).coreAt k op w = true := by
  rw [State.coreAt, State.coreMay, core_corrected, (sameButLog_corrected s a det).domOn]
  exact h

/-! ### LOAD of a core that meets an error -/

theorem loadError_none (s : State) (k : Nat) (x : CoreAddr) : s.loadError k x none = s := by
  cases x <;> rfl

theorem loadError_of_not_store (s : State) (k : Nat) {x : CoreAddr} (e : Option Nat) (h : ∀ off, x ≠ .store off) : s.loadError k x e = s := by
  cases x with
  | store off => exact absurd rfl (h off)
  | _ => rfl

theorem coreAddr_not_store {a : Nat} (h : 0x600000 ≤ a) {x : CoreAddr} (hx : coreAddr a = some x) : ∀ off, x ≠ .store off := by
  rintro off rfl
  unfold coreAddr storeSize at hx
  split_ifs at hx <;> grind

section
variable {s : State} {k w : Nat} (det : Nat)

/-- What LOAD does once its address is known. -/
def State.loads (s : State) (k w : Nat) (x : CoreAddr) : State :=
  let r := s.coreRead k x
  r.2.coreAlu k w (r.2.core k) (BitVec.ofNat 64 r.1)

theorem exec_coreLoad_named {x : CoreAddr} (e : Option Nat) (h : s.coreAt k opLOAD w = true) (hp : (s.core k).pc < 8191)
    (hx : coreAddr (((s.core k).reg (iRa w) + immW w).toNat) = some x) :
    exec (.coreLoad k e) s = .next ((s.loadError k x e).loads k w x) := by
  rw [exec_coreLoad, execCoreLoad, coreOp_of_coreAt h]
  simp only [hx, if_neg (Nat.not_le.2 hp)]
  rfl

theorem exec_coreLoad_bad (e : Option Nat) (h : s.coreAt k opLOAD w = true)
    (hx : coreAddr (((s.core k).reg (iRa w) + immW w).toNat) = none) : exec (.coreLoad k e) s = .next (s.coreFault k 2) := by
  rw [exec_coreLoad, execCoreLoad, coreOp_of_coreAt h]
  simp only [hx]

theorem exec_coreLoad_store {off : Nat} (h : s.coreAt k opLOAD w = true) (hp : (s.core k).pc < 8191)
    (hx : coreAddr (((s.core k).reg (iRa w) + immW w).toNat) = some (.store off)) :
    exec (.coreLoad k (some det)) s = exec (.coreLoad k none) (s.corrected (storeBase (k / 16) + off) det) := by
  rw [exec_coreLoad_named _ h hp hx, exec_coreLoad_named _ (coreAt_corrected _ _ h) (by rwa [core_corrected]) (by rwa [core_corrected]),
    loadError_none]
  rfl

theorem exec_coreLoad_not_store (h : s.coreAt k opLOAD w = true) (hp : (s.core k).pc < 8191)
    (ha : 0x600000 ≤ ((s.core k).reg (iRa w) + immW w).toNat) : exec (.coreLoad k (some det)) s = exec (.coreLoad k none) s := by
  cases hx : coreAddr (((s.core k).reg (iRa w) + immW w).toNat) with
  | none => rw [exec_coreLoad_bad _ h hx, exec_coreLoad_bad _ h hx]
  | some x =>
    have hns := coreAddr_not_store ha hx
    rw [exec_coreLoad_named _ h hp hx, exec_coreLoad_named _ h hp hx, loadError_of_not_store _ _ _ hns, loadError_of_not_store _ _ _ hns]

end

/-! ### The scrubber and persistence -/

section
variable (s : State) (u : Nat)

theorem scrubOf_lapEnds : ((s.lapEnds u).scrubOf u).pos = 0 ∧ ((s.lapEnds u).scrubOf u).lapStart = s.tick ∧
    ((s.lapEnds u).scrubOf u).overdue = false := by
  simp only [State.lapEnds]
  split
  · rw [show ∀ t : State, (t.attn atSCRUB).scrubOf u = t.scrubOf u from fun _ => rfl, (sameButLog_logFault ..).scrubOf, scrubOf_setScrub, if_pos rfl]
    exact ⟨rfl, rfl, rfl⟩
  · rw [scrubOf_setScrub, if_pos rfl]
    exact ⟨rfl, rfl, rfl⟩

end

theorem persistSome_none {s : State} (h : s.nvHeld = false) :
    s.persistSome none = { s.persistAll s.toPersist with log := { (s.persistAll s.toPersist).log with persistBusy := false } } := by
  simp [State.persistSome, h]

theorem sameButDeferred_deferPersist (s : State) : s.deferPersist = { s with deferred := s.deferPersist.deferred } := by
  unfold State.deferPersist
  split
  · split <;> rfl
  · rfl

theorem deferPersist_nothing {s : State} (h : s.toPersist = []) : s.deferPersist = s := by
  rw [State.deferPersist, h]
  rfl

theorem deferPersist_new {s : State} {r : FaultRec} (h : s.toPersist.getLast? = some r) (hn : Deferred.persist r.seq ∉ s.deferred) :
    s.deferPersist.deferred = s.deferred ++ [.persist r.seq] := by
  have hc : s.deferred.contains (.persist r.seq) = false := by simpa using hn
  simp only [State.deferPersist, h, hc, Bool.false_eq_true, if_false]

/-- Settles O40: the upkeep of the log and the scrubber, and the records of correctable errors. -/
theorem faultUpkeep : Obligations.FaultUpkeep := by
  unfold Obligations.FaultUpkeep
  intro s u found more part
  obtain ⟨hpos, hstart, hover⟩ := scrubOf_lapEnds s u
  refine ⟨fun hm => ⟨?_, fun hnv => ⟨?_, persistSome_none hnv⟩, fun hnv hb => ⟨s.deferPersist, ?_, sameButDeferred_deferPersist s,
    deferPersist_nothing, fun r hr hn => deferPersist_new hr hn⟩⟩, fun hu hm => ⟨fun hlt => ?_, fun hle => ?_, fun _ _ => rfl⟩, fun hu hm => ?_,
    hpos, hstart, hover, fun hu hup h0 hlt => ?_, fun loc det => ⟨(sameButLog_correctedAt ..).sameBytes, (sameButLog_correctedAt ..).descs,
    correctedAt_parity det, log_correctedAt det, fun h => ?_, fun n => cluster_correctedAt_other det, fun k w h hp => ⟨fun h8 ha => ?_,
        fun ha => ?_⟩⟩⟩
  · simp [execFaultWindowClose, event, hm]
  · simp [execFaultLogPersist, event, hm, hnv]
  · simp [execFaultLogPersist, event, hm, hnv, hb]
  · simp [execScrubAccess, guarded, hu, hm, State.scrubGroup, Nat.not_le.2 hlt]
  · simp [execScrubAccess, guarded, hu, hm, State.scrubGroup, hle]
  · simp [execScrubAccess, guarded, hu, hm]
  · simp [execScrubOverdue, guarded, hu, hup, h0, hlt]
  · rw [cluster_correctedAt_store det h]
    exact ⟨rfl, rfl⟩
  · exact exec_coreLoad_store det h hp (coreAddr_store h8 ha)
  · exact exec_coreLoad_not_store det h hp ha

end Sys2Proof.Machine
end

section
/-! SUPPORT. Domains that sleep and wake, and the ends of an envelope switch (17). -/

namespace Sys2Proof.Machine

/-! ### Sleep -/

theorem domainDefault_st (d : Nat) : (domainDefault d).st = .off := by
  unfold domainDefault
  repeat' split
  all_goals rfl

/-- A domain that was not off is set over whole. -/
theorem setDom_setDom_of_st (s : State) (d : Nat) {x : Domain} (y : Domain) (h : x.st ≠ .off) : (s.setDom d x).setDom d y = s.setDom d y :=
  congrArg (fun m => { s with domains := m })
    (SMap.set_set s.domains d y fun hx => h ((congrArg Domain.st hx).trans (domainDefault_st d)))

section
variable {s : State} {d : Nat}

theorem settleForce_policy (h : (s.dom d).force = 0) : s.settleForce d = s := by
  simp [State.settleForce, h]

theorem turnOff_kept (h : s.envOff d = false) : s.turnOff d = s := by
  simp [State.turnOff, h]

theorem turnOff_off (h : (s.dom d).st = .off) : s.turnOff d = s := by
  simp [State.turnOff, h]

theorem turnOff_drained (h : s.envOff d = true) (hd : s.engineDrained (d - 40) = true) (hst : (s.dom d).st = .retain) :
    s.turnOff d = s.sleep d true := by
  simp [State.turnOff, h, hd, hst]

theorem domains_loseDomain : (s.loseDomain d).domains = s.domains := by
  unfold State.loseDomain
  split_ifs <;> rfl

theorem dom_loseDomain : (s.loseDomain d).dom d = s.dom d := by
  rw [State.dom, domains_loseDomain, State.dom]

/-- The domain at the end of a transition to `st`. -/
def Domain.ended (x : Domain) (st : DomSt) : Domain := { x with st := st, wanted := false }

theorem dom_setEnded (st : DomSt) : (s.setDom d ((s.dom d).ended st)).dom d = (s.dom d).ended st := by
  rw [dom_setDom, if_pos rfl]

/-- A domain in transition that nothing wants and no FORCE keeps goes where it was going. -/
theorem asleepNow_retain (hw : (s.dom d).wanted = false) (hf : (s.dom d).force = 0) :
    s.asleepNow d false = (s.setDom d ((s.dom d).ended .retain)).turnOff d := by
  have h : s.asleepNow d false = ((s.setDom d ((s.dom d).ended .retain)).settleForce d).turnOff d := if_neg (by simp [hw, hf])
  rw [h, settleForce_policy (by rw [dom_setEnded]; exact hf)]

theorem asleepNow_off (hw : (s.dom d).wanted = false) (hf : (s.dom d).force = 0) :
    s.asleepNow d true = (s.setDom d ((s.dom d).ended .off)).loseDomain d := by
  have hdom : ((s.setDom d ((s.dom d).ended .off)).loseDomain d).dom d = (s.dom d).ended .off := dom_loseDomain.trans (dom_setEnded _)
  have h : s.asleepNow d true = (((s.setDom d ((s.dom d).ended .off)).loseDomain d).settleForce d).turnOff d := if_neg (by simp [hw, hf])
  rw [h, settleForce_policy (by rw [hdom]; exact hf), turnOff_off (by rw [hdom]; rfl)]

end

theorem SMap.find_filter {α : Type} (p : Nat → Bool) (m : SMap α) (k : Nat) :
    SMap.find? (m.filter fun e => p e.1) k = if p k then SMap.find? m k else none := by
  induction m with
  | nil => simp [SMap.find?]
  | cons e m ih =>
    by_cases hk : e.1 = k
    · by_cases hp : p k <;> simp_all [SMap.find?]
    · by_cases hp : p e.1 <;> simp_all [SMap.find?]

/-- A half that went off has lost its clusters' registers, and no other. -/
theorem cluster_loseDomain {s : State} {d : Nat} (n : Nat) (h : d < 32) :
    (s.loseDomain d).cluster n = if n / 16 = d then {} else s.cluster n := by
  have hclusters : (s.loseDomain d).clusters = s.clusters.filter fun e => e.1 / 16 != d := by
    rw [State.loseDomain, if_pos h]
    rfl
  rw [State.cluster, hclusters, SMap.get, SMap.find_filter fun n => n / 16 != d]
  by_cases hn : n / 16 = d
  · simp [hn]
  · simp [hn, State.cluster, SMap.get]

theorem port_loseDomain {s : State} {d : Nat} (h : 32 ≤ d) (h' : d < 40) : (s.loseDomain d).port (d - 32) = {} := by
  rw [State.loseDomain, if_neg (by omega), if_pos h']
  show SMap.get {} (SMap.erase s.ports (d - 32)) (d - 32) = {}
  rw [SMap.get, SMap.find_erase_same]
  rfl

/-! ### Wakes -/

theorem dom_wakeEnds (s : State) (d : Nat) (lost : List (Nat × Nat × Nat)) :
    ((s.wakeEnds d lost).dom d).st = .on ∧ ((s.wakeEnds d lost).dom d).wakes = min ((s.dom d).wakes + 1) 0xFFFFFF := by
  have hdom (u : State) (x : Domain) : (u.setDom d x).dom d = x := by rw [dom_setDom, if_pos rfl]
  unfold State.wakeEnds
  dsimp only
  split_ifs <;> simp [State.dom, State.setDom, State.loadRemapsBut, SMap.get_set_same, State.calicoDirty]

def Desc.isAborted (d : Desc) : Prop := ∃ fl r, d.work = .done stABORTED fl r

/-- Whatever result and flags `f` gives, each descriptor named by `l` is owed ABORTED afterwards, and none comes or goes. -/
theorem abortedAll (fl : State → Desc → Nat) (r : State → Desc → Word) (l : List Desc) (s : State) :
    ∀ e ∈ (l.foldl (fun s x => s.setWork x.id (.done stABORTED (fl s x) (r s x))) s).descs,
      ∃ e0 ∈ s.descs, e.id = e0.id ∧ ((∃ x ∈ l, x.id = e0.id) ∨ e0.isAborted → e.isAborted) := by
  induction l generalizing s with
  | nil => exact fun e he => ⟨e, he, rfl, by simp⟩
  | cons x l ih =>
    intro e he
    obtain ⟨e1, he1, hid, hab⟩ := ih _ e he
    obtain ⟨e0, he0, rfl⟩ := List.mem_map.1 he1
    refine ⟨e0, he0, ?_, fun h => hab ?_⟩
    · rw [hid]
      split <;> rfl
    · by_cases hx : e0.id = x.id
      · rw [if_pos hx]
        exact .inr ⟨_, _, rfl⟩
      · rw [if_neg hx]
        refine h.imp_left fun ⟨y, hy, hye⟩ => ⟨y, (List.mem_cons.1 hy).resolve_left fun hyx => hx ?_, hye⟩
        rw [← hye, hyx]

/-- The RESULT with which a descriptor that waits on a failed wake completes: the entry that a CURVGATHER has reserved, else 0. -/
def Desc.abortResult (x : Desc) : Word :=
  match x.work with
  | .emit p _ _ _ => cgResult p
  | _ => 0

theorem abortWaiting_eq (s : State) (d : Nat) : s.abortWaiting d =
    (s.descs.filter (s.waitsOn d)).foldl (fun s x => s.setWork x.id (.done stABORTED (s.flagsSoFar x) x.abortResult)) s :=
  rfl

theorem abortWaiting_aborts (s : State) (d : Nat) : ∀ e ∈ (s.abortWaiting d).descs, ∃ e0 ∈ s.descs, e.id = e0.id ∧
    (s.waitsOn d e0 = true → e.isAborted) := by
  intro e he
  obtain ⟨e0, he0, hid, hab⟩ := abortedAll State.flagsSoFar (fun _ => Desc.abortResult) _ s e (abortWaiting_eq s d ▸ he)
  exact ⟨e0, he0, hid, fun hw => hab (.inl ⟨e0, List.mem_filter.2 ⟨he0, hw⟩, rfl⟩)⟩

theorem abortWaiting_single {s : State} {d : Nat} {x : Desc} (h : s.descs = [x]) (hw : s.waitsOn d x = true) (hq : x.work = .queued) :
    (s.abortWaiting d).descs = [{ x with work := .done stABORTED 0 0 }] := by
  have hflags : s.flagsSoFar x = 0 := by simp [State.flagsSoFar, hq]
  have hresult : x.abortResult = 0 := by simp [Desc.abortResult, hq]
  rw [abortWaiting_eq, h, List.filter_cons_of_pos hw, List.filter_nil, List.foldl_cons, List.foldl_nil, hflags, hresult]
  simp [State.setWork, State.updDesc, h]

/-- Settles O41: the timers, the ends of transitions and the ends of wakes. -/
theorem domainsSleepAndWake : Obligations.DomainsSleepAndWake := by
  unfold Obligations.DomainsSleepAndWake
  refine ⟨fun s d hd => ⟨fun hup hi hf ht => ?_, fun hup hi hf ht => ?_, fun hst hw hf => ⟨fun he => ?_, fun he hdr => ?_⟩, fun hst hw hf => ?_,
    fun hwk lost => ⟨?_, dom_wakeEnds s d lost⟩⟩, fun s d phase hd h1 h3 hwk => ⟨fun hr => ?_, fun hr => ?_, abortWaiting_aborts s d,
    fun x => abortWaiting_single⟩⟩
  · refine ⟨s.sleep d false, ?_, (dom_sleep_self s d false).1, fun e he => dom_sleep_other s false he, rfl⟩
    simp [execDomainRetainTimeout, guarded, hd, hup, hi, hf, ht]
  · refine ⟨s.sleep d true, ?_, (dom_sleep_self s d true).1, fun e he => dom_sleep_other s true he, rfl⟩
    have hmay : (s.domIdle d || (s.dom d).st == .retain && !(s.dom d).wanted) = true := by simpa using hi
    simp only [exec_domainOffTimeout, execDomainOffTimeout, guarded, hd, hup, hmay, ht]
    simp [hf]
  · rw [exec_domainSleepComplete, execDomainSleepComplete, guarded, if_pos hd, hst]
    exact congrArg Host.Outcome.next ((asleepNow_retain hw hf).trans (turnOff_kept he))
  · rw [exec_domainSleepComplete, execDomainSleepComplete, guarded, if_pos hd, hst]
    refine congrArg Host.Outcome.next ((asleepNow_retain hw hf).trans ((turnOff_drained (s := s.setDom d _) he hdr ?_).trans ?_))
    · rw [dom_setEnded]
      rfl
    · rw [State.sleep, dom_setEnded, setDom_setDom_of_st _ _ _ (by simp [Domain.ended])]
      simp [hf, Domain.ended]
  · refine ⟨(s.setDom d ((s.dom d).ended .off)).loseDomain d, ?_, ?_, fun h => ⟨fun n hn => ?_, fun n hn => ?_⟩, fun h32 h40 => ?_⟩
    · rw [exec_domainSleepComplete, execDomainSleepComplete, guarded, if_pos hd, hst]
      exact congrArg Host.Outcome.next (asleepNow_off hw hf)
    · rw [dom_loseDomain, dom_setEnded]
      rfl
    · rw [cluster_loseDomain n h, if_pos hn]
    · rw [cluster_loseDomain n h, if_neg hn]
      rfl
    · exact port_loseDomain h32 h40
  · simp [execDomainWakeComplete, guarded, hd, hwk]
  · simp [execWakeFail, guarded, hd, h1, h3, hwk, hr]
  · simp [execWakeFail, guarded, hd, h1, h3, hwk, hr]

/-! ### The ends of an envelope switch -/

theorem fallsDone_iff (s : State) : s.fallsDone = true ↔
    (∀ e, e < 4 → e < s.env.engines ∨ (s.dom (40 + e)).st = .off) ∧ ∀ p, p < 8 → (s.port p).st < 3 ∨ (s.port p).width ≤ s.lanesOk := by
  simp only [State.fallsDone, Bool.and_eq_true, List.all_eq_true, List.mem_range, Bool.or_eq_true, decide_eq_true_eq, beq_iff_eq]

theorem risesDone_iff (s : State) : s.risesDone = true ↔
    (∀ e, e < 4 → s.waking (40 + e) = false) ∧
      ∀ p, p < 8 → (s.port p).alive = true → (s.port p).widening = none ∧ s.widthNow (s.port p) ≤ (s.port p).width := by
  simp only [State.risesDone, Bool.and_eq_true, List.all_eq_true, List.mem_range, Bool.not_eq_true', Bool.or_eq_true, decide_eq_true_eq,
    Option.isNone_iff_eq_none, ← Bool.not_eq_true, ← imp_iff_not_or]

/-- Settles O42: an end acts in its own phase, once all that it waits for has come. -/
theorem envelopesSwitch : Obligations.EnvelopesSwitch := by
  unfold Obligations.EnvelopesSwitch
  intro s hup fell rose
  refine ⟨fun hp => ⟨fun h => ?_, fun h => ?_⟩, fun hp => ⟨fun h => ?_, fun h => ?_, fun hr => ?_⟩⟩
  · simp [execEnvelopeFallsEnd, event, hup, hp, (fallsDone_iff s).2 h]
  · have hnot : s.fallsDone = false := Bool.eq_false_iff.2 fun hd => h ((fallsDone_iff s).1 hd)
    simp [execEnvelopeFallsEnd, event, hnot]
  · simp [execEnvelopeRisesEnd, event, hup, hp, (risesDone_iff s).2 h]
  · have hnot : s.risesDone = false := Bool.eq_false_iff.2 fun hd => h ((risesDone_iff s).1 hd)
    simp [execEnvelopeRisesEnd, event, hnot]
  · simp [State.endRises, hr]

end Sys2Proof.Machine
end

section
/-! SUPPORT. Recalibration slots, prefetch and write-back, far-tier links (12 and 14). -/

namespace Sys2Proof.Machine

/-! ### Copies by lines, around retired pages -/

theorem sameBytesBut.trans {s t u : State} {a n : Nat} (h : sameBytesBut s t a n) (g : sameBytesBut t u a n) : sameBytesBut s u a n :=
  fun x hx => (g x hx).trans (h x hx)

theorem sameBytesBut.mono {s t : State} {a n b m : Nat} (h : sameBytesBut s t a n) (hlo : b ≤ a) (hhi : a + n ≤ b + m) : sameBytesBut s t b m :=
  fun x hx => h x (by omega)

theorem length_readBytes (s : State) (a n : Nat) : (s.readBytes a n).length = n := by
  simp [State.readBytes]

theorem touchesRetired_writeBytes (s : State) (b : Nat) (bs : Bytes) (a n : Nat) :
    (s.writeBytes b bs).touchesRetired a n = s.touchesRetired a n := by
  rw [writeBytes_eq]
  rfl

/-- One line of a copy, from the bytes that `s` holds: what touches a retired page stays. -/
def State.copyLine (s : State) (a b : Nat) (t : State) (i : Nat) : State :=
  if t.touchesRetired (a + 64 * i) 64 || t.touchesRetired (b + 64 * i) 64 then t
  else t.writeBytes (b + 64 * i) (s.readBytes (a + 64 * i) 64)

section
variable {s : State} {a b n : Nat}

theorem copyLines_whole (ha : s.touchesRetired a n = false) (hb : s.touchesRetired b n = false) :
    s.copyLines a b n = s.writeBytes b (s.readBytes a n) := by
  simp [State.copyLines, ha, hb]

theorem copyLines_parts (h : ¬(s.touchesRetired a n = false ∧ s.touchesRetired b n = false)) :
    s.copyLines a b n = (List.range (n / 64)).foldl (s.copyLine a b) s :=
  if_neg (by simpa using h)

theorem sameBytesBut_copyLine (t : State) (i : Nat) : sameBytesBut t (s.copyLine a b t i) (b + 64 * i) 64 := by
  unfold State.copyLine
  split
  · exact fun _ _ => rfl
  · have hline := sameBytesBut_writeBytes t (b + 64 * i) (s.readBytes (a + 64 * i) 64)
    rwa [length_readBytes] at hline

theorem touchesRetired_copyLine (t : State) (i x m : Nat) : (s.copyLine a b t i).touchesRetired x m = t.touchesRetired x m := by
  unfold State.copyLine
  split
  · rfl
  · exact touchesRetired_writeBytes ..

theorem copyLine_retired {t : State} {i : Nat} (h : t.touchesRetired (b + 64 * i) 64 = true) : s.copyLine a b t i = t :=
  if_pos (by simp [h])

theorem sameBytesBut_copyLine_fold (l : List Nat) (t : State) (h : ∀ i ∈ l, 64 * i + 64 ≤ n) :
    sameBytesBut t (l.foldl (s.copyLine a b) t) b n := by
  induction l generalizing t with
  | nil => exact fun _ _ => rfl
  | cons i l ih =>
    have hi := h i (List.mem_cons_self ..)
    exact ((sameBytesBut_copyLine t i).mono (by omega) (by omega)).trans (ih _ fun j hj => h j (List.mem_cons_of_mem _ hj))

/-- A copy to lines leaves every line that touches a retired page. -/
theorem read8_copyLine_fold_retired (l : List Nat) (t : State) {x : Nat} (hb : b % 64 = 0) (hx : t.touchesRetired (x / 64 * 64) 64 = true) :
    (l.foldl (s.copyLine a b) t).read8 x = t.read8 x := by
  induction l generalizing t with
  | nil => rfl
  | cons i l ih =>
    rw [List.foldl_cons, ih _ ((touchesRetired_copyLine t i ..).trans hx)]
    by_cases hline : x / 64 * 64 = b + 64 * i
    · rw [copyLine_retired (hline ▸ hx)]
    · exact sameBytesBut_copyLine t i x (by omega)

theorem sameBytesBut_copyLines (s : State) (a b n : Nat) : sameBytesBut s (s.copyLines a b n) b n := by
  by_cases h : s.touchesRetired a n = false ∧ s.touchesRetired b n = false
  · have hall := sameBytesBut_writeBytes s b (s.readBytes a n)
    rwa [length_readBytes, ← copyLines_whole h.1 h.2] at hall
  · rw [copyLines_parts h]
    refine sameBytesBut_copyLine_fold _ s fun i hi => ?_
    have := List.mem_range.1 hi
    omega

theorem readBytes_copyLines (ha : s.touchesRetired a n = false) (hb : s.touchesRetired b n = false) :
    (s.copyLines a b n).readBytes b n = s.readBytes a n := by
  rw [copyLines_whole ha hb]
  have hread := readBytes_writeBytes s b (s.readBytes a n)
  rwa [length_readBytes] at hread

theorem read8_copyLines_retired {x : Nat} (h : ¬(s.touchesRetired a n = false ∧ s.touchesRetired b n = false)) (hb : b % 64 = 0)
    (hx : s.touchesRetired (x / 64 * 64) 64 = true) : (s.copyLines a b n).read8 x = s.read8 x := by
  rw [copyLines_parts h]
  exact read8_copyLine_fold_retired _ s hb hx

end

/-! ### The ends of a prefetch and of a write-back -/

theorem sameBytes.readBytes {s t : State} (h : sameBytes s t) (a n : Nat) : t.readBytes a n = s.readBytes a n := by
  simp only [State.readBytes, h _]

theorem sameButLog_copyErrors (s : State) (ces : List (Nat × Nat)) (r : PfRec) : sameButLog s (s.copyErrors ces r) :=
  (sameButLog_corrections s ces r.src r.bytes).trans (sameButLog_corrections ..)

theorem sameButLog.bkt {s t : State} (h : sameButLog s t) (b : Nat) : t.bkt b = s.bkt b := by
  rw [h]
  rfl

theorem sameButDomains.bkt {s t : State} (h : sameButDomains s t) (b : Nat) : t.bkt b = s.bkt b := by
  rw [h]
  rfl

/-- The state once lines are copied and the bucket's record is `y`, before what may then run does. -/
def State.copied (s : State) (a z n b : Nat) (y : Bkt) (ds : List Nat) : State := (((s.copyLines a z n).setBkt b y).touch ds).settleForces

section
variable (s : State) (a z n b : Nat) (y : Bkt) (ds : List Nat)

theorem copied_sameButDomains : sameButDomains ((s.copyLines a z n).setBkt b y) (s.copied a z n b y ds) :=
  (sameButDomains_touch ..).trans (sameButDomains_settleForces _)

theorem read8_copied (x : Nat) : (s.copied a z n b y ds).read8 x = (s.copyLines a z n).read8 x :=
  (copied_sameButDomains s a z n b y ds).sameBytes x

theorem bkt_copied : (s.copied a z n b y ds).bkt b = y := by
  rw [(copied_sameButDomains s a z n b y ds).bkt, bkt_setBkt, if_pos rfl]

theorem readBytes_copied {s : State} {a z n b : Nat} (ha : s.touchesRetired a n = false) (hz : s.touchesRetired z n = false) :
    (s.copied a z n b y ds).readBytes z n = s.readBytes a n :=
  ((copied_sameButDomains s a z n b y ds).sameBytes.readBytes z n).trans (readBytes_copyLines ha hz)

end

section
variable {s t : State} {a z n b : Nat} {y : Bkt} {ds : List Nat} (h : sameButLog s t)
include h

theorem sameButLog.copied : sameBytesBut s (t.copied a z n b y ds) z n := fun x hx =>
  (read8_copied t a z n b y ds x).trans ((sameBytesBut_copyLines t a z n x hx).trans (h.sameBytes x))

theorem sameButLog.copied_whole (ha : s.touchesRetired a n = false) (hz : s.touchesRetired z n = false) :
    (t.copied a z n b y ds).readBytes z n = s.readBytes a n := by
  rw [readBytes_copied y ds ((h.touchesRetired ..).trans ha) ((h.touchesRetired ..).trans hz), h.sameBytes.readBytes]

theorem sameButLog.copied_retired {x : Nat} (hw : ¬(s.touchesRetired a n = false ∧ s.touchesRetired z n = false)) (hz : z % 64 = 0)
    (hx : s.touchesRetired (x / 64 * 64) 64 = true) : (t.copied a z n b y ds).read8 x = s.read8 x := by
  rw [read8_copied, read8_copyLines_retired _ hz ((h.touchesRetired ..).trans hx), h.sameBytes]
  rwa [h.touchesRetired, h.touchesRetired]

end

/-- A prefetch meets a retired page. -/
def State.meetsRetired (s : State) (r : PfRec) : Bool := s.touchesRetired r.src r.bytes || s.touchesRetired r.stage r.bytes

/-- A bucket's record once its running prefetch has ended. -/
def Bkt.prefetched (x : Bkt) (bad : Bool) : Bkt :=
  if x.pfStale then { x with pfStale := false, pfBusy := x.pfStarted && !x.pfFailed && x.pf.src != 0 }
  else { x with pfBusy := false, pfFailed := x.pfFailed || bad, stickyPf := x.stickyPf || bad }

theorem endPrefetch_eq (s : State) (b : Nat) (r : PfRec) (h : (s.bkt b).runningPf = r) :
    s.endPrefetch b = (s.copied r.src r.stage r.bytes b ((s.bkt b).prefetched (s.meetsRetired r)) (s.pfGates r)).advance :=
  h ▸ rfl

theorem endWriteBack_eq (s : State) (b : Nat) (r : PfRec) (h : (s.bkt b).wb = r) :
    s.endWriteBack b = (s.copied r.stage r.src r.bytes b { s.bkt b with wbBusy := false } (s.pfGates r)).advance :=
  h ▸ rfl

theorem prefetched_retired {x : Bkt} (h : x.pfStale = false) : (x.prefetched true).pfFailed = true ∧ (x.prefetched true).pfBusy = false := by
  simp [Bkt.prefetched, h]

theorem not_whole_iff {s : State} {r : PfRec} :
    ¬(s.touchesRetired r.src r.bytes = false ∧ s.touchesRetired r.stage r.bytes = false) ↔ s.meetsRetired r = true := by
  rw [State.meetsRetired, not_and_or, Bool.not_eq_false, Bool.not_eq_false, Bool.or_eq_true]

/-- Settles O43: slots, copies to and from the slow tiers, and the recovery of far-tier links. -/
theorem tierEvents : Obligations.TierEvents := by
  unfold Obligations.TierEvents
  intro s r b port waited ces c p q whole
  have hlogP := sameButLog_copyErrors s ces p
  have hlogQ := sameButLog_copyErrors s ces q
  refine ⟨fun hr hon ht hin => ?_, fun hr hin hrel hle => ?_, fun hb hbusy hbeh hasl => ?_, fun hb hbeh => ?_, fun hb hbusy hasl => ?_,
    fun hp hup hst => ?_, fun hp hrec => ?_⟩
  · refine ⟨{ s with recal := s.recal.set {} r { c with inSlot := true, startTick := s.tick, waited := 0 } }, ?_, by simp [SMap.get_set_same],
      fun i hi => by simp [SMap.get_set, hi], rfl⟩
    simp [execRecalSlotStart, guarded, hr, hon, ht, show (s.recal.get {} r : Recal).inSlot = false from hin, c]
  · refine ⟨{ s with recal := s.recal.set {} r { c with
      inSlot := false, slots := min (c.slots + 1) 0xFFFF
      slotWait := min (c.slotWait + min (max c.waited waited) (slotLength r c.startTick)) 0xFFFF } }, ?_, rfl, by simp [SMap.get_set_same]⟩
    have hpause : c.pause r = slotLength r c.startTick := by simp [Recal.pause, hrel]
    have hdue : (c.inSlot && decide (c.startTick + c.pause r ≤ s.tick)) = true := by simp [hin, hpause, hle]
    rw [exec_recalSlotEnd, execRecalSlotEnd, guarded, if_pos hr]
    refine congrArg Host.Outcome.next ((if_pos hdue).trans ?_)
    exact if_neg (by simp [show (s.recal.get {} r : Recal).reloading = false from hrel])
  · set t := s.copyErrors ces p
    have hbkt : t.bkt b = s.bkt b := hlogP.bkt b
    refine ⟨t.copied p.src p.stage p.bytes b ((t.bkt b).prefetched (t.meetsRetired p)) (t.pfGates p), ?_, hlogP.copied,
      fun hw => hlogP.copied_whole hw.1 hw.2, fun hw hstale => ?_⟩
    · rw [← endPrefetch_eq t b p (by rw [hbkt])]
      simp [execPrefetchEnd, guarded, hb, hbusy, hbeh, show s.asleep (s.pfGates (s.bkt b).runningPf) = [] from hasl, t, p]
    · have hbad : t.meetsRetired p = true := by
        rw [State.meetsRetired, hlogP.touchesRetired, hlogP.touchesRetired]
        exact not_whole_iff.1 hw
      rw [bkt_copied, hbad, hbkt]
      obtain ⟨hf, hnb⟩ := prefetched_retired hstale
      exact ⟨hf, hnb, fun x hx h64 => hlogP.copied_retired hw h64 hx⟩
  · simp [execPrefetchEnd, guarded, hb, hbeh]
  · set t := s.copyErrors ces q
    have hbkt : t.bkt b = s.bkt b := hlogQ.bkt b
    refine ⟨t.copied q.stage q.src q.bytes b { t.bkt b with wbBusy := false } (t.pfGates q), ?_, hlogQ.copied, ?_,
      fun hw => hlogQ.copied_whole hw.2 hw.1⟩
    · rw [← endWriteBack_eq t b q (by rw [hbkt])]
      simp [execStateWriteBackEnd, guarded, hb, hbusy, show s.asleep (s.pfGates (s.bkt b).wb) = [] from hasl, t, q]
    · rw [bkt_copied]
  · refine ⟨s.setRecovering port true, ?_, ?_, ?_, rfl⟩
    · simp [execFarLinkRecoveryStart, guarded, hp, hup, hst]
    · simp [State.setRecovering, SMap.get_set_same]
    · simp [State.setRecovering, State.domOn, State.unitBusy, SMap.get_set_same]
  · refine ⟨s.setRecovering port false, ?_, ?_, rfl⟩
    · simp [execFarLinkRecoveryEnd, guarded, hp, hrec]
    · simp [State.setRecovering, SMap.get_set_same]

end Sys2Proof.Machine
end

section
/-! SUPPORT. Lane rotation and width (13). -/

namespace Sys2Proof.Machine

/-! ### A port set twice -/

/-- A port whose value is not that of a port never set is set over whole. -/
theorem setPort_setPort (s : State) (p : Nat) {x : Port} (y : Port) (h : x ≠ {}) : (s.setPort p x).setPort p y = s.setPort p y :=
  congrArg (fun m => { s with ports := m }) (SMap.set_set s.ports p y h)

@[simp] theorem port_setPort_same (s : State) (p : Nat) (x : Port) : (s.setPort p x).port p = x := by
  rw [port_setPort, if_pos rfl]

theorem Port.ne_default_of_rotation {x : Port} (h : x.rotation ≠ none) : x ≠ {} := fun hx => h (congrArg Port.rotation hx)

theorem Port.ne_default_of_alive {x : Port} (h : x.alive = true) : x ≠ {} := by
  rintro rfl
  exact absurd h (by decide)

theorem Port.ne_default_of_st {x y : Port} (h : y.st = x.st) (hx : x.alive = true) : y ≠ {} := by
  rintro rfl
  rw [Port.alive, ← h] at hx
  exact absurd hx (by decide)

theorem queueAction_setPort (s : State) (p : Nat) {x : Port} (a : Action) (h : x ≠ {}) :
    (s.setPort p x).queueAction p a = s.setPort p { x with actions := x.actions ++ [a] } := by
  rw [State.queueAction, port_setPort_same, setPort_setPort _ _ _ h]

/-! ### MOVE and MOVED -/

section
variable {s : State} {p : Nat} {r : Rotation}

theorem doMove_first {l old : Nat} (i : Nat) (h : (s.port p).rotation = none) (hc : (s.port p).carrier l = some old) :
    s.doMove p l i = s.setPort p { s.port p with
      rotation := some { logical := l, old := old, new := i, phase := 2 }
      actions := (s.port p).actions ++ [{ code := 2, arg0 := l, arg1 := 0 }] } := by
  simp only [State.doMove, h, hc]
  exact queueAction_setPort s p _ (Port.ne_default_of_rotation (by simp))

theorem doMove_back (h : (s.port p).rotation = some r) (h3 : r.phase = 3) :
    s.doMove p r.logical r.old = s.setPort p { s.port p with
      rotation := some { r with phase := 4 }, actions := (s.port p).actions ++ [{ code := 2, arg0 := r.logical, arg1 := 0 }] } := by
  simp only [State.doMove, h, h3, and_self, if_true]
  exact queueAction_setPort s p _ (Port.ne_default_of_rotation (by simp))

theorem doMoved_first (h : (s.port p).rotation = some r) (h2 : r.phase = 2) :
    s.doMoved p r.logical = s.setPort p { s.port p with rotation := some { r with phase := 3 } } := by
  simp [State.doMoved, h, h2]

theorem doMoved_last (h : (s.port p).rotation = some r) (h4 : r.phase = 4) : s.doMoved p r.logical = s.endRotation p := by
  simp [State.doMoved, h, h4]

/-- The master moves the stream back once the freed lane has adapted. -/
theorem adaptEnds_back (hp : p % 2 = 0) (h : (s.port p).rotation = some r) (h3 : r.phase = 3) :
    s.adaptEnds p = s.setPort p { s.port p with
      rotation := some { r with phase := 4 }
      actions := (s.port p).actions ++ [{ code := 1, arg0 := r.logical, arg1 := r.old }, { code := 2, arg0 := r.logical, arg1 := 0 }] } := by
  have hback : s.adaptEnds p = s.moveBack p := by simp only [State.adaptEnds, h]
  simp only [hback, State.moveBack, h, hp, h3, and_self, if_true]
  rw [queueAction_setPort _ _ _ (Port.ne_default_of_rotation (by simp)), queueAction_setPort _ _ _ (Port.ne_default_of_rotation (by simp))]
  simp only [List.append_assoc, List.cons_append, List.nil_append]

theorem adaptEnds_widening {n : Nat} (h : (s.port p).rotation = none) (hw : (s.port p).widening = some n) :
    s.adaptEnds p = s.endWidening p n := by
  simp only [State.adaptEnds, h, hw]

end

/-! ### WIDTH -/

theorem st_foldl (f : Port → Nat → Port) (hf : ∀ x i, (f x i).st = x.st) (l : List Nat) (x : Port) : (l.foldl f x).st = x.st := by
  induction l generalizing x with
  | nil => rfl
  | cons i l ih => exact (ih (f x i)).trans (hf x i)

/-- One lane of a new width. -/
def Port.stripeLane (w : Nat) (x : Port) (i : Nat) : Port :=
  if (x.lane i).st != 3 && (x.lane i).logical != 0x1F then x.setLane i { x.lane i with st := if (x.lane i).logical < w then 0 else 2 } else x

theorem setWidth_eq (x : Port) (w : Nat) : x.setWidth w = { (List.range 18).foldl (Port.stripeLane w) x with width := w } := rfl

theorem setWidth_st (x : Port) (w : Nat) : (x.setWidth w).st = x.st := by
  rw [setWidth_eq]
  generalize List.range 18 = l
  refine st_foldl (Port.stripeLane w) (fun x i => ?_) l x
  unfold Port.stripeLane
  split <;> rfl

/-- The port once a WIDTH has told the partner's lanes. -/
def State.toldWidth (s : State) (p w : Nat) : Port :=
  if w = 8 ∧ (s.port p).width = 16 ∧ s.widthNow (s.port p) = 16 then { s.port p with partnerActive := 8 } else s.port p

/-- What a WIDTH leaves of a port that no rotation holds. -/
def State.striped (s : State) (y : Port) (w : Nat) : Port :=
  let v := min w (s.widthNow y)
  { y.setWidth v with
    widthNext := none, widening := if v < s.widthNow y then y.widening else none
    actions := (y.setWidth v).actions ++ if v < w then [{ code := 4, arg0 := v, arg1 := 0 }] else [] }

section
variable {s : State} {p : Nat} (w : Nat)

theorem restripe_free (hy : (s.port p).alive = true) (h : (s.port p).rotation = none) :
    s.restripe p w = s.setPort p (s.striped (s.port p) w) := by
  simp only [State.restripe, State.striped, h, Option.isSome_none, Bool.false_eq_true, if_false]
  have hst := setWidth_st (s.port p) (min w (s.widthNow (s.port p)))
  generalize (s.port p).setWidth (min w (s.widthNow (s.port p))) = z at hst ⊢
  split
  · exact queueAction_setPort s p _ (Port.ne_default_of_st hst hy)
  · rw [List.append_nil]

theorem restripe_rotating (h : (s.port p).rotation ≠ none) : s.restripe p w = s.setPort p { s.port p with widthNext := some w } := by
  have hsome : (s.port p).rotation.isSome = true := Option.isSome_iff_ne_none.2 h
  simp only [State.restripe, hsome, if_true]

/-- WIDTH acts on the port as it stands once the partner's lanes are told. -/
theorem takeWidth_eq (f : Port → Port) (hy : (s.port p).alive = true)
    (hf : ∀ t : State, t.env = s.env → (t.port p).alive = true → (t.port p).rotation = (s.port p).rotation →
      t.restripe p w = t.setPort p (f (t.port p))) : s.takeWidth p w = s.setPort p (f (s.toldWidth p w)) := by
  unfold State.takeWidth State.toldWidth
  dsimp only
  split
  · rw [hf (s.setPort p _) rfl (by rw [port_setPort_same]; exact hy) (by rw [port_setPort_same]), port_setPort_same,
      setPort_setPort _ _ _ (Port.ne_default_of_alive (x := { s.port p with partnerActive := 8 }) hy)]
  · exact hf s rfl hy rfl

theorem striped_of_env {t : State} (h : t.env = s.env) (y : Port) : t.striped y w = s.striped y w := by
  unfold State.striped State.widthNow State.lanesOk
  rw [h]

theorem takeWidth_free (hy : (s.port p).alive = true) (h : (s.port p).rotation = none) :
    s.takeWidth p w = s.setPort p (s.striped (s.toldWidth p w) w) :=
  takeWidth_eq w (fun y => s.striped y w) hy fun _ ht ha hr => by
    rw [restripe_free w ha (hr.trans h), striped_of_env w ht]

theorem takeWidth_rotating (hy : (s.port p).alive = true) (h : (s.port p).rotation ≠ none) :
    s.takeWidth p w = s.setPort p { s.toldWidth p w with widthNext := some w } :=
  takeWidth_eq w (fun y => { y with widthNext := some w }) hy fun _ _ _ hr => restripe_rotating w (hr ▸ h)

end

theorem mem_nameLane (x : Port) (l : Nat) : l ∈ (x.nameLane l).rotateNext := by
  unfold Port.nameLane
  split
  · rename_i h
    simpa using h
  · simp

theorem nameLane_keeps (x : Port) (l : Nat) : ∀ j ∈ x.rotateNext, j ∈ (x.nameLane l).rotateNext := by
  intro j hj
  unfold Port.nameLane
  split
  · exact hj
  · exact List.mem_append_left _ hj

/-- Settles O44: the steps of a rotation and of a new width, each through the function that takes it. -/
theorem lanesRotate : Obligations.LanesRotate := by
  unfold Obligations.LanesRotate
  intro s p l i w hp hl hi ha x said y v
  have hmove (i : Nat) (hi : physOk i = true) : exec (.move p l i) s = .next (s.doMove p l i) := by
    simp [execMove, guarded, hp, hl, hi, ha]
  have hmoved : exec (.moved p l) s = .next (s.doMoved p l) := by
    simp [execMoved, guarded, hp, hl, ha]
  have hwidth (hw : w = 4 ∨ w = 8 ∨ w = 16) : exec (.width p w) s = .next (s.takeWidth p w) := by
    simp [execWidth, guarded, hp, ha, hw, or_assoc]
  have hdrift : exec (.drift p l) s = .next (s.doDrift p l) := by
    simp [execDrift, guarded, hp, hl, ha]
  have hadapt : exec (.laneAdaptEnd p) s = .next (s.adaptEnds p) := by
    simp [execLaneAdaptEnd, guarded, hp, ha]
  refine ⟨fun old hr hc => (hmove i hi).trans (congrArg _ (doMove_first i hr hc)), fun r hr hrl => ⟨fun h3 ho => ?_, fun h2 => ?_, fun h4 => ?_⟩,
    fun hr hw => (hwidth hw).trans (congrArg _ (takeWidth_free w ha hr)), fun hr hw => (hwidth hw).trans (congrArg _ (takeWidth_rotating w ha hr)),
    fun he => ⟨hdrift.trans (congrArg _ (if_pos he)), mem_nameLane x l, nameLane_keeps x l⟩, fun ho => hdrift.trans (congrArg _ (if_neg (by omega))),
    fun hdue => ?_, fun n hr hwn => hadapt.trans (congrArg _ (adaptEnds_widening hr hwn)),
    fun r he hr h3 => hadapt.trans (congrArg _ (adaptEnds_back he hr h3))⟩
  · subst hrl ho
    exact (hmove r.old hi).trans (congrArg _ (doMove_back hr h3))
  · subst hrl
    exact hmoved.trans (congrArg _ (doMoved_first hr h2))
  · subst hrl
    exact hmoved.trans (congrArg _ (doMoved_last hr h4))
  · simp [execCalRotation, guarded, hp, hdue]

end Sys2Proof.Machine
end

section
/-! SUPPORT. Lanes that fail during a rotation (13). -/

namespace Sys2Proof.Machine

/-- A module whose port 0 is up and rotates logical lane 0 from lane 0 to lane 1, lane 0 having failed since the rotation began. -/
def failedInRotation : State :=
  { State.reset with ports := [(0, { st := pUP, rotation := some { logical := 0, old := 0, new := 1, phase := 2 }, failedDuring := [0] })] }

/-- The failures that a port has noted after a command. -/
def failuresAfter (i : Instr) (s : State) (p : Nat) : List Nat := match exec i s with
  | .next t => (t.port p).failedDuring
  | _ => []

/-- Refutes O45: a failure already noted in the rotation that runs is noted once, and the statement notes it again. -/
theorem not_lanesFailAndDrift : ¬ Obligations.LanesFailAndDrift := by
  unfold Obligations.LanesFailAndDrift
  intro h
  obtain ⟨-, hnoted, -⟩ := h failedInRotation 0 0 0 0 0 0 0 [] [] (by decide) (by decide) (by decide)
  have hexec := hnoted (by decide +kernel) (by decide +kernel) (by decide +kernel)
  have honce : failuresAfter (.laneFailureDetect 0 0) failedInRotation 0 = [0] := by decide +kernel
  simp only [failuresAfter, hexec] at honce
  exact absurd honce (by decide +kernel)

end Sys2Proof.Machine
end

section
/-! SUPPORT. Flits at a port (13). -/

namespace Sys2Proof.Machine

/-! ### Codewords that fail -/

/-- A codeword not yet counted, whose lane has had three others in the last 25 ticks, is that lane's fourth. -/
def Port.givesUp (x : Port) (tick i c : Nat) : Prop :=
  (x.lane i).st ≠ 3 ∧ (∀ e ∈ x.badAt, tick < e.2.2 + 25 → ¬(e.1 = i ∧ e.2.1 = c)) ∧
    3 ≤ (x.badAt.filter fun e => e.1 == i && decide (tick < e.2.2 + 25)).length

section
variable {x : Port} {tick i c : Nat}

/-- A codeword that none of the last 25 ticks has counted is counted. -/
theorem badCodeword_new (h : ∀ e ∈ x.badAt, tick < e.2.2 + 25 → ¬(e.1 = i ∧ e.2.1 = c)) :
    x.badCodeword i c tick = { x with
      fecUncorr := min (x.fecUncorr + 1) 0xFFFF, badAt := (x.badAt.filter fun e => decide (tick < e.2.2 + 25)) ++ [(i, c, tick)] } := by
  refine if_neg fun hany => ?_
  obtain ⟨e, he, hic⟩ := List.any_eq_true.1 hany
  obtain ⟨hmem, hrecent⟩ := List.mem_filter.1 he
  exact h e hmem (of_decide_eq_true hrecent) (by simpa using hic)

theorem badCodeword_first (h : x.badAt = []) :
    x.badCodeword i c tick = { x with fecUncorr := min (x.fecUncorr + 1) 0xFFFF, badAt := [(i, c, tick)] } := by
  rw [badCodeword_new (by simp [h]), h]
  rfl

/-- A codeword counts once. -/
theorem badCodeword_again (h : x.badAt = [(i, c, tick)]) : x.badCodeword i c tick = x :=
  if_pos (by simp [h])

theorem not_laneGivesUp_first (h : x.badAt = [(i, c, tick)]) : x.laneGivesUp i = false := by
  simp [Port.laneGivesUp, h]

/-- A port that has counted the fourth codeword of a lane gives it up. -/
theorem laneGivesUp_fourth {y : Port} (h : x.givesUp tick i c) (hbad : y.badAt = (x.badCodeword i c tick).badAt) (hl : y.lanes = x.lanes) :
    y.laneGivesUp i = true := by
  obtain ⟨hst, hnew, hthree⟩ := h
  have hlane : y.lane i = x.lane i := by rw [Port.lane, hl, Port.lane]
  rw [Port.laneGivesUp, hbad, badCodeword_new hnew, hlane]
  simp only [List.filter_append, List.filter_filter, List.length_append, Bool.and_eq_true, decide_eq_true_eq, bne_iff_ne]
  refine ⟨?_, hst⟩
  simpa using hthree

end

section
variable {s : State} {p i c : Nat}

theorem failsOnCodewords_kept (h : (s.port p).laneGivesUp i = false) : s.failsOnCodewords p (some (i, c)) = s := by
  simp [State.failsOnCodewords, h]

theorem failsOnCodewords_fails (ha : (s.port p).alive = true) (h : (s.port p).laneGivesUp i = true) :
    s.failsOnCodewords p (some (i, c)) = s.noteFailure p i := by
  simp [State.failsOnCodewords, ha, h]

end

/-! ### Flits that a port receives -/

/-- The port once a data flit's validity, and the codeword in which it lies, are counted. -/
def Port.counted (x : Port) (b : Bytes) (bad : Option (Nat × Nat)) (tick : Nat) : Port :=
  let ok := flitCrcOk b && flKind b != 3
  let x0 : Port := { x with lastValid := if ok then tick else x.lastValid, crcFail := if ok then x.crcFail else min (x.crcFail + 1) 0xFFFF }
  match bad with
  | some e => x0.badCodeword e.1 e.2 tick
  | none => x0

section
variable {s : State} {p : Nat} {b : Bytes} {bad : Option (Nat × Nat)}

theorem receiveData_accepts (hup : (s.port p).st = pUP) (hk : flKind b = 0) (hc : flitCrcOk b = true) (hq : flSeq b = (s.port p).rxSeq) :
    s.receiveData p b none = (s.setPort p ((s.port p).counted b none s.tick)).acceptFlit p b := by
  simp [State.receiveData, Port.counted, hup, hk, hc, hq]

theorem receiveData_refuses (hup : (s.port p).st = pUP)
    (h : flitCrcOk b = false ∨ flKind b = 0 ∧ (bad ≠ none ∨ flSeq b ≠ (s.port p).rxSeq)) :
    s.receiveData p b bad = s.setPort p (((s.port p).counted b bad s.tick).nakNow s.tick) := by
  have hnot : ((flitCrcOk b && flKind b != 3) && bad.isNone && flSeq b == (s.port p).rxSeq) = false := by
    rcases h with h | ⟨-, h | h⟩
    · simp [h]
    · simp [h]
    · simp [h]
  have hst : ¬(s.port p).st ≠ pUP := not_not.2 hup
  exact (if_neg hst).trans (if_neg (by rw [hnot]; exact Bool.false_ne_true))

theorem receiveData_held (hup : (s.port p).st ≠ pUP) : s.receiveData p b bad = s.setPort p ((s.port p).counted b bad s.tick) := if_pos hup

theorem nakNow_due {x : Port} (tick : Nat) (h : x.nakAt = none) : x.nakNow tick = { x with nakDue := some x.rxSeq } := by
  simp [Port.nakNow, h]

end

/-- What a data flit in a codeword leaves of its port: only what counts it. -/
def Port.sameButCounts (x y : Port) : Prop :=
  y = { x with lastValid := y.lastValid, crcFail := y.crcFail, fecUncorr := y.fecUncorr, nakDue := y.nakDue, badAt := y.badAt }

theorem counted_new {x : Port} {i c tick : Nat} (b : Bytes) (h : ∀ e ∈ x.badAt, tick < e.2.2 + 25 → ¬(e.1 = i ∧ e.2.1 = c)) :
    x.sameButCounts (x.counted b (some (i, c)) tick) ∧ (x.counted b (some (i, c)) tick).fecUncorr = min (x.fecUncorr + 1) 0xFFFF ∧
      (x.counted b (some (i, c)) tick).badAt = (x.badCodeword i c tick).badAt := by
  have hcounted : x.counted b (some (i, c)) tick = _ :=
    badCodeword_new (x := { x with
      lastValid := if flitCrcOk b && flKind b != 3 then tick else x.lastValid
      crcFail := if flitCrcOk b && flKind b != 3 then x.crcFail else min (x.crcFail + 1) 0xFFFF }) h
  rw [hcounted, badCodeword_new h]
  exact ⟨rfl, rfl, rfl⟩

theorem counted_first {x : Port} (b : Bytes) (bad : Option (Nat × Nat)) (tick : Nat) (h : x.badAt = []) :
    x.sameButCounts (x.counted b bad tick) ∧ ∀ e, bad = some e → (x.counted b bad tick).badAt = [(e.1, e.2, tick)] := by
  cases bad with
  | none => exact ⟨rfl, nofun⟩
  | some e =>
    obtain ⟨hsame, -, hbad⟩ := counted_new (x := x) (i := e.1) (c := e.2) (tick := tick) b (by simp [h])
    exact ⟨hsame, fun _ he => Option.some.inj he ▸ hbad.trans (by rw [badCodeword_first h])⟩

theorem failsOnCodewords_first {s : State} {p tick : Nat} {bad : Option (Nat × Nat)}
    (h : ∀ e, bad = some e → (s.port p).badAt = [(e.1, e.2, tick)]) : s.failsOnCodewords p bad = s := by
  cases bad with
  | none => rfl
  | some e => exact failsOnCodewords_kept (not_laneGivesUp_first (h e rfl))

theorem sameButCounts_nakNow {x y : Port} (tick : Nat) (h : x.sameButCounts y) : x.sameButCounts (y.nakNow tick) ∧
    (y.nakNow tick).fecUncorr = y.fecUncorr ∧ (y.nakNow tick).badAt = y.badAt := by
  have hif (recent : Bool) : (if recent then y else { y with nakDue := some y.rxSeq }) =
      { y with nakDue := (if recent then y else { y with nakDue := some y.rxSeq }).nakDue } := by
    cases recent <;> rfl
  have hnak : (y.nakNow tick) = { y with nakDue := (y.nakNow tick).nakDue } := hif _
  rw [hnak]
  unfold Port.sameButCounts at h ⊢
  rw [h]
  exact ⟨rfl, rfl, rfl⟩

/-- A data flit in a codeword leaves a port that has counted both. -/
theorem receiveData_bad (s : State) (p : Nat) {b : Bytes} {i c : Nat} (hk : flKind b = 0)
    (h : ∀ e ∈ (s.port p).badAt, s.tick < e.2.2 + 25 → ¬(e.1 = i ∧ e.2.1 = c)) :
    ∃ y, s.receiveData p b (some (i, c)) = s.setPort p y ∧ (s.port p).sameButCounts y ∧
      y.fecUncorr = min ((s.port p).fecUncorr + 1) 0xFFFF ∧ y.badAt = ((s.port p).badCodeword i c s.tick).badAt := by
  obtain ⟨hsame, hfec, hbad⟩ := counted_new b h
  by_cases hup : (s.port p).st = pUP
  · obtain ⟨hsame', hfec', hbad'⟩ := sameButCounts_nakNow s.tick hsame
    exact ⟨_, receiveData_refuses hup (.inr ⟨hk, .inl (by simp)⟩), hsame', hfec'.trans hfec, hbad'.trans hbad⟩
  · exact ⟨_, receiveData_held hup, hsame, hfec, hbad⟩

theorem arrive_port (s : State) (k : Packet) (p : Nat) : (s.arrive k).port p = s.port p := by
  unfold State.arrive
  split <;> rfl

theorem sameBytes_arrive (s : State) (k : Packet) : sameBytes s (s.arrive k) := by
  unfold State.arrive
  split <;> exact fun _ => rfl

theorem acceptFlit_port (s : State) (p : Nat) (b : Bytes) : ((s.acceptFlit p b).port p).rxSeq = ((s.port p).rxSeq + 1) % 65536 ∧
    ((s.acceptFlit p b).port p).lastValid = (s.port p).lastValid ∧ ((s.acceptFlit p b).port p).crcFail = (s.port p).crcFail := by
  have htally (x : Port) (tick rx : Nat) : (x.tally tick 0 rx 0 0).rxSeq = x.rxSeq ∧ (x.tally tick 0 rx 0 0).lastValid = x.lastValid ∧
      (x.tally tick 0 rx 0 0).crcFail = x.crcFail := by
    unfold Port.tally Port.roll
    dsimp only
    split <;> exact ⟨rfl, rfl, rfl⟩
  obtain ⟨hrx, hvalid, hcrc⟩ := htally (s.port p) s.tick 1
  unfold State.acceptFlit
  dsimp only
  split
  · rw [arrive_port, port_setPort_same]
    exact ⟨by rw [hrx], hvalid, hcrc⟩
  · rw [port_setPort_same]
    exact ⟨by rw [hrx], hvalid, hcrc⟩

theorem acceptFlit_leaves (s : State) (p : Nat) (b : Bytes) : sameBytes s (s.acceptFlit p b) ∧
    (flTail b = false → (s.acceptFlit p b).arrived = s.arrived ∧ (s.acceptFlit p b).egress = s.egress) := by
  unfold State.acceptFlit
  dsimp only
  split
  · rename_i h
    refine ⟨?_, fun hf => absurd h (by rw [hf]; exact Bool.false_ne_true)⟩
    exact fun x => sameBytes_arrive _ _ x
  · exact ⟨fun _ => rfl, fun _ => ⟨rfl, rfl⟩⟩

/-! ### The control flit that a port sends -/

/-- A restripe changes a port's lanes, its width and what it asks of the partner. -/
def Port.sameButWidth (x y : Port) : Prop :=
  y = { x with lanes := y.lanes, width := y.width, widthNext := y.widthNext, widening := y.widening, actions := y.actions }

theorem Port.sameButWidth.trans {x y z : Port} (h : x.sameButWidth y) (g : y.sameButWidth z) : x.sameButWidth z := by
  unfold Port.sameButWidth at *
  rw [g, h]

theorem sameButWidth_setWidth (x : Port) (w : Nat) : x.sameButWidth (x.setWidth w) := by
  have hfold (l : List Nat) (x : Port) : x.sameButWidth (l.foldl (Port.stripeLane w) x) := by
    induction l generalizing x with
    | nil => rfl
    | cons i l ih =>
      refine Port.sameButWidth.trans (y := Port.stripeLane w x i) ?_ (ih _)
      unfold Port.stripeLane
      split <;> rfl
  rw [setWidth_eq]
  have h := hfold (List.range 18) x
  generalize (List.range 18).foldl (Port.stripeLane w) x = y at h
  exact h.trans rfl

theorem sameButWidth_restripe (s : State) (p w : Nat) : (s.port p).sameButWidth ((s.restripe p w).port p) := by
  unfold State.restripe State.queueAction
  dsimp only
  have hwidth := sameButWidth_setWidth (s.port p) (min w (s.widthNow (s.port p)))
  generalize (s.port p).setWidth (min w (s.widthNow (s.port p))) = y at hwidth ⊢
  split
  · rw [port_setPort_same]
    rfl
  · split
    · rw [port_setPort_same, port_setPort_same]
      exact hwidth.trans rfl
    · rw [port_setPort_same]
      exact hwidth.trans rfl

/-- The port once its control flit is on the line. -/
def State.controlSent (s : State) (p : Nat) : Port :=
  let x := s.port p
  let c := s.controlFlit p
  { x with
    sent := some c, line := x.line ++ [c.bytes], lastCtlSent := s.tick, ackTold := x.rxSeq, nakDue := none
    nakAt := match x.nakDue with
      | some q => some (q, s.tick)
      | none => x.nakAt
    freedTold := x.freedRx, actionOut := c.actionId
    actions := match x.nextAction with
      | some a => x.actions.erase a
      | none => x.actions }

/-- The state before what a NAK asks for follows the control flit. -/
def State.controlled (s : State) (p : Nat) : State :=
  let s1 := s.setPort p (s.controlSent p)
  if (s.controlFlit p).action = 4 then s1.restripe p (s.controlFlit p).arg0 else s1

theorem sendControl_eq (s : State) (p : Nat) : s.sendControl p = (s.controlled p).sendAgain p := rfl

theorem controlled_port (s : State) (p : Nat) : (s.controlSent p).sameButWidth ((s.controlled p).port p) := by
  unfold State.controlled
  dsimp only
  split
  · have h := sameButWidth_restripe (s.setPort p (s.controlSent p)) p (s.controlFlit p).arg0
    rwa [port_setPort_same] at h
  · rw [port_setPort_same]
    rfl

theorem sendAgain_port (s : State) (p : Nat) : ((s.sendAgain p).port p).sent = (s.port p).sent ∧
    ((s.sendAgain p).port p).nakDue = (s.port p).nakDue := by
  unfold State.sendAgain
  dsimp only
  split
  · exact ⟨rfl, rfl⟩
  · rw [port_setPort_same]
    unfold Port.sends Port.tally Port.roll
    dsimp only
    split <;> exact ⟨rfl, rfl⟩

theorem sendAgain_nothing {s : State} {p : Nat} (h : (s.port p).resend = []) : s.sendAgain p = s := if_pos (by simp [h])

theorem sendAgain_due {s : State} {p : Nat} (h : s.controlDue p = true) : s.sendAgain p = s := if_pos (by simp [h])

theorem sendControl_port (s : State) (p : Nat) : ((s.sendControl p).port p).sent = some (s.controlFlit p) ∧
    ((s.sendControl p).port p).nakDue = none ∧
    ((s.port p).resend = [] → ((s.sendControl p).port p).line = (s.port p).line ++ [(s.controlFlit p).bytes]) := by
  have hport := controlled_port s p
  obtain ⟨hsent, hnak⟩ := sendAgain_port (s.controlled p) p
  rw [sendControl_eq]
  refine ⟨hsent.trans ?_, hnak.trans ?_, fun hr => ?_⟩
  · rw [hport]
    rfl
  · rw [hport]
    rfl
  · rw [sendAgain_nothing (by rw [hport]; exact hr), hport]
    rfl

/-- What an idle flit in a codeword leaves of its port. -/
theorem noteCodeword_receiveIdle (s : State) (p i c : Nat) (b : Bytes) :
    ∃ y : Port, (s.noteCodeword p (some (i, c))).receiveIdle p b = (s.setPort p ((s.port p).badCodeword i c s.tick)).receiveIdle p b ∧
      ((s.noteCodeword p (some (i, c))).receiveIdle p b).port p = y ∧
      y = { (s.port p).badCodeword i c s.tick with lastValid := y.lastValid, crcFail := y.crcFail } := by
  refine ⟨_, rfl, rfl, ?_⟩
  simp only [State.noteCodeword, State.receiveIdle, port_setPort_same]
  split <;> rfl

/-- Settles O46: the flits of each kind, in and outside failed codewords. -/
theorem flitsArriveAndLeave : Obligations.FlitsArriveAndLeave := by
  unfold Obligations.FlitsArriveAndLeave
  intro s p b bad hp ha hlen hbad x gives counted
  have hok (e : Option (Nat × Nat)) (h : (e.all fun e => physOk e.1) = true) :
      (!(portOk p && b.length == 64 && e.all fun e => physOk e.1)) = false := by simp [hp, hlen, h]
  have hdata (e : Option (Nat × Nat)) (h : (e.all fun e => physOk e.1) = true) (hk : flKind b = 0 ∨ flitCrcOk b = false) :
      exec (.dataFlitReceive p b e) s = .next ((s.receiveData p b e).failsOnCodewords p e) := by
    rw [exec_dataFlitReceive, execDataFlitReceive, hok e h]
    rcases hk with hk | hk <;> simp [event, ha, hk]
  have hidle (e : Option (Nat × Nat)) (h : (e.all fun e => physOk e.1) = true) (hk : flKind b = 2 ∨ flitCrcOk b = false) :
      exec (.idleFlitReceive p b e) s = .next (((s.noteCodeword p e).receiveIdle p b).failsOnCodewords p e) := by
    rw [exec_idleFlitReceive, execIdleFlitReceive, hok e h]
    rcases hk with hk | hk <;> simp [event, ha, hk]
  have hctl (hk : flKind b = 1 ∨ flitCrcOk b = false) : exec (.controlFlitReceive p b none) s = .next (s.controlOrFail p b) := by
    rw [exec_controlFlitReceive, execControlFlitReceive, hok none rfl]
    rcases hk with hk | hk <;> simp [event, ha, hk, State.noteCodeword, State.failsOnCodewords]
  refine ⟨fun hup hk hc hq => ?_, fun hup hbadflit hnak hnone => ?_, fun i c hb hk hg => ?_, fun hk hc => ?_, fun i c hb hk hnone => ⟨?_, ?_, ?_⟩,
    fun i c hb hk hg => ?_, fun hc => ⟨?_, ?_⟩, fun hk hc => ?_, fun hdue => ?_⟩
  · obtain ⟨hrx, hvalid, hcrc⟩ := acceptFlit_port (s.setPort p (x.counted b none s.tick)) p b
    obtain ⟨hbytes, htail⟩ := acceptFlit_leaves (s.setPort p (x.counted b none s.tick)) p b
    refine ⟨_, (hdata none rfl (.inl hk)).trans (congrArg _ (receiveData_accepts hup hk hc hq)), hrx.trans ?_, hvalid.trans ?_, hcrc.trans ?_,
      hbytes, htail⟩
    · rw [port_setPort_same]
      rfl
    · rw [port_setPort_same]
      simp [Port.counted, hc, hk]
    · rw [port_setPort_same]
      simp [Port.counted, hc, hk]
  · obtain ⟨hsame, hfirst⟩ := counted_first b bad s.tick hnone
    have hnak' : (x.counted b bad s.tick).nakAt = none := by rw [hsame]; exact hnak
    have hport := nakNow_due s.tick hnak'
    obtain ⟨-, -, hsbad⟩ := sameButCounts_nakNow s.tick hsame
    refine ⟨s.setPort p ((x.counted b bad s.tick).nakNow s.tick), ?_, ?_, ?_, rfl⟩
    · rw [hdata bad hbad (hbadflit.symm.imp_left And.left), receiveData_refuses hup hbadflit,
        failsOnCodewords_first fun e he => by rw [port_setPort_same]; exact hsbad.trans (hfirst e he)]
    · rw [port_setPort_same, hport, hsame]
    · rw [port_setPort_same, hport, hsame]
  · subst hb
    obtain ⟨y, hrec, hsame, hfec, hybad⟩ := receiveData_bad s p hk hg.2.1
    refine ⟨s.setPort p y, ?_, y, rfl, ?_⟩
    · rw [hdata _ hbad (.inl hk), hrec]
      refine congrArg _ (failsOnCodewords_fails ?_ ?_)
      · rw [port_setPort_same, hsame]
        exact ha
      · rw [port_setPort_same]
        exact laneGivesUp_fourth hg hybad (by rw [hsame])
    · rw [port_setPort_same, ← hfec]
      exact hsame
  · rw [hidle none rfl (.inl hk)]
    simp [State.noteCodeword, State.failsOnCodewords, State.receiveIdle, hc, x]
  · subst hb
    obtain ⟨y, hrec, hy, hyeq⟩ := noteCodeword_receiveIdle s p i c b
    rw [hidle _ hbad (.inl hk), failsOnCodewords_first (tick := s.tick) fun e he => ?_, hrec]
    rw [hy, hyeq, badCodeword_first hnone]
    exact Option.some.inj he ▸ rfl
  · rw [badCodeword_first hnone]
  · exact badCodeword_again (by rw [badCodeword_first hnone])
  · subst hb
    obtain ⟨y, -, hy, hyeq⟩ := noteCodeword_receiveIdle s p i c b
    refine ⟨(s.noteCodeword p (some (i, c))).receiveIdle p b, (hidle _ hbad (.inl hk)).trans (congrArg _ (failsOnCodewords_fails ?_ ?_)), ?_⟩
    · rw [hy, hyeq, badCodeword_new hg.2.1]
      exact ha
    · rw [hy]
      exact laneGivesUp_fourth hg (by rw [hyeq]) (by rw [hyeq, badCodeword_new hg.2.1])
    · rw [hy, hyeq, badCodeword_new hg.2.1]
  · rw [hidle none rfl (.inr hc)]
    simp [State.noteCodeword, State.failsOnCodewords, State.receiveIdle, hc, x, counted]
  · rw [hctl (.inr hc)]
    simp [State.controlOrFail, hc, x, counted]
  · rw [hctl (.inl hk)]
    simp [State.controlOrFail, hc]
  · obtain ⟨hsent, hnak, hline⟩ := sendControl_port s p
    refine ⟨?_, hsent, hnak, hline, fun i => ?_, sendAgain_due hdue⟩
    · simp [execControlFlitSend, guarded, hp, ha, hdue]
    · simp [State.chosen, hdue]

end Sys2Proof.Machine
end

section
/-! SUPPORT. Links and the writes that ports take (13). -/

namespace Sys2Proof.Machine

/-! ### Loss of a link -/

/-- A module whose time a forward step has taken from tick 100 to tick 10,000, where an idle flit is still to arrive at port 0, which is up and
has taken its last flit at tick 0. -/
def silenceStepped : State :=
  { State.reset with
    tick := 10000, stepped := (100, 10000), ports := [(0, { st := pUP })]
    pending := [.idleFlitReceive 0 (mkFlit 2 (List.replicate 58 0)) none] }

/-- Refutes O48: the limit of 200 ticks that a forward step has passed runs out in the tick that the step leads to, and there only after that
tick's valid flit; the statement has the port silent although that flit comes. -/
theorem not_linksAreLost : ¬ Obligations.LinksAreLost := by
  unfold Obligations.LinksAreLost
  intro h
  obtain ⟨-, -, hsilent, -⟩ := h silenceStepped 0 0 0 0 0 0 []
    { txn := 0, use := .plain, kind := 0, sub := 0, dst := 0, sent := 0, addr := 0, len := 0, off := 0 } (by decide)
  exact absurd (hsilent (by decide +kernel) (by decide +kernel)) (by decide +kernel)

/-! ### Writes to a port's registers -/

section
variable {s : State} {p : Nat} {w : Wr}

theorem writeLnkStatus_lost (hon : s.portOn p = true) (h3 : w.sets 3 = true) (h14 : w.sets 14 = false) :
    s.writeLnkStatus p w = s.setPort p { s.port p with
      lost := false, st := if (s.port p).lost = true ∧ (s.port p).st = pHELD then pUP else (s.port p).st } := by
  simp [State.writeLnkStatus, hon, h3, h14]

/-- The state with the lane that the write names. -/
def State.namesLane (s : State) (p : Nat) (w : Wr) : State := s.setPort p { s.port p with ctlLane := w.upd 1 4 (s.port p).ctlLane }

theorem writeLnkCtrl_calNow (hon : s.portOn p = true) (h0 : w.sets 0 = true) (h5 : w.sets 5 = false) (h6 : w.sets 6 = false) :
    s.writeLnkCtrl p w = (s.namesLane p w).calibrateNext p (w.upd 1 4 (s.port p).ctlLane) := by
  simp [State.writeLnkCtrl, State.namesLane, hon, h0, h5, h6]

theorem writeLnkCtrl_releaseHeld (hon : s.portOn p = true) (h0 : w.sets 0 = false) (h5 : w.sets 5 = true) (h6 : w.sets 6 = false) :
    s.writeLnkCtrl p w = (s.namesLane p w).releaseHeld p := by
  simp [State.writeLnkCtrl, State.namesLane, hon, h0, h5, h6]

theorem writeLnkCtrl_retrain (hon : s.portOn p = true) (h0 : w.sets 0 = false) (h5 : w.sets 5 = false) (h6 : w.sets 6 = true) :
    s.writeLnkCtrl p w = (s.namesLane p w).retrain p := by
  simp [State.writeLnkCtrl, State.namesLane, hon, h0, h5, h6]

theorem retrain_down (hu : s.portUsed p = true) (h : (s.port p).st = pDOWN ∨ (s.port p).st = pMISMATCH) : s.retrain p = s.train p := by
  rcases h with h | h <;> simp [State.retrain, hu, h]

theorem retrain_not (h : (s.port p).st = pUP ∨ s.portUsed p = false) : s.retrain p = s := by
  rcases h with h | h
  · simp [State.retrain, h, pUP, pDOWN, pMISMATCH]
  · simp [State.retrain, h]

theorem train_port (s : State) (p : Nat) : ((s.train p).port p).st = pTRAINING := by
  rw [State.train, port_setPort_same]

end

/-- Settles O49: each bit of a port's control and status registers, written alone. -/
theorem portsTakeWrites : Obligations.PortsTakeWrites := by
  unfold Obligations.PortsTakeWrites
  intro s p w hb hp hon x u
  have hu : u.port p = { x with ctlLane := w.upd 1 4 x.ctlLane } := port_setPort_same ..
  refine ⟨fun h3 h14 => ?_, fun h0 h5 h6 => ?_, fun h0 h5 h6 => ?_, fun h0 h5 h6 => ?_, fun hused hst => ?_, fun h => ?_⟩
  · simp only [exec_lostClear, execLostClear, guarded, if_pos hp, bar0_of_takes _ hb, if_pos h3, writeLnkStatus_lost hon h3 h14]
    rfl
  · simp only [exec_calNow, execCalNow, guarded, if_pos hp, bar0_of_takes _ hb, if_pos h0, writeLnkCtrl_calNow hon h0 h5 h6]
    rfl
  · simp only [exec_releaseHeld, execReleaseHeld, guarded, if_pos hp, bar0_of_takes _ hb, if_pos h5, writeLnkCtrl_releaseHeld hon h0 h5 h6]
    rfl
  · simp only [exec_retrain, execRetrain, guarded, if_pos hp, bar0_of_takes _ hb, if_pos h6, writeLnkCtrl_retrain hon h0 h5 h6]
    rfl
  · rw [retrain_down (s := u) hused (hu ▸ hst), ← train_port u p]
  · exact retrain_not (s := u) (hu ▸ h)

end Sys2Proof.Machine
end

section
/-! SUPPORT. Packets that leave and beacons that go on (13 and 16). -/

namespace Sys2Proof.Machine

/-! ### Packets that leave -/

theorem sameButSends_noteSent_txns (s : State) (k : Packet) : s.noteSent k = { s with txns := (s.noteSent k).txns } := by
  unfold State.noteSent
  split <;> rfl

/-- The line and nothing else of a port that sends flits, but for its counts. -/
theorem sends_line (x : Port) (tick turned : Nat) (fs : List Flit) :
    ((x.sends tick fs).tally tick 0 0 0 turned).line = x.line ++ fs.map Flit.bytes := by
  have htally (z : Port) (n tx rx stall tu : Nat) : (z.tally n tx rx stall tu).line = z.line := by
    unfold Port.tally Port.roll
    dsimp only
    split <;> rfl
  rw [htally, Port.sends]
  exact congrArg (· ++ _) (htally ..)

/-- The port once the flits of `k` are on its line and in its replay buffer. -/
def Port.started (x : Port) (tick : Nat) (was k : Packet) : Port :=
  { (x.sends tick (pkToFlits k k.cls x.txSeq)).tally tick 0 0 0 (b2n (turnsHere was k)) with
    replay := x.replay ++ pkToFlits k k.cls x.txSeq, txSeq := (x.txSeq + pkFlits k) % 65536
    sentTx := addAt x.sentTx (creditIx (kindVc k.kind) k.cls) (pkFlits k)
    turn := if kindVc k.kind = 0 ∨ kindVc k.kind = 2 then kindVc k.kind else x.turn }

/-- The state once the packet at place `i` has started, before the slots that it held are returned. -/
def State.started (s : State) (p i : Nat) (was k : Packet) : State :=
  ({ s with egress := s.egress.eraseIdx i }.noteSent k).setPort p ((s.port p).started s.tick was k)

theorem startPacket_eq (s : State) (p i : Nat) (was k : Packet) : s.startPacket p i was k = (s.started p i was k).returnSlots := rfl

section
variable {s : State} {i : Nat} {k : Packet} (hk : s.egress[i]? = some k)
include hk

theorem forwardPacket_exit {p : Nat} {q : Packet} (he : s.exit? k = some (p, q)) :
    s.forwardPacket i = if s.chosen p i then s.startPacket p i k q else s := by
  rw [State.forwardPacket, hk]
  simp only [he]

theorem forwardPacket_no_exit (he : s.exit? k = none) : s.forwardPacket i =
    if s.nextHop k = .deliver then ({ s with egress := s.egress.eraseIdx i, arrived := s.arrived ++ [k] } : State).noteSent k
    else (({ s with egress := s.egress.eraseIdx i } : State).refuseLost k).advance.returnSlots := by
  rw [State.forwardPacket, hk]
  simp only [he]

end

theorem started_port (s : State) (p i : Nat) (was k : Packet) : (s.started p i was k).port p = (s.port p).started s.tick was k :=
  port_setPort_same ..

theorem started_port_other (s : State) {p n : Nat} (i : Nat) (was k : Packet) (h : n ≠ p) : (s.started p i was k).port n = s.port n := by
  rw [State.started, port_setPort, if_neg h, sameButSends_noteSent_txns]
  rfl

theorem started_txns (s : State) (p i : Nat) (was k : Packet) : (s.started p i was k).txns = (s.noteSent k).txns := by
  show (({ s with egress := s.egress.eraseIdx i } : State).noteSent k).txns = (s.noteSent k).txns
  by_cases h : k.src = s.node ∧ isRequest k.kind = true
  · have hsent (u : State) (hu : u.node = s.node) : u.noteSent k = _ := if_pos (hu ▸ h)
    rw [hsent s rfl, hsent { s with egress := s.egress.eraseIdx i } rfl]
  · have hsame (u : State) (hu : u.node = s.node) : u.noteSent k = u := if_neg (hu ▸ h)
    rw [hsame s rfl, hsame { s with egress := s.egress.eraseIdx i } rfl]

theorem started_egress (s : State) (p i : Nat) (was k : Packet) : (s.started p i was k).egress = s.egress.eraseIdx i := by
  rw [State.started, sameButSends_noteSent_txns]
  rfl

theorem started_eq (s : State) (p i : Nat) (was k : Packet) : s.started p i was k =
    { s with egress := (s.started p i was k).egress, ports := (s.started p i was k).ports, txns := (s.started p i was k).txns } := by
  rw [State.started, sameButSends_noteSent_txns]
  rfl

/-! ### Beacons -/

theorem settlePrimary_tick (s : State) (x : BeaconData) : (s.settlePrimary x).tick = s.tick := by
  unfold State.settlePrimary
  split
  · rfl
  · split
    · rfl
    · dsimp only
      split <;> rfl

/-- A fault that is seen is remembered until the end of the next window. -/
theorem mem_seeFault (s : State) (f : FaultId) (origin : Nat) :
    ∃ e ∈ (s.seeFault f origin).log.seen, e.1 = f ∧ e.2.2 = (windowOf s.tick + 2) * 25000 := by
  unfold State.seeFault
  dsimp only
  split
  · rename_i hany
    obtain ⟨e, he, hef⟩ := List.any_eq_true.1 hany
    have hef : e.1 = f := by simpa using hef
    exact ⟨(e.1, e.2.1, (windowOf s.tick + 2) * 25000), List.mem_map.2 ⟨e, he, by rw [if_pos hef]⟩, hef, rfl⟩
  · exact ⟨_, List.mem_append_right _ (List.mem_singleton_self _), rfl, rfl⟩

/-- Settles O50: a packet leaves or stays by its route, and a beacon that is taken off the arrivals goes on. -/
theorem packetsAndBeaconsMoveOn : Obligations.PacketsAndBeaconsMoveOn := by
  unfold Obligations.PacketsAndBeaconsMoveOn
  refine ⟨fun s i k hk => ⟨fun p q he hc => ?_, fun p q he hc => ?_, fun he hd => ?_, fun he hl => ?_⟩,
    fun s p k f => ⟨fun hp hold hkind => ⟨?_, fun v l n h => if_pos h, fun v l n h => if_neg (by rw [h]; exact Bool.false_ne_true), ?_⟩, _, rfl,
        rfl, fun e => ?_⟩⟩
  · refine ⟨s.started p i k q, ?_, started_egress .., ?_, ?_, ?_, started_txns .., fun n hn => started_port_other s i k q hn, started_eq ..⟩
    · rw [exec_packetForward, execPacketForward, forwardPacket_exit hk he, if_pos hc, startPacket_eq]
    · rw [started_port]
      rfl
    · rw [started_port]
      exact sends_line _ _ (b2n (turnsHere k q)) _
    · rw [started_port]
      rfl
  · rw [exec_packetForward, execPacketForward, forwardPacket_exit hk he, if_neg (by rw [hc]; exact Bool.false_ne_true)]
  · rw [exec_packetForward, execPacketForward, forwardPacket_no_exit hk he, if_pos hd]
  · rw [exec_packetForward, execPacketForward, forwardPacket_no_exit hk he, if_neg (by rw [hl]; exact nofun)]
  · simp only [State.holds, Bool.and_eq_true] at hold
    obtain ⟨⟨hup, hwf⟩, harrived⟩ := hold
    rw [exec_beacon, execBeacon]
    have hin : (s.up && k.kind == kBEACON && s.arrived.contains k) = true := by rw [hup, harrived, hkind]; rfl
    simp only [hp, hwf, event, hin, Bool.and_self, Bool.not_true, Bool.false_eq_true, if_false, if_true]
  · have h := mem_seeFault ((s.take k).settlePrimary (BeaconData.ofPacket k)) (BeaconData.ofPacket k).fid (BeaconData.ofPacket k).origin
    rwa [settlePrimary_tick] at h
  · simp [imp_iff_not_or]

end Sys2Proof.Machine
end

section
/-! SUPPORT. Packets that are served (13, 14, 15). -/

namespace Sys2Proof.Machine

/-! ### The rows of a packet -/

theorem coSub_unpadded (s : State) (k : Packet) : coSub (s.unpadded k) = coSub k := by
  unfold State.unpadded
  split <;> rfl

/-- A collective packet is served by its subkind. -/
theorem servePacket_coll {k : Packet} (u : State) (m : Meets) (h : k.kind = kCOLL) : u.servePacket k m = u.serveColl (u.unpadded k) m := by
  rw [State.servePacket, h]
  rfl

/-- What a row serves is served whatever it has met, when nothing of it reads memory. -/
def meetsNothing (k : Packet) (m : Meets) : Prop := ∀ u : State, u.servePacket k {} = u.servePacket k m

section
variable {k : Packet} (m : Meets)

theorem meetsNothing_kind (h : k.kind = kSIGNAL ∨ k.kind = kBUCKET ∨ k.kind = kACK) : meetsNothing k m := by
  intro u
  rcases h with h | h | h <;> rw [State.servePacket, State.servePacket, h] <;> rfl

theorem meetsNothing_coll (h : k.kind = kCOLL) (hs : coSub k ∈ [skRING_MAX, skRING_SCALE, skROOT_DROP, skSTAGE_CREDIT, skRESHARD_UP,
    skRESHARD_DOWN]) :
    meetsNothing k m := by
  intro u
  rw [servePacket_coll u _ h, servePacket_coll u _ h, State.serveColl, State.serveColl, coSub_unpadded]
  simp only [List.mem_cons, List.not_mem_nil, or_false] at hs
  rcases hs with hs | hs | hs | hs | hs | hs <;> rw [hs] <;> rfl

end

/-- A row delivers its packet, and what it serves is what the packet asks with all that it has met. -/
def State.rowServes (s : State) (k : Packet) (m : Meets) (e : Bool × Instr) : Prop :=
  e.1 = true → ∃ m', exec e.2 s = deliver true k m' s ∧ ∀ u : State, u.servePacket k m' = u.servePacket k m

section
variable {s : State} {k : Packet} {m : Meets}

theorem rowServes_meets {b : Bool} {i : Instr} (h : exec i s = deliver b k m s) : s.rowServes k m (b, i) :=
  fun hb => ⟨m, h.trans (congrArg (deliver · k m s) hb), fun _ => rfl⟩

theorem rowServes_plain {b : Bool} {i : Instr} (h : exec i s = deliver b k {} s) (hm : b = true → meetsNothing k m) : s.rowServes k m (b, i) :=
  fun hb => ⟨{}, h.trans (congrArg (deliver · k {} s) hb), hm hb⟩

theorem isColl_iff {sub : Nat} : isColl sub k = true ↔ k.kind = kCOLL ∧ coSub k = sub := by
  simp [isColl]

theorem rowServes_coll {sub : Nat} {i : Instr} (h : exec i s = deliver (isColl sub k) k {} s)
    (hs : sub ∈ [skRING_MAX, skRING_SCALE, skROOT_DROP, skSTAGE_CREDIT, skRESHARD_UP, skRESHARD_DOWN]) : s.rowServes k m (isColl sub k, i) :=
  rowServes_plain h fun hb => by
    obtain ⟨hk, hsub⟩ := isColl_iff.1 hb
    exact meetsNothing_coll m hk (hsub ▸ hs)

theorem rowServes_kind {kind : Nat} {i : Instr} (h : exec i s = deliver (k.kind == kind) k {} s)
    (hs : kind = kSIGNAL ∨ kind = kBUCKET ∨ kind = kACK) : s.rowServes k m (k.kind == kind, i) :=
  rowServes_plain h fun hb => meetsNothing_kind m (by simpa [← beq_iff_eq.1 hb] using hs)

theorem packetRows_serve (s : State) (k : Packet) (m : Meets) : ∀ e ∈ packetRows k m, s.rowServes k m e := by
  simp only [packetRows, List.forall_mem_cons, List.not_mem_nil, false_imp_iff, implies_true, and_true]
  refine ⟨rowServes_meets rfl, rowServes_meets rfl, rowServes_meets rfl, rowServes_meets rfl, rowServes_meets rfl, rowServes_meets rfl,
    rowServes_meets rfl, rowServes_meets rfl, rowServes_meets rfl, rowServes_meets rfl, rowServes_meets rfl, rowServes_meets rfl,
    rowServes_meets rfl, rowServes_meets rfl, rowServes_meets rfl, rowServes_meets rfl, rowServes_kind rfl (.inl rfl),
    rowServes_kind rfl (.inr (.inl rfl)), rowServes_kind rfl (.inr (.inr rfl)), rowServes_coll rfl (by decide), rowServes_coll rfl (by decide),
    rowServes_coll rfl (by decide), rowServes_coll rfl (by decide), rowServes_coll rfl (by decide), rowServes_coll rfl (by decide)⟩

/-! ### The epoch check -/

/-- Kinds that the epoch check admits, refuses or lets in after the switch. -/
theorem epochChecked_iff : epochChecked k.kind = true ↔ k.kind = kRACC ∨ k.kind = kBUCKET ∨ k.kind = kDELTA ∨ k.kind = kCOLL := by
  simp [epochChecked, or_assoc]

theorem epochCheck_accept (h : k.epoch = s.epochNow ∧ (s.shard.begun = false ∨ k.kind = kCOLL)) : s.epochCheck k.kind k.epoch = .accept := by
  obtain ⟨he, hb | hk⟩ := h
  · simp [State.epochCheck, he, hb]
  · simp [State.epochCheck, he, hk]

theorem epochCheck_switch (he : k.epoch ≠ s.epochNow) (hb : s.shard.begun = true) (hh : s.switchHeld = false) (hp : k.epoch = s.epochPending) :
    s.epochCheck k.kind k.epoch = .switchFirst := by
  rw [State.epochCheck, if_neg he, if_pos (by simp [hb, hh, hp])]

theorem epochCheck_stale (ha : ¬(k.epoch = s.epochNow ∧ (s.shard.begun = false ∨ k.kind = kCOLL)))
    (hs : ¬(k.epoch ≠ s.epochNow ∧ s.shard.begun = true ∧ s.switchHeld = false ∧ k.epoch = s.epochPending)) :
    s.epochCheck k.kind k.epoch = .stale := by
  unfold State.epochCheck
  by_cases he : k.epoch = s.epochNow
  · rw [if_pos he, if_pos]
    simpa [he] using ha
  · rw [if_neg he, if_neg]
    simpa [he, and_assoc] using hs

theorem admitPacket_unchecked (h : epochChecked k.kind = false) : s.admitPacket k m = s.servePacket k m :=
  if_pos (by rw [h]; rfl)

theorem admitPacket_accept (h : s.epochCheck k.kind k.epoch = .accept) : s.admitPacket k m = s.servePacket k m := by
  have hnot : ¬(k.kind = kCOLL ∧ coSub k = skPARAM_DATA ∧ s.epochCheck kCOLL k.epoch = .stale) := by
    rintro ⟨hk, -, hstale⟩
    rw [← hk, h] at hstale
    contradiction
  unfold State.admitPacket State.letIn
  simp only [h, if_neg hnot, if_true, ite_self]

theorem admitPacket_switch (hc : epochChecked k.kind = true) (h : s.epochCheck k.kind k.epoch = .switchFirst) :
    s.admitPacket k m = (s.decideSwitch 0).servePacket k m := by
  have hnot : ¬(k.kind = kCOLL ∧ coSub k = skPARAM_DATA ∧ s.epochCheck kCOLL k.epoch = .stale) := by
    rintro ⟨hk, -, hstale⟩
    rw [← hk, h] at hstale
    contradiction
  unfold State.admitPacket State.letIn
  simp only [h, hc, if_neg hnot, if_true, Bool.not_true, Bool.false_eq_true, if_false]

theorem admitPacket_stale (hc : epochChecked k.kind = true) (h : s.epochCheck k.kind k.epoch = .stale)
    (hp : ¬(k.kind = kCOLL ∧ coSub k = skPARAM_DATA)) : s.admitPacket k m = s.countStale.answer k stEPOCH_STALE 0 := by
  have hnot : ¬(k.kind = kCOLL ∧ coSub k = skPARAM_DATA ∧ s.epochCheck kCOLL k.epoch = .stale) := fun ⟨hk, hs, _⟩ => hp ⟨hk, hs⟩
  unfold State.admitPacket State.letIn
  simp only [h, hc, if_neg hnot, Bool.not_true, Bool.false_eq_true, if_false]

theorem admitPacket_stale_param (hk : k.kind = kCOLL) (hs : coSub k = skPARAM_DATA) (h : s.epochCheck k.kind k.epoch = .stale) :
    s.admitPacket k m = s.countStale.respond k.txn stEPOCH_STALE 0 0 [] := by
  have hc : epochChecked k.kind = true := epochChecked_iff.2 (.inr (.inr (.inr hk)))
  unfold State.admitPacket
  simp only [hc, Bool.not_true, Bool.false_eq_true, if_false]
  exact if_pos ⟨hk, hs, hk ▸ h⟩

/-! ### Delivery -/

theorem deliver_of_waits (hold : s.holds k = true) (h : s.firstOfItsVc k = false ∨ s.stageTurn k = false) : deliver true k m s = .next s := by
  simp only [State.holds, Bool.and_eq_true] at hold
  rcases h with h | h <;> simp [deliver, event, hold.1.2, h]

theorem deliver_of_turn (hold : s.holds k = true) (hf : s.firstOfItsVc k = true) (ht : s.stageTurn k = true) :
    deliver true k m s = .next (((s.take k).admitPacket k m).advance.returnSlots) := by
  simp only [State.holds, Bool.and_eq_true] at hold
  obtain ⟨⟨hup, hwf⟩, harrived⟩ := hold
  simp only [deliver, event, hup, hwf, harrived, hf, ht, Bool.not_true, Bool.false_eq_true, if_false, Bool.and_self, if_true]

end

/-- Settles O51: every row delivers its packet, which is served by its kind once the epoch check lets it in. -/
theorem packetsAreServed : Obligations.PacketsAreServed := by
  unfold Obligations.PacketsAreServed
  intro s k m hold e he hrow u checked accepted switches
  obtain ⟨m', hexec, hserve⟩ := packetRows_serve s k m e he hrow
  refine ⟨fun hw => hexec.trans (deliver_of_waits hold hw), fun hf ht => ?_⟩
  have hrun {v : State} (h : u.admitPacket k m' = v) : exec e.2 s = .next v.advance.returnSlots := by
    rw [hexec, deliver_of_turn hold hf ht, h]
  refine ⟨fun h => hrun ?_, fun hc hs => hrun ?_, fun hc ha hs => ⟨fun hp => hrun ?_, fun hk hp => hrun ?_⟩⟩
  · rcases h with hc | ha
    · rw [admitPacket_unchecked (Bool.eq_false_iff.2 fun h => hc (epochChecked_iff.1 h)), hserve]
    · rw [admitPacket_accept (epochCheck_accept (s := u) ha), hserve]
  · rw [admitPacket_switch (epochChecked_iff.2 hc) (epochCheck_switch (s := u) hs.1 hs.2.1 hs.2.2.1 hs.2.2.2), hserve]
  · exact admitPacket_stale (epochChecked_iff.2 hc) (epochCheck_stale (s := u) ha hs) hp
  · exact admitPacket_stale_param hk hp (epochCheck_stale (s := u) ha hs)

end Sys2Proof.Machine
end

section
/-! SUPPORT. Memory packets, the answers to this module's own, and contributions to buckets (13 and 14). -/

namespace Sys2Proof.Machine

/-! ### The end of a packet's service -/

/-- Two states that differ in their ports alone. -/
def sameButPorts (s t : State) : Prop := t = { s with ports := t.ports }

theorem sameButPorts.trans {s t u : State} (h : sameButPorts s t) (g : sameButPorts t u) : sameButPorts s u := by
  unfold sameButPorts at *
  rw [g, h]

theorem sameButPorts.foldl {β : Type} {f : State → β → State} (hf : ∀ s x, sameButPorts s (f s x)) (l : List β) (s : State) :
    sameButPorts s (l.foldl f s) := by
  induction l generalizing s with
  | nil => rfl
  | cons x l ih => exact (hf s x).trans (ih _)

theorem sameButPorts_returnSlots (s : State) : sameButPorts s s.returnSlots := by
  refine sameButPorts.foldl (fun s p => ?_) (List.range 8) s
  dsimp only
  split <;> rfl

theorem sameButPorts.sameBytes {s t : State} (h : sameButPorts s t) : sameBytes s t := by
  rw [h]
  exact fun _ => rfl

/-- Nothing is under way here, and no transaction waits to be sent to a partner that is lost. -/
def State.quiet (s : State) : Prop := s.descs = [] ∧ ∀ x ∈ s.txns, x.queued = true → s.partnerLost x.dst = false

/-- What the service of a memory packet may change of the state before what may then run does. -/
def sameButService (s t : State) : Prop :=
  t = { s with arrived := t.arrived, egress := t.egress, mem := t.mem, clusters := t.clusters, domains := t.domains }

theorem sameButService.trans {s t u : State} (h : sameButService s t) (g : sameButService t u) : sameButService s u := by
  unfold sameButService at *
  rw [g, h]

theorem sameButDomains.service {s t : State} (h : sameButDomains s t) : sameButService s t := by
  rw [h]
  rfl

theorem sameButService_writeBytes (s : State) (a : Nat) (b : Bytes) : sameButService s (s.writeBytes a b) := by
  rw [writeBytes_eq]
  rfl

theorem sameButService.quiet {s t : State} (h : sameButService s t) (hq : s.quiet) : t.quiet := by
  rw [h]
  exact hq

theorem sameButService.populated {s t : State} (h : sameButService s t) (a n : Nat) : t.populated a n = s.populated a n :=
  populated_congr (fun w => by rw [h]; rfl) a n

theorem sameButService.rangeDomains {s t : State} (h : sameButService s t) (a n : Nat) : t.rangeDomains a n = s.rangeDomains a n :=
  rangeDomains_congr (fun w => by rw [h]; rfl) a n

theorem sameButService.rangeStatus {s t : State} (h : sameButService s t) (a n : Nat) (c : Bool) : t.rangeStatus a n c = s.rangeStatus a n c := by
  have hretired : t.touchesRetired a n = s.touchesRetired a n := by
    rw [h]
    rfl
  rw [State.rangeStatus, State.rangeStatus, h.populated, hretired]

theorem sameButPorts_served {v : State} (h : v.quiet) : sameButPorts v v.advance.returnSlots := by
  rw [advance_of_no_descs h.1, failNew_of_partners h.2]
  exact sameButPorts_returnSlots v

/-! ### Answers -/

/-- The packet that answers `k`. -/
def State.reply (s : State) (k : Packet) (kind status : Nat) (data : Bytes) : Packet :=
  { dst := k.src, src := s.node, kind := kind, epoch := k.epoch, txn := k.txn, hdr := opHeader k.addr data.length 0 status 0 0, data := data }

/-- The egress after `k` is answered, as the statement of O52 says it. -/
theorem answered_of_egress {s t : State} {k : Packet} {kind status : Nat} {data : Bytes} (h : t.egress = s.egress ++ [s.reply k kind status data]) :
    ∃ r : Packet, t.egress = s.egress ++ [r] ∧ r.dst = k.src ∧ r.src = s.node ∧ r.kind = kind ∧ r.txn = k.txn ∧
      r.hdr = opHeader k.addr data.length 0 status 0 0 ∧ r.data = data :=
  ⟨_, h, rfl, rfl, rfl, rfl, rfl, rfl⟩

theorem orWait_now {s : State} {ds : List Nat} (k : Packet) (m : Meets) (t : State) (h : s.asleep ds = []) : s.orWait k m ds t = t.touch ds :=
  if_pos (by rw [h]; rfl)

theorem touch_egress (s : State) (ds : List Nat) : (s.touch ds).egress = s.egress := by
  rw [sameButDomains_touch]

section
variable {s : State} {k : Packet}

theorem rangeStatus_ok {a n : Nat} (c : Bool) (hp : s.populated a n = true) (hr : s.touchesRetired a n = false) : s.rangeStatus a n c = stOK := by
  simp [State.rangeStatus, hp, hr]

theorem winOf_control {a : Nat} (hlo : controlBase ≤ a) (hhi : a < controlBase + 0x4000000) : winOf a = (.control, a - controlBase) := by
  unfold controlBase at *
  unfold winOf controlBase
  rw [if_neg (by omega), if_neg (by omega), if_neg (by omega), if_neg (by omega), if_neg (by omega), if_neg (by omega), if_neg (by omega),
    if_neg (by omega), if_neg (by omega), if_pos hhi]

theorem not_populated_control {a n : Nat} (hn : 0 < n) (hlo : controlBase ≤ a) (hhi : a < controlBase + 0x4000000) : s.populated a n = false := by
  have hgo (f : Nat) : s.populatedGo (f + 1) a n = false := by simp [State.populatedGo, winOf_control hlo hhi, State.winSize]
  rw [State.populated, hgo 63]
  simp [Nat.ne_of_gt hn]

theorem inCalico_iff {a n : Nat} : inCalico a n = true ↔ controlBase + 0x100000 ≤ a ∧ a + n ≤ controlBase + 0x200000 := by
  rw [inCalico, Bool.and_eq_true, decide_eq_true_iff, decide_eq_true_iff]
  exact Iff.rfl

/-- The Calico region is not populated. -/
theorem not_inCalico {a n : Nat} (hp : s.populated a n = true) (hn : 0 < n) : inCalico a n = false := by
  refine Bool.eq_false_iff.2 fun hc => ?_
  obtain ⟨hlo, hhi⟩ := inCalico_iff.1 hc
  have hin (c : Nat) (hl : c + 0x100000 ≤ a) (hh : a + n ≤ c + 0x200000) : c ≤ a ∧ a < c + 0x4000000 := by omega
  obtain ⟨h1, h2⟩ := hin controlBase hlo hhi
  exact Bool.false_ne_true ((not_populated_control hn h1 h2).symm.trans hp)
theorem writeAnswered_eq (s : State) (k : Packet) (a : Nat) (b : Bytes) :
    s.writeAnswered k {} a b = (s.writeBytes a b).send ((s.writeBytes a b).reply k kACK stOK []) := rfl

theorem serveWrite_now (ho : s.rangeStatus k.addr k.data.length false = stOK) (ha : s.asleep (s.rangeDomains k.addr k.data.length) = []) :
    s.serveWrite k {} = (s.writeAnswered k {} k.addr k.data).touch (s.rangeDomains k.addr k.data.length) := by
  rw [State.serveWrite]
  simp only [ho, ne_eq, not_true, if_false]
  exact orWait_now k {} _ ha

theorem serveWrite_refused {st : Nat} (hst : s.rangeStatus k.addr k.data.length false = st) (hne : st ≠ stOK) :
    s.serveWrite k {} = s.send (s.reply k kACK st []) := by
  rw [State.serveWrite]
  simp only [hst, if_pos hne]
  rfl

theorem serveRead_now (hp : s.populated k.addr k.bytes = true) (hr : s.touchesRetired k.addr k.bytes = false) (hn : 0 < k.bytes)
    (ha : s.asleep (s.rangeDomains k.addr k.bytes) = []) :
    s.serveRead k {} = (s.send (s.reply k kREAD_RESP stOK (s.readBytes k.addr k.bytes))).touch (s.rangeDomains k.addr k.bytes) := by
  have hcal := not_inCalico hp hn
  rw [State.serveRead]
  simp only [rangeStatus_ok true hp hr, ne_eq, not_true, if_false, orWait_now k {} _ ha, State.afterRead, State.readSrc, hcal, Bool.false_eq_true,
    corrections_nil]
  rfl

theorem serveSignal_now (hp : s.clusterPresent (k.addr / 64) = true) (ha : s.domOn (k.addr / 64 / 16) = true) :
    s.serveSignal k = ((s.addCounter (k.addr / 64) (k.addr % 64) (BitVec.ofNat 32 (field k.data 0 4))).send
      (s.reply k kACK stOK [])).touch [k.addr / 64 / 16] := by
  have hawake : s.asleep [k.addr / 64 / 16] = [] := by simp [State.asleep, ha]
  rw [State.serveSignal]
  simp only [hp, Bool.not_true, Bool.false_eq_true, if_false]
  exact orWait_now k {} _ hawake

/-- A packet outside the epoch check is served in its turn, and nothing else then runs: its answer is all that leaves. -/
theorem served_quiet {i : Instr} {v : State} {p : Packet} (hold : s.holds k = true) (hf : s.firstOfItsVc k = true) (hq : s.quiet)
    (hk : k.kind = kWRITE ∨ k.kind = kREAD_REQ ∨ k.kind = kSIGNAL) (hi : exec i s = deliver true k {} s) (hv : (s.take k).servePacket k {} = v)
    (hs : sameButService s v ∧ v.egress = s.egress ++ [p]) : ∃ t, exec i s = .next t ∧ sameButPorts v t ∧ t.egress = s.egress ++ [p] := by
  have hturn : s.stageTurn k = true := by
    rcases hk with hk | hk | hk <;> simp [State.stageTurn, hk, kWRITE, kREAD_REQ, kSIGNAL, kCOLL]
  have hfree : epochChecked k.kind = false := by
    rcases hk with hk | hk | hk <;> rw [hk] <;> rfl
  have hports := sameButPorts_served (hs.1.quiet hq)
  refine ⟨v.advance.returnSlots, ?_, hports, ?_⟩
  · rw [hi, deliver_of_turn hold hf hturn, admitPacket_unchecked hfree, hv]
  · rw [hports]
    exact hs.2

end

theorem sameButService.egress_touch {s t : State} {p : Packet} (ds : List Nat) (h : sameButService s t) (he : t.egress = s.egress ++ [p]) :
    sameButService s (t.touch ds) ∧ (t.touch ds).egress = s.egress ++ [p] :=
  ⟨h.trans (sameButDomains_touch t ds).service, (touch_egress t ds).trans he⟩

/-- A send adds its packet to what a change of memory or of clusters leaves. -/
theorem sameButService_send {s t : State} (p : Packet) (h : sameButService s t) (he : t.egress = s.egress) :
    sameButService s (t.send p) ∧ (t.send p).egress = s.egress ++ [p] :=
  ⟨h.trans rfl, congrArg (· ++ [p]) he⟩

theorem sameButPorts.counter {s t : State} (h : sameButPorts s t) (n c : Nat) : t.counter n c = s.counter n c := by
  rw [h]
  rfl

theorem sameButDomains.counter {s t : State} (h : sameButDomains s t) (n c : Nat) : t.counter n c = s.counter n c := by
  rw [h]
  rfl

/-! ### Answers to this module's own transactions -/

section
variable {s : State} (n st fl resp : Nat) (data : Bytes)

theorem respond_none (h : ∀ t ∈ s.txns, t.txn ≠ n) : s.respond n st fl resp data = s := by
  have hfind : s.txns.find? (·.txn == n) = none := List.find?_eq_none.2 fun t ht => by simpa using h t ht
  rw [State.respond, hfind]

variable {n} {t : Txn} (ht : s.txns = [t]) (hn : t.txn = n)
include ht hn

theorem respond_mirror {b id : Nat} (hu : t.use = .mirror b id) :
    s.respond n st fl resp data = ({ s with txns := [] } : State).mirrorAnswer b id st := by
  simp [State.respond, ht, hn, hu]

theorem respond_plain (hu : t.use = .plain) : s.respond n st fl resp data = { s with txns := [] } := by
  simp [State.respond, ht, hn, hu]

end

section
variable {s : State} {b id : Nat} (st : Nat)

theorem mirrorAnswer_stale (h : (s.bkt b).fwdSent = false ∨ (s.bkt b).fwdId ≠ id) : s.mirrorAnswer b id st = s := by
  rcases h with h | h <;> simp [State.mirrorAnswer, h]

theorem mirrorAnswer_last (ht : s.txns = []) (hs : (s.bkt b).fwdSent = true) (hid : (s.bkt b).fwdId = id) :
    (s.mirrorAnswer b id st).bkt b = { s.bkt b with
      fwdFailed := (s.bkt b).fwdFailed || st != stOK, fwdDone := (s.bkt b).fwdDone || !((s.bkt b).fwdFailed || st != stOK) } := by
  simp [State.mirrorAnswer, hs, hid, ht, bkt_setBkt]

theorem mirrorAnswer_txns : (s.mirrorAnswer b id st).txns = s.txns := by
  unfold State.mirrorAnswer
  dsimp only
  split <;> rfl

end

section
variable {s : State} {k : Packet} (hold : s.holds k = true) (hf : s.firstOfItsVc k = true) (hq : s.quiet)
include hold hf hq

theorem exec_write_now (hk : k.kind = kWRITE) (ho : s.rangeStatus k.addr k.data.length false = stOK)
    (ha : s.asleep (s.rangeDomains k.addr k.data.length) = []) :
    ∃ t, exec (.write k {}) s = .next t ∧ t.readBytes k.addr k.data.length = k.data ∧ sameBytesBut s t k.addr k.data.length ∧
      t.egress = s.egress ++ [s.reply k kACK stOK []] := by
  have htake : sameButService s (s.take k) := rfl
  have hserve := serveWrite_now (s := s.take k) ((htake.rangeStatus ..).trans ho) ((congrArg s.asleep (htake.rangeDomains ..)).trans ha)
  have hwritten := htake.trans (sameButService_writeBytes (s.take k) k.addr k.data)
  have hsent := sameButService_send (s.reply k kACK stOK []) hwritten (by rw [writeBytes_eq]; rfl)
  have hreply : ((s.take k).writeBytes k.addr k.data).reply k kACK stOK [] = s.reply k kACK stOK [] := by
    rw [writeBytes_eq]
    rfl
  rw [writeAnswered_eq, hreply] at hserve
  obtain ⟨t, ht, hports, he⟩ := served_quiet (i := .write k {}) hold hf hq (.inl hk) (by simp [execWrite, hk])
    ((show (s.take k).servePacket k {} = (s.take k).serveWrite k {} by rw [State.servePacket, hk]; rfl).trans hserve) (hsent.1.egress_touch _ hsent.2)
  have hbytes : sameBytes ((s.take k).writeBytes k.addr k.data) t := fun x =>
    (hports.sameBytes x).trans ((sameButDomains_touch ..).sameBytes x)
  refine ⟨t, ht, ?_, fun x hx => (hbytes x).trans ?_, he⟩
  · rw [hbytes.readBytes, readBytes_writeBytes]
  · exact sameBytesBut_writeBytes (s.take k) k.addr k.data x hx

theorem exec_write_refused {st : Nat} (hk : k.kind = kWRITE) (hst : s.rangeStatus k.addr k.data.length false = st) (hne : st ≠ stOK) :
    ∃ t, exec (.write k {}) s = .next t ∧ sameBytes s t ∧ t.egress = s.egress ++ [s.reply k kACK st []] := by
  have htake : sameButService s (s.take k) := rfl
  have hserve := serveWrite_refused (s := s.take k) ((htake.rangeStatus ..).trans hst) hne
  obtain ⟨t, ht, hports, he⟩ := served_quiet (i := .write k {}) hold hf hq (.inl hk) (by simp [execWrite, hk])
    ((show (s.take k).servePacket k {} = (s.take k).serveWrite k {} by rw [State.servePacket, hk]; rfl).trans hserve)
    (sameButService_send (s.reply k kACK st []) htake rfl)
  exact ⟨t, ht, hports.sameBytes, he⟩

theorem exec_readReq_now (hk : k.kind = kREAD_REQ) (hp : s.populated k.addr k.bytes = true) (hr : s.touchesRetired k.addr k.bytes = false)
    (hn : 0 < k.bytes) (ha : s.asleep (s.rangeDomains k.addr k.bytes) = []) :
    ∃ t, exec (.readReq k {}) s = .next t ∧ sameBytes s t ∧
      t.egress = s.egress ++ [s.reply k kREAD_RESP stOK (s.readBytes k.addr k.bytes)] := by
  have htake : sameButService s (s.take k) := rfl
  have hserve := serveRead_now (s := s.take k) ((htake.populated ..).trans hp) hr hn ((congrArg s.asleep (htake.rangeDomains ..)).trans ha)
  have hsent := sameButService_send (s.reply k kREAD_RESP stOK (s.readBytes k.addr k.bytes)) htake rfl
  obtain ⟨t, ht, hports, he⟩ := served_quiet (i := .readReq k {}) hold hf hq (.inr (.inl hk)) (by simp [execReadReq, hk])
    ((show (s.take k).servePacket k {} = (s.take k).serveRead k {} by rw [State.servePacket, hk]; rfl).trans hserve) (hsent.1.egress_touch _ hsent.2)
  exact ⟨t, ht, fun x => (hports.sameBytes x).trans ((sameButDomains_touch ..).sameBytes x), he⟩

theorem exec_signalPacket_now (hk : k.kind = kSIGNAL) (hp : s.clusterPresent (k.addr / 64) = true) (ha : s.domOn (k.addr / 64 / 16) = true) :
    ∃ t, exec (.signalPacket k) s = .next t ∧ sameBytes s t ∧ t.egress = s.egress ++ [s.reply k kACK stOK []] ∧
      ∀ n c, t.counter n c =
        if n = k.addr / 64 ∧ c = k.addr % 64 then s.counter n c + BitVec.ofNat 32 (field k.data 0 4) else s.counter n c := by
  have hserve := serveSignal_now (s := s.take k) hp ha
  have hadded : sameButService s ((s.take k).addCounter (k.addr / 64) (k.addr % 64) (BitVec.ofNat 32 (field k.data 0 4))) := rfl
  have hsent := sameButService_send (s.reply k kACK stOK []) hadded rfl
  obtain ⟨t, ht, hports, he⟩ := served_quiet (i := .signalPacket k) hold hf hq (.inr (.inr hk)) (by simp [execSignalPacket, hk])
    ((show (s.take k).servePacket k {} = (s.take k).serveSignal k by rw [State.servePacket, hk]; rfl).trans hserve) (hsent.1.egress_touch _ hsent.2)
  refine ⟨t, ht, fun x => (hports.sameBytes x).trans ((sameButDomains_touch ..).sameBytes x), he, fun n c => ?_⟩
  rw [hports.counter, (sameButDomains_touch ..).counter]
  exact counter_addCounter (s.take k) ..

end

/-- Settles O52: a memory packet acts and is answered as it is taken off the arrivals, and what the last answer to a forward says. -/
theorem memoryPacketsAct : Obligations.MemoryPacketsAct := by
  unfold Obligations.MemoryPacketsAct
  refine ⟨fun s k hold hf hd htx => ?_, fun s n st fl resp data => ⟨respond_none n st fl resp data, fun t b id ht hn hu => ?_,
    fun t ht hn hu => respond_plain st fl resp data ht hn hu⟩⟩
  · have hq : s.quiet := ⟨hd, htx⟩
    refine ⟨fun hk ho ha => ?_, fun hk st hst hne => ?_, fun hk hp hr hn ha => ?_, fun hk hp ha => ?_⟩
    · obtain ⟨t, ht, hread, hrest, he⟩ := exec_write_now hold hf hq hk ho ha
      exact ⟨t, ht, hread, hrest, answered_of_egress he⟩
    · obtain ⟨t, ht, hbytes, he⟩ := exec_write_refused hold hf hq hk hst hne
      exact ⟨t, ht, hbytes, answered_of_egress he⟩
    · obtain ⟨t, ht, hbytes, he⟩ := exec_readReq_now hold hf hq hk hp hr hn ha
      exact ⟨t, ht, hbytes, answered_of_egress he⟩
    · obtain ⟨t, ht, hbytes, he, hcount⟩ := exec_signalPacket_now hold hf hq hk hp ha
      exact ⟨t, ht, hbytes, answered_of_egress he, hcount⟩
  · intro u
    obtain ⟨v, hv, htx, hbkt⟩ : ∃ v : State, v = { s with txns := [] } ∧ v.txns = [] ∧ v.bkt b = s.bkt b := ⟨_, rfl, rfl, rfl⟩
    have hu : u = v.mirrorAnswer b id st := hv ▸ respond_mirror st fl resp data ht hn hu
    rw [hu, ← hbkt]
    refine ⟨(mirrorAnswer_txns st).trans htx, fun hs hid => ?_, fun h => congrArg (State.bkt · b) (mirrorAnswer_stale st h)⟩
    rw [mirrorAnswer_last st htx hs hid]
    refine ⟨fun hok hf => by simp [hok, hf], fun hne => ?_⟩
    simp [bne_iff_ne.2 hne]

end Sys2Proof.Machine
end

section
/-! SUPPORT. Contributions to buckets, and segments into stage queues (14 and 15). -/

namespace Sys2Proof.Machine

/-! ### Contributions -/

section
variable {s : State} {b n step : Nat} {r : BucketRec}

theorem countBucket_owned (hr : s.bucketRec b = some r) (ho : s.role b = some false) (hn : (s.bkt b).countN = 0xFFFFFFFF - (s.bkt b).count) :
    s.countBucket b n step =
      let x := s.bkt b
      let wrong := x.step != step
      let tooMany := x.eff != .opened || decide (r.expected < x.count + n)
      if wrong || tooMany then s.setBkt b { x with fault := true, misstep := x.misstep || wrong, overcount := x.overcount || tooMany }
      else (s.setBkt b ({ x with count := x.count + n, countN := 0xFFFFFFFF - (x.count + n) }.goto
        (if x.count + n = r.expected then .complete else .opened))).checkPrefetch b := by
  simp only [State.countBucket, hr, ho, if_pos hn]

theorem countBucket_stray (ho : s.role b = none) :
    s.countBucket b n step = { s with grad := { s.grad with stray := min (s.grad.stray + 1) 0xFFFF } } := by
  unfold State.countBucket
  rw [ho]
  cases s.bucketRec b <;> rfl

theorem countBucket_mirror (ho : s.role b = some true) : s.countBucket b n step = s := by
  unfold State.countBucket
  rw [ho]
  cases s.bucketRec b <;> rfl

end

/-- Settles O53: a contribution by the bucket's role here, and, at its owner, by its step and what COUNT then is. -/
theorem bucketsCount : Obligations.BucketsCount := by
  unfold Obligations.BucketsCount
  intro s b n step r x
  refine ⟨fun hr ho hn => ⟨fun h => ?_, fun hs he hc => ?_⟩, countBucket_stray, countBucket_mirror⟩
  · rw [countBucket_owned hr ho hn]
    exact if_pos (by simpa [or_assoc] using h)
  · rw [countBucket_owned hr ho hn]
    exact if_neg (by simpa using ⟨hs, he, hc⟩)

/-! ### Segments into stage queues -/

/-- What a stage has sent into the queue of a segment. -/
def State.txOf (s : State) (g : StageSeg) : StageTx := s.shard.tx.get {} (stageKey g.stage g.dir)

theorem offered_sent (x : StageTx) (g : StageSeg) (n : Nat) : (x.offered g n).sent = x.sent ∧ (x.offered g n).freed = x.freed := by
  unfold StageTx.offered
  split <;> exact ⟨rfl, rfl⟩

/-- The state once a stage has offered a segment, which joins those that wait. -/
def State.offersSegment (s : State) (g : StageSeg) : State :=
  { s with shard := { s.shard with
    tx := s.shard.tx.set {} (stageKey g.stage g.dir) ((s.txOf g).offered g (max 1 s.pipe.microBatches)), sends := s.shard.sends ++ [g] } }

section
variable {s : State} {g : StageSeg}

theorem exec_stageSend_offered (hw : g.wf = true) (hup : s.up = true) (hf : s.feeds g = true) (hn : s.follows g = true) :
    exec (.stageSend g) s = .next (s.offersSegment g).trySends := by
  rw [exec_stageSend, execStageSend, guarded, if_pos hw, if_neg (by simp [hup, hf, hn])]
  rfl

theorem exec_stageSend_not (hw : g.wf = true) (h : s.feeds g = false ∨ s.follows g = false) : exec (.stageSend g) s = .next s := by
  rcases h with h | h <;> simp [execStageSend, guarded, hw, h]

theorem txOf_offersSegment : (s.offersSegment g).txOf g = (s.txOf g).offered g (max 1 s.pipe.microBatches) := SMap.get_set_same ..

theorem lacksCredit_offersSegment : (s.offersSegment g).lacksCredit g = s.lacksCredit g := by
  obtain ⟨hsent, hfreed⟩ := offered_sent (s.txOf g) g (max 1 s.pipe.microBatches)
  have htx : (s.offersSegment g).shard.tx.get {} (stageKey g.stage g.dir) = _ := txOf_offersSegment
  have hcredit : (s.offersSegment g).sendCredit g = s.sendCredit g := rfl
  unfold State.lacksCredit
  dsimp only
  rw [hcredit, htx, hsent, hfreed]
  rfl

/-- A single segment that waits: without credit it goes on waiting. -/
theorem trySends_lacking (hs : s.shard.sends = [g]) (h : s.lacksCredit g = true) : s.trySends = s := by
  simp only [State.trySends, hs, State.sendsGo, h, Bool.or_true, Bool.true_or, if_true]
  rw [← hs]

/-- With credit, its source awake and on no retired page, it starts. -/
theorem trySends_starting (hs : s.shard.sends = [g]) (h : s.lacksCredit g = false) (hr : s.touchesRetired g.src g.len = false)
    (ha : s.asleep (s.sendDomains g) = []) :
    s.trySends = { s.startSegment g with shard := { (s.startSegment g).shard with sends := [] } } := by
  simp [State.trySends, hs, State.sendsGo, h, hr, ha]

theorem sendDomains_away (h : s.stageNode g.stage ≠ s.node) : s.sendDomains g = s.rangeDomains g.src g.len := by
  simp [State.sendDomains, h]

/-- The state with a segment's bytes counted in SENT, and their accesses made. -/
def State.countsSegment (s : State) (g : StageSeg) : State :=
  ({ s.corrections g.meets.ces g.src g.len with shard := { s.shard with
    tx := s.shard.tx.set {} (stageKey g.stage g.dir) { s.txOf g with sent := ((s.txOf g).sent + g.len) % 2 ^ 64 } } }).touch
    (s.rangeDomains g.src g.len)

theorem startSegment_away (h : s.stageNode g.stage ≠ s.node) :
    s.startSegment g = (s.countsSegment g).sendColl (s.stageNode g.stage) skSTAGE_DATA (g.dir + 2 * b2n g.last) g.stage g.microBatch (g.off / 64)
      g.step (s.readBytes g.src g.len) :=
  if_neg h

theorem countsSegment_leaves : sameBytes s (s.countsSegment g) ∧ (s.countsSegment g).egress = s.egress ∧
    (s.countsSegment g).shard = { s.shard with
      tx := s.shard.tx.set {} (stageKey g.stage g.dir) { s.txOf g with sent := ((s.txOf g).sent + g.len) % 2 ^ 64 } } := by
  unfold State.countsSegment
  rw [sameButDomains_touch, sameButLog_corrections]
  exact ⟨fun _ => rfl, rfl, rfl⟩

/-- A collective packet sent adds itself to what leaves, and nothing of memory or of the stages differs. -/
theorem sendColl_leaves (s : State) (dst sub flags b12 b13 subject step : Nat) (data : Bytes) :
    ∃ k : Packet, (s.sendColl dst sub flags b12 b13 subject step data).egress = s.egress ++ [k] ∧ k.dst = dst ∧ k.kind = kCOLL ∧ k.data = data ∧
      sameBytes s (s.sendColl dst sub flags b12 b13 subject step data) ∧
      (s.sendColl dst sub flags b12 b13 subject step data).shard = s.shard :=
  ⟨_, rfl, rfl, rfl, rfl, fun _ => rfl, rfl⟩

/-- A segment that starts leaves as one packet, and counts in SENT. -/
theorem startSegment_leaves (h : s.stageNode g.stage ≠ s.node) : sameBytes s (s.startSegment g) ∧
    (s.startSegment g).txOf g = { s.txOf g with sent := ((s.txOf g).sent + g.len) % 2 ^ 64 } ∧
    ∃ k : Packet, (s.startSegment g).egress = s.egress ++ [k] ∧ k.dst = s.stageNode g.stage ∧ k.kind = kCOLL ∧
      k.data = s.readBytes g.src g.len := by
  obtain ⟨hbytes, hegress, hshard⟩ := countsSegment_leaves (s := s) (g := g)
  obtain ⟨k, hk, hdst, hkind, hdata, hsame, htx⟩ := sendColl_leaves (s.countsSegment g) (s.stageNode g.stage) skSTAGE_DATA (g.dir + 2 * b2n g.last)
    g.stage g.microBatch (g.off / 64) g.step (s.readBytes g.src g.len)
  rw [startSegment_away h]
  refine ⟨fun x => (hsame x).trans (hbytes x), ?_, k, hk.trans (by rw [hegress]), hdst, hkind, hdata⟩
  rw [State.txOf, htx, hshard]
  exact SMap.get_set_same ..

theorem stageTick_single (hs : s.shard.sends = [g]) (h : s.lacksCredit g = true) : s.stageTick = s.countStall (g.group, g.dir) := by
  rw [State.stageTick, hs, List.filter_cons_of_pos h]
  rfl

end

/-- Settles O54: what a segment does as it is offered, with and without credit, and the stall of a tick. -/
theorem stagesSend : Obligations.StagesSend := by
  unfold Obligations.StagesSend
  refine ⟨fun s g hw hup hs => ?_, fun s g hs hl => ?_⟩
  · intro key x
    have hsends : (s.offersSegment g).shard.sends = [g] := congrArg (· ++ [g]) hs
    obtain ⟨hsent, hfreed⟩ := offered_sent (s.txOf g) g (max 1 s.pipe.microBatches)
    refine ⟨fun hf hn => ⟨fun hl hnode hr ha => ?_, fun hl => ?_⟩, exec_stageSend_not hw⟩
    · obtain ⟨hbytes, htx, k, hk, hdst, hkind, hdata⟩ := startSegment_leaves (s := s.offersSegment g) (g := g) hnode
      have hstart := trySends_starting hsends (lacksCredit_offersSegment.trans hl) hr (by
        rw [sendDomains_away (s := s.offersSegment g) hnode, rangeDomains_congr (s := s) (t := s.offersSegment g) fun _ => rfl]
        exact ha)
      rw [txOf_offersSegment] at htx
      exact ⟨_, (exec_stageSend_offered hw hup hf hn).trans (congrArg _ hstart), hbytes, rfl,
        (congrArg StageTx.sent htx).trans (by rw [hsent]; rfl), (congrArg StageTx.freed htx).trans hfreed, k, hk, hdst, hkind, hdata⟩
    · exact ⟨_, (exec_stageSend_offered hw hup hf hn).trans (congrArg _ (trySends_lacking hsends (lacksCredit_offersSegment.trans hl))),
        fun _ => rfl, hsends, rfl, (congrArg StageTx.sent txOf_offersSegment).trans hsent, (congrArg StageTx.freed txOf_offersSegment).trans hfreed⟩
  · rw [stageTick_single hs hl]
    intro x
    exact (SMap.get_set_same ..).trans rfl

end Sys2Proof.Machine
end

section
/-! SUPPORT. What the data movers repeat and wait for, and the vote for a switch (11, 14, 15). -/

namespace Sys2Proof.Machine

/-! ### Limits -/

section
variable {s : State} {n : Nat}

theorem overdue_of_due_lt (h : s.due n < s.tick) : s.overdue n = true := decide_eq_true h

theorem not_overdue_of_le_due (h : s.tick ≤ s.due n) : s.overdue n = false := decide_eq_false (Nat.not_lt.2 h)

theorem runOut_of_overdue (h : s.overdue n = true) : s.runOut n = true := by simp [State.runOut, h]

theorem not_runOut_of_lt_due (h : s.tick < s.due n) : s.runOut n = false := by
  simp [State.runOut, not_overdue_of_le_due (Nat.le_of_lt h), Nat.ne_of_gt h]

theorem runOut_of_due (h : s.due n = s.tick) (hp : s.pending = []) : s.runOut n = true := by
  simp [State.runOut, State.sameTick, h, hp]

end

/-! ### Contested words -/

section
variable {s : State} {d : Desc} {a k : Nat} {b : Bytes} {rest : List (Nat × Bytes × Nat)}

/-- A change of one descriptor that leaves its number is found under it. -/
theorem desc?_updDesc {t : State} (f : Desc → Desc) (hd : t.descs = s.descs.map fun x => if x.id = d.id then f x else x) (hf : ∀ x, (f x).id = x.id)
    (h : s.desc? d.id = some d) : t.desc? d.id = some (f d) := by
  unfold State.desc? at h ⊢
  rw [hd, List.find?_map]
  have hsame : ((fun x : Desc => x.id == d.id) ∘ fun x => if x.id = d.id then f x else x) = fun x => x.id == d.id := by
    funext x
    by_cases hx : x.id = d.id
    · simp [hx, hf]
    · simp [hx]
  rw [hsame, h]
  simp

/-- A descriptor that is owed its completion does not go on. -/
theorem wordsDone_of_done {t : State} (f : Desc → Desc) (hd : t.descs = s.descs.map fun x => if x.id = d.id then f x else x)
    (hf : ∀ x, (f x).id = x.id ∧ (f x).work = x.work) {st fl : Nat} {r : Word} (h : s.desc? d.id = some d) (hw : d.work = .done st fl r) :
    t.wordsDone d.id = t := by
  have hwork : t.work? d.id = some (.done st fl r) := by
    rw [State.work?, desc?_updDesc f hd (fun x => (hf x).1) h, Option.map_some, (hf d).2, hw]
  rw [State.wordsDone, hwork]

theorem retryWord_wins (h : d.retry = (a, b, k) :: rest) :
    s.retryWord d false = (s.writeBytes a b).updDesc d.id fun x => { x with retry := rest } := by
  rw [State.retryWord, h]
  rfl

/-- What a repeat that loses leaves of the descriptor's words. -/
def Desc.loses (a k : Nat) (b : Bytes) (rest : List (Nat × Bytes × Nat)) (x : Desc) : Desc :=
  if 15 ≤ k then { x with retry := rest, dropped := true } else { x with retry := (a, b, k + 1) :: rest }

theorem retryWord_loses (h : d.retry = (a, b, k) :: rest) :
    ∃ t : State, s.retryWord d true = t.updDesc d.id (Desc.loses a k b rest) ∧ sameBytes s t ∧ t.descs = s.descs := by
  have hdescs (t : State) (dropped : Bool) : (t.countLoss a dropped).descs = t.descs := by
    unfold State.countLoss
    split <;> rfl
  rw [State.retryWord, h]
  by_cases hk : 15 ≤ k
  · have hloses : Desc.loses a k b rest = fun x => { x with retry := rest, dropped := true } := funext fun x => if_pos hk
    refine ⟨(s.countLoss a false).countLoss a true, ?_, fun x => (sameBytes_countLoss _ a true x).trans (sameBytes_countLoss s a false x), ?_⟩
    · rw [hloses]
      exact if_pos (show 16 ≤ k + 1 by omega)
    · rw [hdescs, hdescs]
  · have hloses : Desc.loses a k b rest = fun x => { x with retry := (a, b, k + 1) :: rest } := funext fun x => if_neg hk
    refine ⟨s.countLoss a false, ?_, sameBytes_countLoss s a false, hdescs s false⟩
    rw [hloses]
    exact if_neg (show ¬16 ≤ k + 1 by omega)

theorem exec_dataMoverRetry_losing {n : Nat} (hn : clusterOk n = true) (hl : s.losing n = some d) (lost : Bool) :
    exec (.dataMoverRetry n lost) s = .next ((s.retryWord d lost).wordsDone d.id) := by
  simp only [exec_dataMoverRetry, execDataMoverRetry, guarded, hn, if_true, hl]

theorem Desc.loses_keeps (x : Desc) : (Desc.loses a k b rest x).id = x.id ∧ (Desc.loses a k b rest x).work = x.work := by
  unfold Desc.loses
  split <;> exact ⟨rfl, rfl⟩

theorem descs_writeBytes (s : State) (a : Nat) (b : Bytes) : (s.writeBytes a b).descs = s.descs := by
  rw [writeBytes_eq]

end

theorem drainedInTime_late {s : State} {d : Desc} (hb : Pm.bucket d.bytes ≠ 0xFFFFFFFF) (hi : d.inTime = false)
    (h : (s.bkt (Pm.bucket d.bytes)).drained = false ∨ s.overdue d.limit = true) : s.drainedInTime d = false := by
  rcases h with h | h <;> simp [State.drainedInTime, hb, hi, h]

/-- Settles O16: limits, repeats of contested words, the deadlines of the descriptors that wait, and the votes. -/
theorem moversWaitAndVote : Obligations.MoversWaitAndVote := by
  unfold Obligations.MoversWaitAndVote
  refine ⟨fun s n => ?_, fun s n a k b rest d hn hl hr => ?_, fun s d hd => ⟨fun p a u fl hw hu => ?_, fun st l hw => ?_, fun hg h0 ho => ?_,
    fun hty hf hw hrun hb hi hlate => ?_⟩, fun s d st hbeg => ⟨fun hwait hready => ?_, fun hfin hrun hw => ?_, fun hfin hrun hw hlate => ?_⟩⟩
  · exact ⟨fun h => ⟨runOut_of_overdue (overdue_of_due_lt h), overdue_of_due_lt h⟩, not_runOut_of_lt_due, not_overdue_of_le_due, runOut_of_due⟩
  · intro goesOn
    constructor
    · have hdescs : (s.retryWord d false).descs = s.descs.map fun x => if x.id = d.id then { x with retry := rest } else x := by
        rw [retryWord_wins hr]
        exact congrArg (List.map _) (descs_writeBytes s a b)
      refine ⟨s.retryWord d false, ⟨exec_dataMoverRetry_losing hn hl false,
        fun st fl r => wordsDone_of_done _ hdescs fun _ => ⟨rfl, rfl⟩⟩, ?_, ?_, hdescs⟩
      · rw [retryWord_wins hr]
        exact readBytes_writeBytes s a b
      · rw [retryWord_wins hr]
        exact sameBytesBut_writeBytes s a b
    · obtain ⟨t, ht, hbytes, htd⟩ := retryWord_loses (s := s) hr
      have hdescs : (s.retryWord d true).descs = s.descs.map fun x => if x.id = d.id then Desc.loses a k b rest x else x := by
        rw [ht]
        exact congrArg (List.map _) htd
      exact ⟨s.retryWord d true, ⟨exec_dataMoverRetry_losing hn hl true,
        fun st fl r => wordsDone_of_done _ hdescs Desc.loses_keeps⟩, ht ▸ hbytes, hdescs⟩
  · simp [execDeltaSegmentRetry, event, hd, hw, hu]
  · simp [execGatherRetry, hd, hw]
  · simp [execGatherDeadline, event, hd, hg, ho, Nat.ne_of_gt h0]
  · simp [execPermuteDrainTimeout, event, hd, hty, hf, hw, hrun, hi, drainedInTime_late hb hi hlate]
  · simp [execPermuteFinal, event, hwait, hbeg, hready]
  · simp [execFinalDrainTimeout, event, hfin, hw, hrun]
  · rcases hlate with h | h <;> simp [execFinalDrainTimeout, event, hfin, hw, hrun, hbeg, h]

end Sys2Proof.Machine
end

section
/-! SUPPORT. A write of OPEN_STEP (14). -/

namespace Sys2Proof.Machine

/-- A started module on which the step is free and stage queue 0 takes the segments of step 1. -/
def queuedStep : State :=
  { State.reset with
    up := true, mpRunning := true, startPhase := 4
    domains := [(46, { domainDefault 46 with st := .on })]
    shard := { State.reset.shard with queues := [(0, { step := some 1 })] } }

/-- The steps that the stage queues take after a command. -/
def queueStepsAfter (i : Instr) (s : State) : List (Option Nat) := match exec i s with
  | .next t => t.shard.queues.map fun e => e.2.step
  | _ => []

/-- Refutes O17: a write of OPEN_STEP that takes effect also has the stage queues take the step of their next message from it, and the state
that the statement gives keeps theirs. -/
theorem not_gatesFormAndObey : ¬ Obligations.GatesFormAndObey := by
  unfold Obligations.GatesFormAndObey
  intro h
  obtain ⟨-, -, -, -, hstep⟩ := h.2 queuedStep { half := .both, v := 2 } [] (by decide +kernel)
  have hexec := (hstep 2 (by decide)).1 (by decide +kernel)
  have hfreed : queueStepsAfter (.gblStepWrite { half := .both, v := 2 }) queuedStep = [none] := by decide +kernel
  simp only [queueStepsAfter, hexec] at hfreed
  exact absurd hfreed (by decide +kernel)

end Sys2Proof.Machine
end

section
/-! SUPPORT. SOLVEs, folds and engine swaps (10). -/

namespace Sys2Proof.Machine

/-! ### The start of a SOLVE -/

theorem sameButLog_engineErrors (s : State) (e : Nat) (d : Option Desc) (ces : List (Nat × Nat)) : sameButLog s (s.engineErrors e d ces) :=
  .foldl (f := fun (s : State) (r : Nat × Nat) => s.corrections ces r.1 r.2) (fun _ _ => sameButLog_corrections ..) _ s

section
variable {s : State} {e : Nat}

theorem exec_solveStart_head {d : Desc} (he : engineOk e = true) (hp : s.enginePresent e = true) (hr : (s.eng e).run = none)
    (hh : s.headSolve e = some d) : exec (.solveStart e) s = .next ((s.beginSolve e d).retryLocal).advance := by
  simp only [exec_solveStart, execSolveStart, guarded, he, hp, hr, hh, if_true, Bool.not_true, Bool.false_eq_true, if_false]

theorem exec_solveStart_absent {d : Desc} (he : engineOk e = true) (hp : s.enginePresent e = false) (hq : s.engineQueue e = [d]) :
    exec (.solveStart e) s = .next (s.setWork d.id (.done stUNSUPPORTED 0 (emptyResult d.bytes))) := by
  simp only [exec_solveStart, execSolveStart, guarded, he, hp, if_true, Bool.not_false, State.dropSolves, hq, List.foldl_cons, List.foldl_nil]

/-- A SOLVE whose factor is free and whose memory serves leaves its Wait phase. -/
theorem beginSolve_ready {d : Desc} {r : FactorRec} (hb : s.factorBusy d = false) (ho : s.orderOk d = true) (hs : s.swapDue e = false)
    (hd : s.overdue d.limit = false) (ha : s.asleep (s.needs d) = []) (hr : s.factorRec (So.factor d.bytes) = some r) :
    s.beginSolve e d =
      if s.readRetired e (So.factor d.bytes) r.dim (soWarm d.bytes) then s.setWork d.id (.done stRETIRED_PAGE 0 (emptyResult d.bytes))
      else (((s.meetErrors d).engineErrors e none d.ces).startSolve e d r).beginUnit e := by
  simp [State.beginSolve, hb, ho, hs, hd, ha, hr]

end

theorem emptyResult_solve {b : Bytes} (h : dType b = tySOLVE) : (emptyResult b).toNat = 0x7F800000 := by
  rw [emptyResult, if_pos h]
  decide

/-! ### The phases of a SOLVE -/

/-- The state once a unit of work of the running SOLVE `v` has ended as `u`. -/
def State.unitEnded (s : State) (e : Nat) (ces : List (Nat × Nat)) (v u : Solve) : State :=
  ((((s.engineErrors e (s.desc? v.id) ces).setEng e { s.eng e with run := some { u with flags := v.flags ||| u.flags } }).noteUnderrun e
    u.flags).beginUnit e)

section
variable {s : State} {e : Nat} {ces : List (Nat × Nat)} {v : Solve} (hrun : (s.eng e).run = some v)
include hrun

theorem workEnds_eq {phase : SolvePhase} {isOf : Nat → Bool} (f : Solve → Solve) (hd : s.overdue v.deadline = false) (hp : (s.eng e).products = [])
    (hphase : v.phase = phase) (hm : isOf v.method = true) : s.workEnds e phase isOf f ces = s.unitEnded e ces v (f { v with flags := 0 }) := by
  rw [State.workEnds, hrun]
  exact if_pos ⟨hphase, hd, hm, hp⟩

end

/-- The flags of a phase that the deadline cuts short are some of those of its unit. -/
theorem partFlags_and (s : State) (v : Solve) : s.partFlags v &&& (unitOf { v with flags := 0 } (s.offOf v)).flags = s.partFlags v := by
  rw [State.partFlags, Nat.and_comm, ← Nat.and_assoc, Nat.and_self]

theorem sameButLog.offOf {s t : State} (h : sameButLog s t) (v : Solve) : t.offOf v = s.offOf v := by
  rw [h]
  rfl

theorem sameButLog.overdue {s t : State} (h : sameButLog s t) (n : Nat) : t.overdue n = s.overdue n := by
  rw [h]
  rfl

section
variable {s : State} {e : Nat} {v : Solve}

theorem stopSolve_late (hp : v.phase = .start ∨ v.phase = .compute) (ho : s.overdue v.deadline = true) :
    sameBytes s (s.stopSolve e v) ∧ (s.stopSolve e v).descs = s.descs ∧ ((s.stopSolve e v).eng e).products = [] ∧
      ((s.stopSolve e v).eng e).run = some { v with phase := .choose, late := true, flags := v.flags ||| s.partFlags v } := by
  rw [State.stopSolve, if_pos ⟨hp, ho⟩]
  refine ⟨fun _ => rfl, rfl, ?_, ?_⟩
  · simp [State.noteUnderrun, eng_setEng]
  · simp [State.noteUnderrun, eng_setEng]

theorem exec_solveDeadline_running {d : Desc} (ces : List (Nat × Nat)) (hd : s.desc? v.id = some d) (hpl : d.place = .engine e) (hw : d.work = .solve)
    (hr : (s.eng e).run = some v) : exec (.solveDeadline v.id ces) s = .next ((s.engineErrors e (some d) ces).stopSolve e v) := by
  simp only [exec_solveDeadline, execSolveDeadline, hd, hpl, hw, hr, if_true]

end

/-- Settles O18: the start, the phases, the deadline and the end of a SOLVE. -/
theorem solvesRun : Obligations.SolvesRun := by
  unfold Obligations.SolvesRun
  intro s e ces he logged
  refine ⟨fun d r hp hr hh hb ho hs hd ha hf => ⟨fun hret => ?_, fun hret => ?_⟩, fun d hp hq => exec_solveStart_absent he hp hq,
    fun b => emptyResult_solve, fun v hr hd hprod => ?_, fun v d hd hpl hw hr hph ho => ?_, fun d hd hty hpl hw ho => ?_, fun v hr hph ha => ?_⟩
  · rw [exec_solveStart_head he hp hr hh, beginSolve_ready hb ho hs hd ha hf, if_neg (by rw [hret]; exact Bool.false_ne_true)]
  · rw [exec_solveStart_head he hp hr hh, beginSolve_ready hb ho hs hd ha hf, if_pos hret]
  · intro v0 done
    refine ⟨fun hph => ?_, fun hph hm => ?_, fun hph hm => ?_, fun hph hm => ?_⟩
    · rw [exec_startResidualEnd, execStartResidualEnd, guarded, if_pos he, workEnds_eq hr _ hd hprod hph rfl]
      rfl
    · rw [exec_solveIterationEnd, execSolveIterationEnd, guarded, if_pos he, workEnds_eq hr _ hd hprod hph (by rw [hm]; rfl)]
      rfl
    · rw [exec_solveFactorisationEnd, execSolveFactorisationEnd, guarded, if_pos he, workEnds_eq hr _ hd hprod hph (by rw [hm]; rfl)]
      exact congrArg (fun u => Host.Outcome.next (s.unitEnded e ces v u)) (if_pos hm)
    · rw [exec_solveFactorisationEnd, execSolveFactorisationEnd, guarded, if_pos he,
        workEnds_eq (isOf := (· != 1)) hr _ hd hprod hph (bne_iff_ne.2 (show v.method ≠ 1 by omega))]
      exact congrArg (fun u => Host.Outcome.next (s.unitEnded e ces v u)) (if_neg (show ¬v.method = 0 by omega))
  · have hlog := sameButLog_engineErrors s e (some d) ces
    obtain ⟨hbytes, hdescs, hprod, hrun⟩ := stopSolve_late (s := s.engineErrors e (some d) ces) (e := e) hph ((hlog.overdue _).trans ho)
    refine ⟨_, _, exec_solveDeadline_running ces hd hpl hw hr, ?_, fun x => (hbytes x).trans (hlog.sameBytes x), hrun, hprod, hdescs.trans hlog.descs⟩
    have hfl := partFlags_and (s.engineErrors e (some d) ces) v
    rwa [hlog.offOf] at hfl
  · simp [execSolveDeadline, event, hd, hpl, hw, hty, ho]
  · simp only [exec_solvePublish, execSolvePublish, guarded, he, if_true, hr, if_pos (And.intro hph ha)]
    rfl

/-! ### Folds, swaps and reservations -/

/-- Settles O19: the fold of a ring's oldest packet, the swap of a marked engine, and a reservation that lapses. -/
theorem foldsAndSwaps : Obligations.FoldsAndSwaps := by
  unfold Obligations.FoldsAndSwaps
  intro s e f ces
  refine ⟨fun r p rest hf hr hring hfold hbar => ?_, fun he hdue hon hrun => ?_, fun txn r hf hres htxn hout => ?_⟩
  · have hhead : exec (.deltaPacketFold f ces) s = .next (if (s.asleep s.sergeDomains).isEmpty then
        ((((s.touch s.sergeDomains).corrections ces (s.factorBase f) (factorSize r.dim)).foldNext f).1.retryLocal).advance
        else s.wakeAll (s.asleep s.sergeDomains)) := by
      have hnone : (s.foldEngine f r).isNone = false := Option.isNone_eq_false_iff.2 (Option.isSome_iff_ne_none.2 hfold)
      simp only [exec_deltaPacketFold, execDeltaPacketFold, guarded, hf, if_true, State.foldHead, hr, hring, hnone, hbar, Bool.or_self,
        Bool.false_eq_true, if_false]
    rw [hhead]
    exact ⟨fun ha => by simp [ha], fun ha => by simp [ha]⟩
  · have hswap : exec (.sergeSwap e) s = .next (if (s.replaceEngine e).enginePresent e then s.replaceEngine e else (s.replaceEngine e).dropSolves
        e) := by
      simp only [exec_sergeSwap, execSergeSwap, guarded, he, hdue, hon, hrun, if_true, Option.isNone_none, Bool.and_self, Bool.not_true,
        Bool.false_eq_true, if_false]
    rw [hswap]
    exact ⟨fun hp => by rw [if_pos hp], fun hp => by rw [hp]; rfl⟩
  · simp [execDeltaReservationTimeout, guarded, hf, hres, htxn, hout, State.dropReserve]

end Sys2Proof.Machine
end
